-- ==== Sys2Proof/Word.lean ====
section
/-! DEFINITION. The two word sizes of the line: one byte, and the two-byte field sent most significant byte first
(spec/10, section 10.2). Everything that is only counted, compared or used as an index is a `Nat` in the machine. -/

namespace Sys2Proof

/-- One byte of a telegram. -/
abbrev Byte := BitVec 8

/-- A two-byte field of a telegram, or a set of up to sixteen bits (the status flags, an area set). -/
abbrev Half := BitVec 16

end Sys2Proof
end

