-- ==== Sys2Proof/Syntax.lean ====
section
/-! DEFINITION. The commands of the Vahrow 3316: one constructor for each row of spec/opcode_table.json, in the table's
order. A command that is the arrival of a telegram carries the telegram (its header and its records) and `ms`, the
milliseconds the oscillator has counted since the last tick when it arrives (R161). -/

namespace Sys2Proof

/-- The two line ports (R169). -/
inductive PortId where
  | plant
  | console
  deriving DecidableEq, Repr

/-- One record of a telegram body: its code, and the bytes after its length byte (spec/10, section 10.6). -/
structure Rec where
  code : Byte
  data : List Byte
  deriving DecidableEq, Repr

/-- A telegram without its kind: the header fields of R176 (version 1 is implied, the record count is the number of
records), the records, and the padding after the last counted record (R170). -/
structure Frame where
  dest     : Byte
  source   : Byte
  seat     : Byte
  seq      : Half
  operator : Half
  recs     : List Rec
  pad      : List Byte := []
  deriving DecidableEq, Repr

/-- The commands, one constructor for each row of spec/opcode_table.json. -/
inductive Instr where
  /-- POWER_ON: `retainedHolds` says that the retained store's contents pass their check, the other two give each
  port's physical link at that moment (R192, R169). -/
  | powerOn (retainedHolds plantUp consoleUp : Bool)
  | resetLine
  | systemCommandReset
  | linkDown (ms : Nat) (p : PortId)
  | linkUp (p : PortId)
  /-- MALFORMED_TELEGRAM: `payload` is the frame's whole data field (R170). -/
  | malformedTelegram (ms : Nat) (p : PortId) (payload : List Byte)
  | passThrough (ms : Nat) (p : PortId) (kind : Byte) (f : Frame)
  | live (ms : Nat) (p : PortId) (f : Frame)
  | tmark (ms : Nat) (f : Frame)
  | prep (ms : Nat) (f : Frame)
  | psnap (ms : Nat) (f : Frame)
  | cconf (ms : Nat) (f : Frame)
  | hello (ms : Nat) (f : Frame)
  | login (ms : Nat) (f : Frame)
  | logout (ms : Nat) (f : Frame)
  | ack (ms : Nat) (f : Frame)
  | groupAck (ms : Nat) (f : Frame)
  | shelve (ms : Nat) (f : Frame)
  | unshelve (ms : Nat) (f : Frame)
  | silence (ms : Nat) (f : Frame)
  | claim (ms : Nat) (f : Frame)
  | clearHold (ms : Nat) (f : Frame)
  | page (ms : Nat) (f : Frame)
  | pageAll (ms : Nat) (f : Frame)
  | transferPaged
  | noticeDequeue
  | offer (ms : Nat) (f : Frame)
  | attend (ms : Nat) (f : Frame)
  | reviewed (ms : Nat) (f : Frame)
  | accept (ms : Nat) (f : Frame)
  | decline (ms : Nat) (f : Frame)
  | withdraw (ms : Nat) (f : Frame)
  | opcmd (ms : Nat) (f : Frame)
  /-- MREQ_CREDENTIAL: a whole MREQ arrives; its first record is judged here, and the fifteen commands from
  `mreqSelect` to `readStatus` (`storeCompletion` apart) take its further records in order. -/
  | mreqCredential (ms : Nat) (f : Frame)
  | mreqSelect
  | mreqRead
  | writePoints
  | writeRoster
  | writeStations
  | writeAreas
  | writeParams
  | querySlot
  | discardSlot
  | forceArea
  | mgmtClearHold
  | store
  /-- STORE_COMPLETION: `good` says whether the writing of the configuration memory succeeded (R188). -/
  | storeCompletion (good : Bool)
  | reset
  | clearRetained
  | readStatus
  | tick
  | floodExit (area : Nat)
  | chatterRelease (point : Nat)
  | shelfExpired
  | controllerSilenceExpiry (address : Nat)
  | resyncWaitExpiry (address : Nat)
  | consoleSilenceExpiry (address : Nat)
  | rateHoldEnd (address : Nat)
  | loginHoldEnd (address : Nat)
  | graceExpiry (area : Nat)
  | notAttended (number : Nat)
  | handoverExpired (number : Nat)
  | confirmLimitExpiry
  | masterSilenceExpiry
  | transmitEnd (p : PortId)
  | discardedTelegram (ms : Nat) (p : PortId) (kind : Byte) (f : Frame)
  deriving DecidableEq, Repr

end Sys2Proof
end

