-- ==== Sys2Proof/Decode.lean ====
section
/-! DEFINITION. The decoder of the commands' words. No row of spec/opcode_table.json gives bits ("fields" is empty in
each): the part is driven by telegrams and events, not by words, so no word spells a command. -/

namespace Sys2Proof

/-- The command that an `nbits`-bit word spells by the table's bits: none, since no row of the table gives bits. -/
def decodeTableWord (_nbits _w : Nat) : Option Instr := none

end Sys2Proof
end

