-- ==== Sys2Proof/Config.lean ====
section
/-! DEFINITION. What the spec fixes for the part (capacities, defaults and fixed limits), and the free values: opaque
constants without a body, one for each value the spec gives a place but does not state. No statement can rest on what
an opaque constant is. -/

namespace Sys2Proof.Config

/-- Alarm slots (R7). -/
def slotCount : Nat := 1024
/-- Points (R1). -/
def pointCount : Nat := 8192
/-- Admission queue entries (R19). -/
def queueCap : Nat := 256
/-- Shelf list entries (R65). -/
def shelfCap : Nat := 128
/-- Pending notices of one console (R99). -/
def noticeCap : Nat := 32
/-- Telegrams in one FORWARD queue (R173). -/
def forwardCap : Nat := 64
/-- Telegrams in one OWN queue (R174). -/
def ownCap : Nat := 128
/-- Open handover records (R120). -/
def recordCap : Nat := 4
/-- Entries of one review list (R125). -/
def reviewCap : Nat := 256
/-- Relief contexts of one area (R106). -/
def reliefCap : Nat := 2
/-- Entries of the journal ring (R143). -/
def journalCap : Nat := 64
/-- Outstanding commands (R147). -/
def commandCap : Nat := 32
/-- Roster entries (R90). -/
def rosterCap : Nat := 128
/-- Station table entries, and the most of each limited kind (R184, R185). -/
def stationCap : Nat := 96
def controllerCap : Nat := 64
def consoleCap : Nat := 16
def engineeringCap : Nat := 4
/-- Bytes of a telegram body (R170, R183). -/
def bodyCap : Nat := 1200
/-- Largest value of the seconds of a time value (R162). -/
def maxSeconds : Nat := 4294967295

/-- The limits fixed at 3, 3, 5, 3, 5, 3 and 60 ticks or counts (R184). -/
def stationLiveLimit : Nat := 3
def timeMasterLimit : Nat := 3
def snapshotWait : Nat := 5
def snapshotRetries : Nat := 3
def rateHold : Nat := 5
def loginFailureLimit : Nat := 3
def loginHold : Nat := 60

/-- Ticks after which a STORE has completed at the latest (R188). -/
def storeTicks : Nat := 4

/-- The own address while the station table holds no SELF entry (R171, R185). -/
def defaultOwnAddress : Nat := 254

/-- FREE VALUE. Code of the RESP record that carries the controller address of a CLEAR_HOLD answered OK: R157 says the
RESP carries the address, and R180 lays out no record for it (log 5). -/
opaque clearHoldRecordCode : Byte

/-- FREE VALUE. The length byte of a record whose data is longer than 255 bytes, which only the READ of a journal entry
listing many relief contexts can produce (log 6). -/
opaque overlongLength : Nat → Byte

/-- FREE VALUE. Code of a reset cause in READ_STATUS; no rule gives it (log 7). -/
opaque resetCauseCode : Nat → Byte

/-- FREE VALUE. Code of a journal entry's kind in a READ of JOURNAL; no rule gives it (log 7). -/
opaque journalKindCode : Nat → Byte

/-- FREE VALUE. What a new roster entry holds in a field its WRITE omits: by index, item code and area (log 8). -/
opaque omittedRosterValue : Nat → Nat → Nat → Nat

/-- FREE VALUE. Result of a CREDENTIAL record that is not the first record of its MREQ (log 9). -/
opaque laterCredentialResult : Nat → Byte

/-- FREE VALUE. The table code that selects the outstanding command table, counted from the first code above those of
R181: R147 has the table read through management, and R181 gives it no code (log 30). -/
opaque commandTable : Nat

/-- The table code of the outstanding command table: a byte above the nine codes of R181. -/
def commandTableCode : Nat := 10 + commandTable % 246

/-- FREE VALUE. Whether the writing of a STORE succeeds when no completion event has come by the fourth tick (log 10). -/
opaque storeOutcome : Nat → Bool

end Sys2Proof.Config
end

