-- ==== Sys2Proof/Machine/State.lean ====
section
/-! DEFINITION. The state of the Vahrow 3316: every register, table, queue, count and flag the spec gives it, as plain
data; the reasons a step can stop; and the state after a first power-on. Tables are lists of (key, entry) pairs with
rising keys. -/

namespace Sys2Proof.Machine

/-- The command gives the machine no reason to stop: no rule of the spec ends the part in a fault, so this type has no
constructor. -/
inductive Fault where
  deriving DecidableEq, Repr

/-- Why a command has no meaning. -/
inductive Refusal where
  /-- Raised by an arm of `exec` for a command without a meaning yet; safe. No arm raises it. -/
  | notModelled (mnemonic : String)
  deriving DecidableEq, Repr

/-! ## Points, slots and the admission queue (spec/01) -/

/-- Alarm priority, highest first (R1). -/
inductive Priority where
  | urgent | high | medium | low
  deriving DecidableEq, Repr

/-- Latch class (R1, R10 to R12). -/
inductive LatchClass where
  | tracking | latched | ringback
  deriving DecidableEq, Repr

/-- Condition a controller reports for a point (R5). -/
inductive Condition where
  | normal | active
  deriving DecidableEq, Repr

/-- State of a valid slot (R7). -/
inductive AlarmState where
  | activeUnack | activeAcked | returnedUnack
  deriving DecidableEq, Repr

/-- A point definition (R1); the default is the reset definition. -/
structure PointDef where
  defined      : Bool := false
  area         : Nat := 0
  controller   : Nat := 0
  priority     : Priority := .low
  latch        : LatchClass := .tracking
  shelveLimit  : Nat := 0
  chatterOn    : Nat := 96
  chatterOff   : Nat := 32
  suppressible : Bool := false
  deriving DecidableEq, Repr

/-- Dynamic state of a point (R5). The shelved and queued flags of R5 are membership in the shelf list and in the
admission queue and are not stored a second time. -/
structure PointDyn where
  cond  : Condition := .normal
  score : Nat := 0
  held  : Bool := false
  deriving DecidableEq, Repr

/-- A timestamp: a time value with its UNSYNC flag (R9, R163). -/
structure Stamp where
  unsync : Bool
  sec    : Nat
  ms     : Nat
  deriving DecidableEq, Repr

/-- A valid alarm slot (R7). -/
structure Slot where
  point      : Nat
  state      : AlarmState
  occ        : Nat
  onset      : Stamp
  last       : Stamp
  ackOp      : Option Nat
  shelved    : Bool
  chatter    : Bool
  suppressed : Bool
  stale      : Bool
  deriving DecidableEq, Repr

/-- An admission queue entry (R19). -/
structure QEntry where
  point    : Nat
  onset    : Stamp
  returned : Bool
  deriving DecidableEq, Repr

/-- A shelf list entry (R65). -/
structure ShelfEntry where
  point    : Nat
  operator : Nat
  start    : Stamp
  ticks    : Nat
  relief   : Bool
  deriving DecidableEq, Repr

/-! ## Areas and authority (spec/03, spec/06) -/

/-- Authority state of an area (R103). -/
inductive Authority where
  | unheld | held | grace | orphaned
  deriving DecidableEq, Repr

/-- The recorded holder of an area: operator, console and seat (R103). -/
structure Holder where
  operator : Nat
  console  : Nat
  seat     : Nat
  deriving DecidableEq, Repr

/-- A relief context (R106). -/
structure Relief where
  operator : Nat
  console  : Nat
  start    : Stamp
  number   : Nat
  deriving DecidableEq, Repr

/-- The dynamic state of an area: generation (R16), counts (R23), load and flood state (R43), and the authority record
(R103). The relief stack is listed top first. -/
structure Area where
  generation : Nat := 0
  evictions  : Nat := 0
  losts      : Nat := 0
  load       : Nat := 0
  flood      : Bool := false
  authority  : Authority := .unheld
  holder     : Option Holder := none
  graceLeft  : Nat := 0
  relief     : List Relief := []
  openRecord : Option Nat := none
  deriving DecidableEq, Repr

/-- The area parameters, with their defaults (R43, R110, R137, R187). -/
structure AreaParams where
  fOn      : Nat := 768
  fOff     : Nat := 256
  grace    : Nat := 60
  attend   : Nat := 120
  handover : Nat := 900
  deriving DecidableEq, Repr

/-! ## Operators, stations and consoles (spec/05, spec/11) -/

/-- Operator role (R90). -/
inductive Role where
  | observer | operator | shiftLead | engineer
  deriving DecidableEq, Repr

/-- Right level of an operator in an area, lowest first (R90). -/
inductive RightLevel where
  | none | view | ack | shelve | operate
  deriving DecidableEq, Repr

/-- A roster entry (R90); `rights` lists the sixteen areas' levels from area 0. -/
structure Operator where
  id      : Nat
  enabled : Bool
  code    : Nat
  role    : Role
  rights  : List RightLevel
  deriving DecidableEq, Repr

/-- Console class, lowest first (R81). -/
inductive ConsoleClass where
  | view | ack | full
  deriving DecidableEq, Repr

/-- A set of console features (R81). -/
structure Features where
  groupAck       : Bool := false
  secondSeat     : Bool := false
  handoverDialog : Bool := false
  deriving DecidableEq, Repr

/-- A set of console classes (R83, R185). -/
structure Classes where
  view : Bool := false
  ack  : Bool := false
  full : Bool := false
  deriving DecidableEq, Repr

/-- Station kind (R185). -/
inductive StationKind where
  | self | controller | console | engineering | timeMaster
  deriving DecidableEq, Repr

/-- A station table entry (R185); a SELF entry has no side. -/
structure Station where
  address   : Nat
  kind      : StationKind
  side      : Option PortId
  classes   : Classes
  features  : Features
  hornLevel : Priority
  deriving DecidableEq, Repr

/-- Horn state of a console (R77). -/
inductive Horn where
  | quiet | sounding | silenced
  deriving DecidableEq, Repr

/-- Kind of a handover (R120). -/
inductive HandoverKind where
  | shift | relief | giveBack
  deriving DecidableEq, Repr

/-- State or outcome of a handover record (R120, R179). -/
inductive HandoverState where
  | offered | review | complete | aborted
  deriving DecidableEq, Repr

/-- Reason of an abort (R140). -/
inductive AbortReason where
  | declined | withdrawn | notAttended | expired | incomingLost | authorityLost
  deriving DecidableEq, Repr

/-- Time state (R162). -/
inductive TimeState where
  | unset | locked | holdover
  deriving DecidableEq, Repr

/-- The counts of a review list: its entries, and those REVIEWED, RESOLVED and UNREVIEWED (R120). -/
structure ReviewCounts where
  entries    : Nat
  reviewed   : Nat
  resolved   : Nat
  unreviewed : Nat
  deriving DecidableEq, Repr

/-- A pending notice: kind, subject and contents (R99). A HANDOVER notice also reports the counts of the record's review
list as it stood when the notice was queued or last replaced (R120); the NOTE telegram has no bytes for them (R179,
log 64). -/
inductive Notice where
  | newAlarm (area generation urgent high medium low queued : Nat)
  | authority (area : Nat) (state : Authority) (holder : Option Nat)
  | handover (number : Nat) (kind : HandoverKind) (state : HandoverState) (reason : Option AbortReason)
      (counts : ReviewCounts)
  | flood (area : Nat) (on : Bool)
  | stale (controller : Nat) (stale : Bool)
  | controllerHeld (controller : Nat) (held : Bool)
  | timeState (state : TimeState)
  | sessionMoved (seat operator console newSeat : Nat)
  | horn (state : Horn)
  | resync (state : Horn)
  deriving DecidableEq, Repr

/-- A transfer record (R74). -/
structure Transfer where
  area       : Nat
  seat       : Nat
  operator   : Nat
  seq        : Half
  generation : Nat
  position   : Nat
  page       : Nat
  deriving DecidableEq, Repr

/-- A console table entry (R81), keyed by its station address. The console is ATTACHED when `cls` is present, since a
class is absent in DETACHED only; seat 2 is present only while the features include SECOND_SEAT. -/
structure Console where
  cls         : Option ConsoleClass := none
  features    : Features := {}
  seat1       : Option Nat := none
  seat2       : Option Nat := none
  silence     : Nat := 0
  horn        : Horn := .quiet
  notices     : List Notice := []
  noticeSeq   : Nat := 0
  transfer    : Option Transfer := none
  requests    : Nat := 0
  rateHold    : Nat := 0
  failed      : Nat := 0
  loginHold   : Nat := 0
  deriving DecidableEq, Repr

/-! ## Controllers and the command gate (spec/02, spec/08) -/

/-- Resynchronisation phase (R30). -/
inductive Phase where
  | idle | requested | receiving
  deriving DecidableEq, Repr

/-- The supervision record (R30) and the gate record (R146) of a configured controller, keyed by its address. The
snapshot set lists its points in ascending order. -/
structure Controller where
  live       : Bool := false
  silence    : Nat := 0
  phase      : Phase := .idle
  snapNumber : Nat := 0
  sent       : Nat := 0
  wait       : Nat := 0
  snapSet    : List Nat := []
  snapFailed : Bool := false
  beenLive   : Bool := false
  faultHeld  : Bool := false
  slow       : Nat := 0
  late       : Nat := 0
  deriving DecidableEq, Repr

/-- An outstanding command (R147). -/
structure Command where
  tag        : Nat
  console    : Nat
  seat       : Nat
  operator   : Nat
  seq        : Half
  controller : Nat
  point      : Nat
  ticks      : Nat
  deriving DecidableEq, Repr

/-! ## Handover (spec/07) -/

/-- State of a review entry (R125). -/
inductive ReviewState where
  | unreviewed | reviewed | resolved
  deriving DecidableEq, Repr

/-- A review entry; its position is its place in the list (R125). -/
structure ReviewEntry where
  point    : Nat
  occ      : Nat
  priority : Priority
  state    : ReviewState
  deriving DecidableEq, Repr

/-- An open handover record (R120). -/
structure Handover where
  number     : Nat
  kind       : HandoverKind
  outOp      : Nat
  outConsole : Nat
  outSeat    : Nat
  inOp       : Nat
  inConsole  : Nat
  inSeat     : Nat
  areas      : List Nat
  state      : HandoverState
  attendLeft : Nat
  left       : Nat
  list       : List ReviewEntry
  incomplete : Bool
  deriving DecidableEq, Repr

/-- Kind of a journal entry (R144). -/
inductive JournalKind where
  | complete | aborted | resetAbort | claim | force | orphaned
  deriving DecidableEq, Repr

/-- A journal entry; a field absent for its kind is `none` or empty (R144). Its number and time are given when it is
written. -/
structure JournalEntry where
  kind       : JournalKind
  seq        : Nat := 0
  time       : Stamp := ⟨true, 0, 0⟩
  areas      : List Nat
  number     : Option Nat := none
  recordKind : Option HandoverKind := none
  outgoing   : Option Nat := none
  incoming   : Option Nat := none
  reason     : Option AbortReason := none
  counts     : Option (Nat × Nat × Nat) := none
  contexts   : List (Nat × Relief) := []
  reached    : Option HandoverState := none
  deriving DecidableEq, Repr

/-- An open-record summary of the retained store (R145). -/
structure Summary where
  number : Nat
  kind   : HandoverKind
  outOp  : Nat
  inOp   : Nat
  areas  : List Nat
  state  : HandoverState
  deriving DecidableEq, Repr

/-- The retained entry of an area (R107). -/
structure RetainedArea where
  holder : Option Holder := none
  relief : List Relief := []
  deriving DecidableEq, Repr

/-- Cause of the last start-up (R192). -/
inductive ResetCause where
  | powerOn | systemCommand | systemLine
  deriving DecidableEq, Repr

/-- The retained store (R192). -/
structure Retained where
  areas      : List (Nat × RetainedArea) := []
  summaries  : List Summary := []
  counter    : Nat := 0
  journal    : List JournalEntry := []
  journalSeq : Nat := 0
  cause      : ResetCause := .powerOn
  count      : Nat := 0
  lost       : Bool := false
  deriving DecidableEq, Repr

/-! ## Time base (spec/09) -/

/-- The time base: the fields of R162 and the elapsed milliseconds of R161. -/
structure TimeBase where
  state      : TimeState := .unset
  sec        : Nat := 0
  ms         : Nat := 0
  held       : Bool := false
  high       : Stamp := ⟨true, 0, 0⟩
  pending    : Option (Nat × Nat) := none
  projection : Option (Nat × Nat) := none
  relock     : Bool := false
  silence    : Nat := 0
  elapsed    : Nat := 0
  deriving DecidableEq, Repr

/-! ## Line ports (spec/10) -/

/-- A telegram in a queue: its kind and the rest of it. -/
structure Telegram where
  kind  : Byte
  frame : Frame
  deriving DecidableEq, Repr

/-- A generated telegram in an OWN queue; `resets` marks the MREP whose transmission ends in a system reset (R189). -/
structure OwnEntry where
  telegram : Telegram
  resets   : Bool := false
  deriving DecidableEq, Repr

/-- The telegram a port is transmitting, and the queue it came from (R169, R175). -/
inductive Sending where
  | own (e : OwnEntry)
  | forward (t : Telegram)
  deriving DecidableEq, Repr

/-- A line port (R169, R170, R175). Its transmitting flag is yes while `sending` is present. -/
structure Port where
  up        : Bool := true
  forward   : List Telegram := []
  own       : List OwnEntry := []
  sending   : Option Sending := none
  ownTurn   : Nat := 0
  malformed : Nat := 0
  dropped   : Nat := 0
  deriving DecidableEq, Repr

/-! ## Management and configuration memory (spec/11) -/

/-- The part parameters with the notice enables (R184, R187). -/
structure Params where
  rateLimit    : Nat := 20
  confirmLimit : Nat := 2
  enables      : Half := 0x07FF#16
  deriving DecidableEq, Repr

/-- The configuration tables (R187): a point or area not listed holds the reset definition or the default
parameters, a roster or station index not listed is free. -/
structure Tables where
  points     : List (Nat × PointDef) := []
  roster     : List (Nat × Operator) := []
  stations   : List (Nat × Station) := []
  areaParams : List (Nat × AreaParams) := []
  params     : Params := {}
  deriving DecidableEq, Repr

/-- The configuration memory: its copy and its valid mark (R187). -/
structure ConfigMemory where
  copy  : Tables := {}
  valid : Bool := false
  deriving DecidableEq, Repr

/-- A STORE in progress: the copy being written and the ticks since its request (R188). -/
structure StoreJob where
  copy : Tables
  age  : Nat
  deriving DecidableEq, Repr

/-- The tables a SELECT can name: the nine of R184, and the outstanding commands, which R147 has read the same way. -/
inductive TableId where
  | points | roster | stations | areas | params | slots | shelf | journal | status | commands
  deriving DecidableEq, Repr

/-- An authorised MREQ being taken, or one whose MREP is held: where its MREP goes, the table selected, the records
still to take, the result records so far, whether its further records are answered BUSY, the place of the result of
its STORE, whether it carries a RESET, whether that RESET is the one the waiting reset follows, and the areas whose
generation has advanced in it, since the whole request is one event (R16, R183, R184, R188, R189). -/
structure Request where
  source   : Byte
  seq      : Half
  operator : Half
  selected : Option TableId := none
  todo     : List Rec := []
  results  : List Rec := []
  stopped  : Bool := false
  storeAt  : Option Nat := none
  resets   : Bool := false
  decides  : Bool := false
  moved    : List Nat := []
  deriving DecidableEq, Repr

/-- A piece of tick work, named by what it counts (R161). -/
inductive TickItem where
  | chatter (point : Nat)
  | shelf (point : Nat)
  | load (area : Nat)
  | controllerSilence (address : Nat)
  | resyncWait (address : Nat)
  | consoleSilence (address : Nat)
  | rateHold (address : Nat)
  | loginHold (address : Nat)
  | grace (area : Nat)
  | handover (number : Nat)
  | confirm (tag : Nat)
  | time
  deriving DecidableEq, Repr

/-! ## The whole machine -/

/-- Everything the spec gives the part, with the model's own fields last: the tick work still owed for the last tick,
the STAT mark of the current event, the counter of free values and the queue of waiting commands. -/
@[ext]
structure State where
  tables     : Tables
  memory     : ConfigMemory
  retained   : Retained
  dyn        : List (Nat × PointDyn)
  slots      : List (Nat × Slot)
  queue      : List QEntry
  shelf      : List ShelfEntry
  areas      : List (Nat × Area)
  consoles   : List (Nat × Console)
  turn       : Nat
  controllers : List (Nat × Controller)
  commands   : List Command
  tagCounter : Nat
  records    : List Handover
  arepSeq    : Nat
  time       : TimeBase
  plant      : Port
  console    : Port
  latched    : Half
  statSeq    : Nat
  request    : Option Request
  store      : Option StoreJob
  heldMreps  : List Request
  resetWaits : Bool
  owed       : List TickItem
  statSent   : Bool
  freeCount  : Nat
  pending    : List Instr
  deriving DecidableEq, Repr

/-- The part right after its first power-on: configuration memory never stored, retained store lost, both links up
(spec/11, R187, R192, R193 and the commissioning example). CONFIG_INVALID and RETAINED_LOST are latched. -/
def State.reset : State where
  tables      := {}
  memory      := {}
  retained    := { cause := .powerOn, count := 1, lost := true }
  dyn         := []
  slots       := []
  queue       := []
  shelf       := []
  areas       := []
  consoles    := []
  turn        := 0
  controllers := []
  commands    := []
  tagCounter  := 0
  records     := []
  arepSeq     := 0
  time        := {}
  plant       := {}
  console     := {}
  latched     := 0x0600#16
  statSeq     := 0
  request     := none
  store       := none
  heldMreps   := []
  resetWaits  := false
  owed        := []
  statSent    := false
  freeCount   := 0
  pending     := []

end Sys2Proof.Machine
end

