-- ==== Sys2Proof/Machine/Ops.lean ====
section
/-! DEFINITION. The shared operations: tables with rising keys, the accessors and updates of each piece of state, and
the small arithmetic of the counts. -/

namespace Sys2Proof.Machine

/-- What a command's meaning answers. -/
abbrev Out := Host.Outcome State Fault Refusal

/-! ## Tables -/

/-- The entry of table `t` at key `n`. -/
def lookup {α : Type} : List (Nat × α) → Nat → Option α
  | [], _ => none
  | (k, v) :: t, n => if k = n then some v else lookup t n

/-- Table `t` with entry `a` at key `n`, keys rising. -/
def insertAt {α : Type} : List (Nat × α) → Nat → α → List (Nat × α)
  | [], n, a => [(n, a)]
  | (k, v) :: t, n, a =>
    if n < k then (n, a) :: (k, v) :: t
    else if k = n then (n, a) :: t
    else (k, v) :: insertAt t n a

/-- Table `t` without an entry at key `n`. -/
def removeAt {α : Type} (t : List (Nat × α)) (n : Nat) : List (Nat × α) :=
  t.filter fun e => !(e.1 == n)

/-- Table `t` with `a` at key `n`, where an unlisted key reads as `d`: writing `d` removes the entry, so that equal
tables are equal data. -/
def writeAt {α : Type} [DecidableEq α] (d : α) (t : List (Nat × α)) (n : Nat) (a : α) : List (Nat × α) :=
  if a = d then removeAt t n else insertAt t n a

/-- The keys of a table, in its order. -/
def keys {α : Type} (t : List (Nat × α)) : List Nat := t.map Prod.fst

/-- The keys of a table rise strictly. -/
def risingKeys {α : Type} : List (Nat × α) → Bool
  | [] => true
  | [_] => true
  | (k, _) :: (l, w) :: t => k < l && risingKeys ((l, w) :: t)

/-- `n` placed in an ascending list without duplicates. -/
def insertNat (n : Nat) : List Nat → List Nat
  | [] => [n]
  | m :: t => if n < m then n :: m :: t else if n = m then m :: t else m :: insertNat n t

/-- The ascending list of the numbers in `l`, each once. -/
def ascending (l : List Nat) : List Nat := l.foldl (fun acc n => insertNat n acc) []

/-- The position of the first element of `l` for which `q` holds. -/
def position {α : Type} (q : α → Bool) : List α → Option Nat
  | [] => none
  | a :: t => if q a then some 0 else (position q t).map (· + 1)

/-! ## Counts -/

/-- A count that stops at 65535 (R23, R146, R170). -/
def countUp (n : Nat) : Nat := min 65535 (n + 1)

/-- A number that advances from 65535 to 0 (R16, R34, R63, R102, R191). -/
def wrapUp (n : Nat) : Nat := (n + 1) % 65536

/-- A number that advances from 65535 to 1 (R8, R121, R151). -/
def wrapUpToOne (n : Nat) : Nat := if n + 1 > 65535 then 1 else n + 1

/-- The first number from `n` on, 65535 followed by 1, that `used` does not hold; at most `fuel` numbers are skipped. -/
def nextFree (used : List Nat) : Nat → Nat → Nat
  | 0, n => n
  | fuel + 1, n => if used.contains n then nextFree used fuel (wrapUpToOne n) else n

/-! ## Ranks -/

/-- 0 for the highest priority. -/
def Priority.rank : Priority → Nat
  | .urgent => 0 | .high => 1 | .medium => 2 | .low => 3

/-- 0 for NONE, each level including the ones before it (R90). -/
def RightLevel.rank : RightLevel → Nat
  | .none => 0 | .view => 1 | .ack => 2 | .shelve => 3 | .operate => 4

/-- FULL above ACK above VIEW (R81). -/
def ConsoleClass.rank : ConsoleClass → Nat
  | .view => 0 | .ack => 1 | .full => 2

/-! ## Points -/

def State.pointDef (s : State) (p : Nat) : PointDef := (lookup s.tables.points p).getD {}

def State.dynOf (s : State) (p : Nat) : PointDyn := (lookup s.dyn p).getD {}

def State.setDyn (s : State) (p : Nat) (d : PointDyn) : State := { s with dyn := writeAt {} s.dyn p d }

/-- The slot of point `p`, with its index. -/
def State.slotOf (s : State) (p : Nat) : Option (Nat × Slot) := s.slots.find? fun e => e.2.point == p

def State.setSlot (s : State) (i : Nat) (sl : Slot) : State := { s with slots := insertAt s.slots i sl }

/-- A slot is freed: its valid becomes no (R10). -/
def State.freeSlot (s : State) (i : Nat) : State := { s with slots := removeAt s.slots i }

/-- The queued flag of R5. -/
def State.queued (s : State) (p : Nat) : Bool := s.queue.any fun e => e.point == p

/-- The shelved flag of R5. -/
def State.shelved (s : State) (p : Nat) : Bool := s.shelf.any fun e => e.point == p

/-- The free slot with the lowest index (R17). -/
def State.lowestFree (s : State) : Option Nat :=
  (List.range Config.slotCount).find? fun i => (lookup s.slots i).isNone

/-! ## Areas -/

def State.area (s : State) (a : Nat) : Area := (lookup s.areas a).getD {}

def State.setArea (s : State) (a : Nat) (r : Area) : State := { s with areas := writeAt {} s.areas a r }

def State.modArea (s : State) (a : Nat) (f : Area → Area) : State := s.setArea a (f (s.area a))

def State.areaParams (s : State) (a : Nat) : AreaParams := (lookup s.tables.areaParams a).getD {}

/-- The area numbers 0 to 15. -/
def allAreas : List Nat := List.range 16

/-! ## Stations, consoles, controllers -/

/-- The station table entry with an address. -/
def State.stationAt (s : State) (address : Nat) : Option Station :=
  (s.tables.stations.find? fun e => e.2.address == address).map Prod.snd

/-- The part's own station address (R171). -/
def State.ownAddress (s : State) : Nat :=
  match s.tables.stations.find? fun e => e.2.kind == .self with
  | some e => e.2.address
  | none => Config.defaultOwnAddress

/-- The addresses of the configured ENGINEERING stations, in table order (R185), in which the STATs to them join OWN
(log 73). -/
def State.engineering (s : State) : List Nat :=
  (s.tables.stations.filter fun e => e.2.kind == .engineering && e.2.side == some .plant).map (·.2.address)

/-- The address of the configured time master (R164). -/
def State.timeMaster (s : State) : Option Nat :=
  (s.tables.stations.find? fun e => e.2.kind == .timeMaster && e.2.side == some .plant).map (·.2.address)

/-- The horn level of a console, from the station table (R78). -/
def State.hornLevel (s : State) (address : Nat) : Priority :=
  match s.stationAt address with
  | some st => st.hornLevel
  | none => .low

def State.modConsole (s : State) (address : Nat) (f : Console → Console) : State :=
  match lookup s.consoles address with
  | some c => { s with consoles := insertAt s.consoles address (f c) }
  | none => s

def State.modController (s : State) (address : Nat) (f : Controller → Controller) : State :=
  match lookup s.controllers address with
  | some c => { s with controllers := insertAt s.controllers address (f c) }
  | none => s

/-- A controller is LIVE; one that is not configured counts as STALE (R41, R149). -/
def State.controllerLive (s : State) (address : Nat) : Bool :=
  match lookup s.controllers address with
  | some c => c.live
  | none => false

/-- The console is ATTACHED (R81). -/
def Console.attached (c : Console) : Bool := c.cls.isSome

/-- Seat `n` exists on the console: 1, or 2 with SECOND_SEAT (R92 check 2). -/
def Console.hasSeat (c : Console) (n : Nat) : Bool := n == 1 || (n == 2 && c.features.secondSeat)

/-- The operator at seat `n`. -/
def Console.seatOp (c : Console) (n : Nat) : Option Nat :=
  if n = 1 then c.seat1 else if n = 2 then c.seat2 else none

def Console.setSeat (c : Console) (n : Nat) (o : Option Nat) : Console :=
  if n = 1 then { c with seat1 := o } else if n = 2 then { c with seat2 := o } else c

/-- The operators seated at a console, seat 1 first. -/
def Console.operators (c : Console) : List Nat := c.seat1.toList ++ c.seat2.toList

/-- The console's class is `k` or above. -/
def Console.atLeast (c : Console) (k : ConsoleClass) : Bool :=
  match c.cls with
  | some m => k.rank ≤ m.rank
  | none => false

/-- The seat where an operator has a session: console address and seat (R96). -/
def State.session (s : State) (op : Nat) : Option (Nat × Nat) :=
  (s.consoles.find? fun e => e.2.operators.contains op).map fun e =>
    (e.1, if e.2.seat1 == some op then 1 else 2)

/-! ## Roster -/

/-- The roster entry with an operator ID. -/
def State.operatorEntry (s : State) (op : Nat) : Option Operator :=
  (s.tables.roster.find? fun e => e.2.id == op).map Prod.snd

/-- The effective right level of a roster entry in an area: at most VIEW for OBSERVER and ENGINEER (R90). -/
def Operator.effective (o : Operator) (area : Nat) : RightLevel :=
  let level := (o.rights[area]?).getD .none
  match o.role with
  | .observer | .engineer => if level.rank ≤ RightLevel.view.rank then level else .view
  | _ => level

/-- The effective right level of an operator in an area is `level` or above. -/
def State.hasRight (s : State) (op area : Nat) (level : RightLevel) : Bool :=
  match s.operatorEntry op with
  | some o => level.rank ≤ (o.effective area).rank
  | none => level.rank == 0

def State.hasRole (s : State) (op : Nat) (r : Role) : Bool :=
  match s.operatorEntry op with
  | some o => o.role == r
  | none => false

/-- "The operator is the area's holder with authority HELD" (R119). -/
def State.holds (s : State) (op area : Nat) : Bool :=
  (s.area area).authority == .held && (s.area area).holder.any fun h => h.operator == op

/-- The operator is the recorded holder of some area with authority HELD (R96, R98). -/
def State.holdsAny (s : State) (op : Nat) : Bool := allAreas.any fun a => s.holds op a

/-! ## Ports -/

def State.port (s : State) : PortId → Port
  | .plant => s.plant
  | .console => s.console

def State.setPort (s : State) (p : PortId) (q : Port) : State :=
  match p with
  | .plant => { s with plant := q }
  | .console => { s with console := q }

def State.modPort (s : State) (p : PortId) (f : Port → Port) : State := s.setPort p (f (s.port p))

/-- The port on the other segment. -/
def otherPort : PortId → PortId
  | .plant => .console
  | .console => .plant

/-! ## Events -/

/-- A new event begins: no STAT has been sent in it (R191: the STATs of one event share a number). -/
def State.beginEvent (s : State) : State := { s with statSent := false }

/-- A piece of tick work is owed no more. -/
def State.dropOwed (s : State) (x : TickItem) : State := { s with owed := s.owed.filter fun y => !(y == x) }

/-- The next reading of a free value: the counter of free values is read and advanced. -/
def State.drawFree (s : State) : Nat × State := (s.freeCount, { s with freeCount := s.freeCount + 1 })

end Sys2Proof.Machine
end

