-- ==== Sys2Proof/Machine/Operands.lean ====
section
/-! DEFINITION. Reading and writing the fields of telegrams: byte order, the line checks of R170, the codes of R172,
R179 and R182, and the area sets of R178. -/

namespace Sys2Proof.Machine

/-! ## Bytes -/

/-- The number in a field, most significant byte first (spec/10, section 10.2). -/
def natOf (l : List Byte) : Nat := l.foldl (fun acc b => acc * 256 + b.toNat) 0

/-- `n` in a one-byte field. -/
def b1 (n : Nat) : List Byte := [BitVec.ofNat 8 n]

/-- `n` in a two-byte field, most significant byte first. -/
def b2 (n : Nat) : List Byte := [BitVec.ofNat 8 (n / 256), BitVec.ofNat 8 n]

/-- `n` in a four-byte field, most significant byte first. -/
def b4 (n : Nat) : List Byte :=
  [BitVec.ofNat 8 (n / 16777216), BitVec.ofNat 8 (n / 65536), BitVec.ofNat 8 (n / 256), BitVec.ofNat 8 n]

/-- A yes or no (R179). -/
def flagByte (b : Bool) : Nat := if b then 1 else 0

/-- The two-byte field of `l` at offset `i`. -/
def field2 (l : List Byte) (i : Nat) : Nat := natOf ((l.drop i).take 2)

/-- The one-byte field of `l` at offset `i`. -/
def field1 (l : List Byte) (i : Nat) : Nat := natOf ((l.drop i).take 1)

/-- The four-byte field of `l` at offset `i`. -/
def field4 (l : List Byte) (i : Nat) : Nat := natOf ((l.drop i).take 4)

/-- The bytes of a record: code, length, data. -/
def Rec.bytes (r : Rec) : List Byte :=
  let n := r.data.length
  r.code :: (if n < 256 then BitVec.ofNat 8 n else Config.overlongLength n) :: r.data

/-- The bytes of a telegram (R176): header, records, padding. -/
def Telegram.bytes (t : Telegram) : List Byte :=
  let f := t.frame
  [f.dest, f.source, 1#8, t.kind, f.seat] ++ b1 f.recs.length ++ b2 f.seq.toNat ++ b2 f.operator.toNat
    ++ f.recs.flatMap Rec.bytes ++ f.pad

/-! ## The line checks -/

/-- Bytes the records occupy. -/
def bodyLength (recs : List Rec) : Nat := recs.foldl (fun acc r => acc + (2 + r.data.length)) 0

/-- `n` records read from the start of `l`, with what follows them (R170). -/
def readRecords : Nat → List Byte → Option (List Rec × List Byte)
  | 0, l => some ([], l)
  | n + 1, c :: len :: rest =>
    if len.toNat ≤ rest.length then
      match readRecords n (rest.drop len.toNat) with
      | some (rs, tail) => some (⟨c, rest.take len.toNat⟩ :: rs, tail)
      | none => none
    else none
  | _ + 1, _ => none

/-- The line checks of R170 that an already framed telegram can still fail: its source is 0 or the part's own address,
it counts more than 16 records, or they occupy more than 1200 bytes. -/
def lineOk (own : Nat) (f : Frame) : Bool :=
  f.source.toNat != 0 && f.source.toNat != own && f.recs.length ≤ 16
    && f.recs.all (fun r => r.data.length ≤ 255) && bodyLength f.recs ≤ Config.bodyCap

/-- The telegram a payload holds, or none where the payload is malformed (R170). -/
def parseTelegram (own : Nat) : List Byte → Option Telegram
  | dest :: source :: version :: kind :: seat :: count :: q1 :: q0 :: o1 :: o0 :: body =>
    if version = 1#8 ∧ count.toNat ≤ 16 then
      match readRecords count.toNat body with
      | some (recs, pad) =>
        let f : Frame := { dest := dest, source := source, seat := seat, seq := q1 ++ q0, operator := o1 ++ o0,
                           recs := recs, pad := pad }
        if lineOk own f then some { kind := kind, frame := f } else none
      | none => none
    else none
  | _ => none

/-! ## Telegram kinds (R172) -/

namespace Kind
def live  : Byte := 0x01#8
def tmark : Byte := 0x02#8
def prep  : Byte := 0x10#8
def psnap : Byte := 0x11#8
def sreq  : Byte := 0x12#8
def opcmd : Byte := 0x20#8
def cconf : Byte := 0x21#8
def arep  : Byte := 0x22#8
def hello : Byte := 0x30#8
def login : Byte := 0x31#8
def logout : Byte := 0x32#8
def oreq  : Byte := 0x33#8
def page  : Byte := 0x34#8
def hovr  : Byte := 0x35#8
def resp  : Byte := 0x38#8
def paged : Byte := 0x39#8
def note  : Byte := 0x3A#8
def mreq  : Byte := 0x40#8
def mrep  : Byte := 0x41#8
def stat  : Byte := 0x42#8
end Kind

/-- The kinds a configured console addresses to the part: OPCMD and HELLO to HOVR (R82, R172). -/
def consoleKind (k : Byte) : Bool :=
  k == Kind.opcmd || (Kind.hello.toNat ≤ k.toNat && k.toNat ≤ Kind.hovr.toNat)

/-- The kinds named in the table of R172. -/
def namedKind (k : Byte) : Bool :=
  [Kind.live, Kind.tmark, Kind.prep, Kind.psnap, Kind.sreq, Kind.opcmd, Kind.cconf, Kind.arep, Kind.hello, Kind.login,
   Kind.logout, Kind.oreq, Kind.page, Kind.hovr, Kind.resp, Kind.paged, Kind.note, Kind.mreq, Kind.mrep,
   Kind.stat].contains k

/-! ## Result codes (R182) -/

/-- The results of R182. -/
inductive Result where
  | ok | okClamped | badRequest | notAttached | badSeat | seatBusy | notLoggedIn | deniedCredential | inUseElsewhere
  | holdingAreas | classTooLow | classMismatch | deniedRights | deniedAuthority | onHold | unknownPoint | notPending
  | staleAck | groupRefused | shelveNotAllowed | shelfFull | busy | busyArea | tableFull | controllerStale
  | controllerHeld | noConfirm | linkLost | accepted | rejected | fault | floodHold | stackFull | onStack | notOnStack
  | incomingAbsent | tooManyStanding | reviewOpen | incomplete | mismatch | resolved | noSelect | inUse | badIndex
  | nvStoreFail
  deriving DecidableEq, Repr

/-- The code of a result. -/
def Result.code : Result → Nat
  | .ok => 0x00 | .okClamped => 0x01 | .badRequest => 0x02 | .notAttached => 0x03 | .badSeat => 0x04
  | .seatBusy => 0x05 | .notLoggedIn => 0x06 | .deniedCredential => 0x07 | .inUseElsewhere => 0x08
  | .holdingAreas => 0x09 | .classTooLow => 0x0A | .classMismatch => 0x0B | .deniedRights => 0x0C
  | .deniedAuthority => 0x0D | .onHold => 0x0E | .unknownPoint => 0x0F | .notPending => 0x10 | .staleAck => 0x11
  | .groupRefused => 0x12 | .shelveNotAllowed => 0x13 | .shelfFull => 0x14 | .busy => 0x15 | .busyArea => 0x16
  | .tableFull => 0x17 | .controllerStale => 0x18 | .controllerHeld => 0x19 | .noConfirm => 0x1A | .linkLost => 0x1B
  | .accepted => 0x1C | .rejected => 0x1D | .fault => 0x1E | .floodHold => 0x1F | .stackFull => 0x20
  | .onStack => 0x21 | .notOnStack => 0x22 | .incomingAbsent => 0x23 | .tooManyStanding => 0x24 | .reviewOpen => 0x25
  | .incomplete => 0x26 | .mismatch => 0x27 | .resolved => 0x28 | .noSelect => 0x40 | .inUse => 0x41
  | .badIndex => 0x42 | .nvStoreFail => 0x43

/-! ## Value codes (R179) -/

def Priority.code : Priority → Nat
  | .urgent => 1 | .high => 2 | .medium => 3 | .low => 4

def priorityOf : Nat → Option Priority
  | 1 => some .urgent | 2 => some .high | 3 => some .medium | 4 => some .low | _ => none

def LatchClass.code : LatchClass → Nat
  | .tracking => 1 | .latched => 2 | .ringback => 3

def latchOf : Nat → Option LatchClass
  | 1 => some .tracking | 2 => some .latched | 3 => some .ringback | _ => none

def AlarmState.code : AlarmState → Nat
  | .activeUnack => 1 | .activeAcked => 2 | .returnedUnack => 3

def Condition.code : Condition → Nat
  | .normal => 0 | .active => 1

def conditionOf : Nat → Option Condition
  | 0 => some .normal | 1 => some .active | _ => none

def Authority.code : Authority → Nat
  | .unheld => 0 | .held => 1 | .grace => 2 | .orphaned => 3

def HandoverKind.code : HandoverKind → Nat
  | .shift => 1 | .relief => 2 | .giveBack => 3

def handoverKindOf : Nat → Option HandoverKind
  | 1 => some .shift | 2 => some .relief | 3 => some .giveBack | _ => none

def HandoverState.code : HandoverState → Nat
  | .offered => 1 | .review => 2 | .complete => 3 | .aborted => 4

def AbortReason.code : AbortReason → Nat
  | .declined => 1 | .withdrawn => 2 | .notAttended => 3 | .expired => 4 | .incomingLost => 5 | .authorityLost => 6

/-- The horn state code of R179's value table. -/
def Horn.code : Horn → Nat
  | .sounding => 1 | .quiet => 2 | .silenced => 3

def Role.code : Role → Nat
  | .observer => 1 | .operator => 2 | .shiftLead => 3 | .engineer => 4

def roleOf : Nat → Option Role
  | 1 => some .observer | 2 => some .operator | 3 => some .shiftLead | 4 => some .engineer | _ => none

def rightOf : Nat → Option RightLevel
  | 0 => some .none | 1 => some .view | 2 => some .ack | 3 => some .shelve | 4 => some .operate | _ => none

def ConsoleClass.code : ConsoleClass → Nat
  | .view => 1 | .ack => 2 | .full => 3

def StationKind.code : StationKind → Nat
  | .self => 1 | .controller => 2 | .console => 3 | .engineering => 4 | .timeMaster => 5

def stationKindOf : Nat → Option StationKind
  | 1 => some .self | 2 => some .controller | 3 => some .console | 4 => some .engineering | 5 => some .timeMaster
  | _ => none

def sideCode : PortId → Nat
  | .plant => 1 | .console => 2

def sideOf : Nat → Option PortId
  | 1 => some .plant | 2 => some .console | _ => none

def ReviewState.code : ReviewState → Nat
  | .unreviewed => 1 | .reviewed => 2 | .resolved => 3

def TimeState.code : TimeState → Nat
  | .unset => 0 | .locked => 1 | .holdover => 2

/-! ## Bit sets -/

/-- The areas a sixteen-bit area set names, ascending; bit 0 stands for area 0 (R178). -/
def areasOf (w : Nat) : List Nat := allAreas.filter fun a => w.testBit a

/-- The area set of a list of areas (R178). -/
def areaSet (l : List Nat) : Nat := (allAreas.filter l.contains).foldl (fun acc a => acc + 2 ^ a) 0

/-- The classes and features of a capability record (R180); other bits are ignored. -/
def classesOf (n : Nat) : Classes := { view := n.testBit 0, ack := n.testBit 1, full := n.testBit 2 }

def featuresOf (n : Nat) : Features :=
  { groupAck := n.testBit 0, secondSeat := n.testBit 1, handoverDialog := n.testBit 2 }

def Classes.code (c : Classes) : Nat := flagByte c.view + 2 * flagByte c.ack + 4 * flagByte c.full

def Features.code (f : Features) : Nat :=
  flagByte f.groupAck + 2 * flagByte f.secondSeat + 4 * flagByte f.handoverDialog

/-! ## Generated telegrams (R174) -/

/-- A telegram the part generates: version 1 and the own address as source (R174). -/
def generated (s : State) (kind : Byte) (dest seat : Nat) (seq operator : Half) (recs : List Rec) : Telegram :=
  { kind := kind
    frame := { dest := BitVec.ofNat 8 dest, source := BitVec.ofNat 8 s.ownAddress, seat := BitVec.ofNat 8 seat,
               seq := seq, operator := operator, recs := recs } }

end Sys2Proof.Machine
end

