-- ==== Sys2Proof/Machine/Ports.lean ====
section
/-! DEFINITION. The line ports: the two egress queues of each port, the arbiter, and the joining of telegrams
(R169, R173, R174, R175). -/

namespace Sys2Proof.Machine

/-- The arbiter's choice when it is free and the link is UP: the head of OWN, but the head of FORWARD when it is alone
or OWN has had two turns (R175). The chosen telegram leaves its queue. -/
def Port.startNext (q : Port) : Port :=
  if q.up && q.sending.isNone then
    match q.own, q.forward with
    | [], [] => q
    | e :: own, [] => { q with own := own, sending := some (.own e), ownTurn := min 2 (q.ownTurn + 1) }
    | [], t :: forward => { q with forward := forward, sending := some (.forward t), ownTurn := 0 }
    | e :: own, t :: forward =>
      if q.ownTurn < 2 then
        { q with own := own, sending := some (.own e), ownTurn := min 2 (q.ownTurn + 1) }
      else { q with forward := forward, sending := some (.forward t), ownTurn := 0 }
  else q

/-- The OWN queue has room for a telegram: the link is UP and fewer than 128 wait (R174). -/
def Port.ownRoom (q : Port) : Bool := q.up && q.own.length < Config.ownCap

/-- A generated telegram joins OWN where there is room (R174). -/
def Port.joinOwn (q : Port) (e : OwnEntry) : Port :=
  if q.ownRoom then { q with own := q.own ++ [e] }.startNext else q

/-- A forwarded telegram joins FORWARD, or is dropped and counted when the queue is full or the link DOWN (R173). -/
def Port.joinForward (q : Port) (t : Telegram) : Port :=
  if q.up && q.forward.length < Config.forwardCap then { q with forward := q.forward ++ [t] }.startNext
  else { q with dropped := countUp q.dropped }

/-- The end of a transmission, and the next choice (R175). -/
def Port.endTransmission (q : Port) : Port := { q with sending := none }.startNext

/-- How many telegrams of OWN a link loss removes: those waiting and the one being sent (R169). -/
def Port.ownLost (q : Port) : Nat :=
  q.own.length + match q.sending with | some (.own _) => 1 | _ => 0

/-- How many telegrams of FORWARD a link loss removes (R169). -/
def Port.forwardLost (q : Port) : Nat :=
  q.forward.length + match q.sending with | some (.forward _) => 1 | _ => 0

/-- The port's own part of a link loss: link DOWN, both queues empty, the transmission lost, the forward drop count
advanced for each telegram of FORWARD (R169). -/
def Port.goDown (q : Port) : Port :=
  { q with up := false, forward := [], own := [], sending := none, dropped := min 65535 (q.dropped + q.forwardLost) }

/-- A frame that fails the line checks is discarded and counted (R170). -/
def State.countMalformed (s : State) (p : PortId) : State :=
  s.modPort p fun q => { q with malformed := countUp q.malformed }

/-- A telegram that arrived at port `p` is placed whole in the FORWARD queue of the other port (R173). -/
def State.forwardFrom (s : State) (p : PortId) (t : Telegram) : State := s.modPort (otherPort p) (·.joinForward t)

end Sys2Proof.Machine
end

