-- ==== Sys2Proof/Machine/Flags.lean ====
section
/-! DEFINITION. The eleven status flags: their conditions, their latching with the STAT telegrams it sends, and the
joining of a generated telegram to OWN, whose dropping latches EGRESS_DROP (R174, R191). -/

namespace Sys2Proof.Machine

/-- The status flags, in the order of R191. -/
inductive StatusFlag where
  | timeHoldover | timeStep | staleAny | floodAny | slotEviction | egressDrop | confirmTimeout | ctrlFault
  | nvStoreFail | configInvalid | retainedLost
  deriving DecidableEq, Repr

/-- The position of a flag in the table of R191. -/
def StatusFlag.position : StatusFlag → Nat
  | .timeHoldover => 0 | .timeStep => 1 | .staleAny => 2 | .floodAny => 3 | .slotEviction => 4 | .egressDrop => 5
  | .confirmTimeout => 6 | .ctrlFault => 7 | .nvStoreFail => 8 | .configInvalid => 9 | .retainedLost => 10

/-- All flags, in the order of R191. -/
def StatusFlag.all : List StatusFlag :=
  [.timeHoldover, .timeStep, .staleAny, .floodAny, .slotEviction, .egressDrop, .confirmTimeout, .ctrlFault,
   .nvStoreFail, .configInvalid, .retainedLost]

/-- The bit of a flag in a sixteen-bit set (R180, R181). -/
def StatusFlag.bit (f : StatusFlag) : Half := BitVec.ofNat 16 (2 ^ f.position)

/-- The latched value of a flag. -/
def State.isLatched (s : State) (f : StatusFlag) : Bool := s.latched.getLsbD f.position

/-- The condition of a flag (R191); the condition of an event-only flag is no. -/
def State.condition (s : State) : StatusFlag → Bool
  | .timeHoldover => s.time.state == .holdover
  | .staleAny => s.controllers.any fun e => !e.2.live && e.2.beenLive
  | .floodAny => allAreas.any fun a => (s.area a).flood
  | .ctrlFault => s.controllers.any fun e => e.2.faultHeld
  | .configInvalid => !s.memory.valid
  | .retainedLost => s.retained.lost
  | _ => false

/-- The STAT of flag `f` for one engineering station (R174, R180). -/
def statTelegram (s : State) (f : StatusFlag) (station : Nat) : Telegram :=
  generated s Kind.stat station 0 (BitVec.ofNat 16 s.statSeq) 0
    [⟨0x91#8, b1 f.position ++ b2 s.latched.toNat⟩]

/-- One STAT of flag `f` to each of `stations`; the second part says that one of them was dropped. -/
def sendStats (f : StatusFlag) : List Nat → State → State × Bool
  | [], s => (s, false)
  | a :: rest, s =>
    let r := sendStats f rest (s.modPort .plant (·.joinOwn ⟨statTelegram s f a, false⟩))
    (r.1, r.2 || !s.plant.ownRoom)

/-- The number the STATs of this event carry: the first flag of the event that sends any advances it, and its STATs carry the
advanced number (R191, log 68). -/
def State.takeStatNumber (s : State) : State :=
  if s.statSent then s else { s with statSeq := wrapUp s.statSeq, statSent := true }

/-- A flag's latched value becomes yes; where it was no and its notice enable is set, a STAT goes to each configured
engineering station. Says whether a STAT was dropped; the event's STAT number is used up also where all are (log 36). -/
def latchOnce (f : StatusFlag) (s : State) : State × Bool :=
  if s.isLatched f then (s, false)
  else
    let t : State := { s with latched := s.latched ||| f.bit }
    if t.tables.params.enables.getLsbD f.position && !t.engineering.isEmpty then
      sendStats f t.engineering t.takeStatNumber
    else (t, false)

/-- A status flag latches (R191). A STAT that finds no room is itself a generated telegram dropped (R174). -/
def State.latch (s : State) (f : StatusFlag) : State :=
  let r := latchOnce f s
  if r.2 then (latchOnce .egressDrop r.1).1 else r.1

/-- A generated telegram joins the OWN queue of port `p`, or is dropped and latches EGRESS_DROP (R174). -/
def State.sendEntry (s : State) (p : PortId) (e : OwnEntry) : State :=
  if (s.port p).ownRoom then s.modPort p (·.joinOwn e) else s.latch .egressDrop

def State.send (s : State) (p : PortId) (t : Telegram) : State := s.sendEntry p ⟨t, false⟩

/-- The latched values become the conditions, as after a read; a flag whose condition is yes and that was not latched
latches first (R191). -/
def State.relatch (s : State) : State :=
  let t := StatusFlag.all.foldl (fun acc f => if acc.condition f then acc.latch f else acc) s
  { t with latched := StatusFlag.all.foldl (fun acc f => if t.condition f then acc ||| f.bit else acc) 0 }

end Sys2Proof.Machine
end

