-- ==== Sys2Proof/Machine/Time.lean ====
section
/-! DEFINITION. Timestamps: their order, and the taking of one with its high mark (R9, R162, R163). -/

namespace Sys2Proof.Machine

/-- `a` is earlier than `b`: by seconds, then by milliseconds. -/
def earlier (a b : Nat × Nat) : Bool := a.1 < b.1 || (a.1 == b.1 && a.2 < b.2)

/-- `a` is older than `b` (R9): one with UNSYNC is older than any without it. -/
def Stamp.older (a b : Stamp) : Bool :=
  if a.unsync = b.unsync then earlier (a.sec, a.ms) (b.sec, b.ms) else a.unsync

/-- A time value plus milliseconds, held at its largest value (R162). -/
def addMs (t : Nat × Nat) (ms : Nat) : Nat × Nat :=
  let total := t.2 + ms
  let sec := t.1 + total / 1000
  if sec > Config.maxSeconds then (Config.maxSeconds, 999) else (sec, total % 1000)

/-- Milliseconds of a time value, for comparing differences (R165). -/
def inMs (t : Nat × Nat) : Nat := t.1 * 1000 + t.2

/-- The timestamp of the present event (R163): the tick value and the elapsed milliseconds, or the held tick value, but
never earlier than the high mark; UNSYNC in UNSET. -/
def State.stamp (s : State) : Stamp :=
  let b := s.time
  let unsync := b.state == .unset
  let t := if b.held then (b.sec, b.ms) else addMs (b.sec, b.ms) b.elapsed
  let st : Stamp := ⟨unsync, t.1, t.2⟩
  if st.older b.high then ⟨unsync, b.high.sec, b.high.ms⟩ else st

/-- The high mark takes the timestamp of the present event (R163). -/
def State.marked (s : State) : State := { s with time := { s.time with high := s.stamp } }

/-- The seven bytes of a timestamp item: seconds, milliseconds, flags with bit 0 UNSYNC (R181). -/
def Stamp.bytes (t : Stamp) : List Byte := b4 t.sec ++ b2 t.ms ++ b1 (flagByte t.unsync)

end Sys2Proof.Machine
end

