-- ==== Sys2Proof/Machine/Notices.lean ====
section
/-! DEFINITION. Notices: their kinds and subjects, how one joins a console's queue, who receives which, and the notice
record (R99 to R101, R179). -/

namespace Sys2Proof.Machine

/-- The kind code of a notice (R179). -/
def Notice.kindCode : Notice → Nat
  | .newAlarm .. => 1 | .authority .. => 2 | .handover .. => 3 | .flood .. => 4 | .stale .. => 5
  | .controllerHeld .. => 6 | .timeState .. => 7 | .sessionMoved .. => 8 | .horn .. => 9 | .resync .. => 10

/-- The subject of a notice, 0 for the kinds without one (R99, R179). -/
def Notice.subject : Notice → Nat
  | .newAlarm a .. => a | .authority a .. => a | .handover n .. => n | .flood a _ => a | .stale c _ => c
  | .controllerHeld c _ => c | .timeState _ => 0 | .sessionMoved s .. => s | .horn _ => 0 | .resync _ => 0

/-- The horn contents of a notice: HORN_ON, HORN_OFF with QUIET, HORN_OFF with SILENCED (R179). -/
def Horn.noticeCode : Horn → Nat
  | .sounding => 1 | .quiet => 2 | .silenced => 3

/-- The bytes of a notice after its subject in its NOTE telegram (R99, R179). The counts that a HANDOVER notice reports
(R120) stay in the notice: R179 gives the telegram its three bytes for that kind and no place for counts (log 64). -/
def Notice.contents : Notice → List Byte
  | .newAlarm _ g u h m l q => b2 g ++ b2 u ++ b2 h ++ b2 m ++ b2 l ++ b2 q
  | .authority _ st holder => b1 st.code ++ b2 (holder.getD 0)
  | .handover _ k st r _ => b1 k.code ++ b1 st.code ++ b1 (match r with | some x => x.code | none => 0)
  | .flood _ on => b1 (flagByte on)
  | .stale _ st => b1 (flagByte st)
  | .controllerHeld _ h => b1 (flagByte h)
  | .timeState st => b1 st.code
  | .sessionMoved _ op c seat => b2 op ++ b1 c ++ b1 seat
  | .horn h => b1 h.noticeCode
  | .resync h => b1 h.noticeCode

/-- The notice record of a NOTE (R179). -/
def Notice.record (n : Notice) : Rec := ⟨0x50#8, b1 n.kindCode ++ b2 n.subject ++ n.contents⟩

/-- Two notices share kind and subject (R99). -/
def Notice.sameKey (a b : Notice) : Bool := a.kindCode == b.kindCode && a.subject == b.subject

/-- A notice joins a queue: in place of one with its kind and subject, at the tail, or by emptying a full queue down
to a RESYNC that carries the console's horn state (R101). -/
def joinNotice (horn : Horn) (q : List Notice) (n : Notice) : List Notice :=
  if q.any n.sameKey then q.map fun m => if n.sameKey m then n else m
  else if q.length < Config.noticeCap then q ++ [n]
  else [.resync horn]

/-- A notice joins the queue of a console, if it is ATTACHED (R100, R101). -/
def Console.take (c : Console) (n : Notice) : Console :=
  if c.attached then { c with notices := joinNotice c.horn c.notices n } else c

/-- A notice queued to the console at an address. -/
def State.notify (s : State) (address : Nat) (n : Notice) : State := s.modConsole address (·.take n)

/-- A notice queued to each console of a list. -/
def State.notifyEach (s : State) (l : List Nat) (n : Notice) : State := l.foldl (fun acc a => acc.notify a n) s

/-- The ATTACHED consoles, in ascending address. -/
def State.attachedConsoles (s : State) : List Nat := keys (s.consoles.filter fun e => e.2.attached)

/-- The ATTACHED consoles entitled to an area's notices: some seated operator has VIEW or above there (R100). -/
def State.entitled (s : State) (area : Nat) : List Nat :=
  keys (s.consoles.filter fun e => e.2.attached && e.2.operators.any fun op => s.hasRight op area .view)

/-- A notice to every ATTACHED console (STALE, CONTROLLER_HELD, TIME_STATE: R100). -/
def State.notifyAll (s : State) (n : Notice) : State := s.notifyEach s.attachedConsoles n

/-- A notice to the consoles entitled to an area (NEW_ALARM, AUTHORITY, FLOOD: R100). -/
def State.notifyArea (s : State) (area : Nat) (n : Notice) : State := s.notifyEach (s.entitled area) n

/-- NOTE AUTHORITY of an area, as it stands (R105). -/
def State.noteAuthority (s : State) (area : Nat) : State :=
  let r := s.area area
  s.notifyArea area (.authority area r.authority (r.holder.map (·.operator)))

/-- A console's horn takes a state; a change queues NOTE HORN to it (R77). -/
def State.setHorn (s : State) (address : Nat) (h : Horn) : State :=
  match lookup s.consoles address with
  | some c =>
    if c.horn = h then s else (s.modConsole address fun c => { c with horn := h }).notify address (.horn h)
  | none => s

end Sys2Proof.Machine
end

