-- ==== Sys2Proof/Machine/Alarm.lean ====
section
/-! DEFINITION. The alarm table: slot changes, the latch classes, allocation, eviction, the admission queue and the
alarm-action reports (R7 to R23, R63, R64). -/

namespace Sys2Proof.Machine

/-! ## Slot changes (R15) -/

/-- Kinds of slot change (R15). -/
inductive ChangeKind where
  | onset | reonset | ringback | returned | ack | reannounce | free | evict | queueJoin | queueReturn | queueReonset
  | queueLeave | admission | discard | overlay
  deriving DecidableEq, Repr

/-- Origins of a slot change (R15). -/
inductive Origin where
  | report | snapshot | ack | shelf | management | admission
  deriving DecidableEq, Repr

/-- A slot change as handed on (R15), with the report facts of R29, the counted decision of R44 and the mark of a chatter
release (R52). An OVERLAY change made by a flood exit, a chatter release or a controller that becomes STALE has no origin
(log 32). -/
structure SlotChange where
  kind        : ChangeKind
  point       : Nat
  area        : Nat
  slot        : Option Nat := none
  oldState    : Option AlarmState := none
  newState    : Option AlarmState := none
  oldOcc      : Option Nat := none
  newOcc      : Option Nat := none
  origin      : Option Origin := none
  condChanged : Bool := false
  startedHold : Bool := false
  counted     : Bool := false
  released    : Bool := false
  deriving DecidableEq, Repr

/-- The occurrence advanced in the change (R8): a re-onset, a ringback, or a re-annunciation that advanced it. -/
def SlotChange.advanced (c : SlotChange) : Bool :=
  match c.kind with
  | .reonset | .ringback => true
  | .reannounce => c.oldOcc != c.newOcc
  | _ => false

/-- An event at the alarm table in progress: the state, and the slot changes so far in order. -/
structure Ev where
  s       : State
  changes : List SlotChange := []

def Ev.push (e : Ev) (s : State) (c : SlotChange) : Ev := { s := s, changes := e.changes ++ [c] }

/-- The event's slot changes are marked as a chatter release (R52). -/
def Ev.markChatterRelease (e : Ev) : Ev := { e with changes := e.changes.map fun c => { c with released := true } }

/-! ## Alarm-action reports (R63, R64) -/

/-- The actions of R64. -/
inductive Action where
  | ack | evicted | discarded | shelve | unshelve | shelfExpired | chatterHold | chatterRelease
  deriving DecidableEq, Repr

def Action.code : Action → Nat
  | .ack => 1 | .evicted => 2 | .discarded => 3 | .shelve => 4 | .unshelve => 5 | .shelfExpired => 6
  | .chatterHold => 7 | .chatterRelease => 8

/-- Who caused an action: operator, console and seat. -/
structure Actor where
  operator : Nat
  console  : Nat
  seat     : Nat
  deriving DecidableEq, Repr

/-- What an AREP reports beside its time (R63). `stateAfter` is a slot state code, absent as R64 gives. -/
structure Report where
  action     : Action
  point      : Nat
  area       : Nat
  occ        : Option Nat := none
  stateAfter : Option Nat := none
  actor      : Option Actor := none
  minutes    : Nat := 0
  deriving DecidableEq, Repr

/-- The action record of an AREP (R180). -/
def Report.record (r : Report) (t : Stamp) : Rec :=
  ⟨0x2B#8,
    b1 r.action.code ++ b2 r.point ++ b1 r.area ++ b2 (r.occ.getD 0) ++ b1 (r.stateAfter.getD 0xFF)
      ++ (match r.actor with | some a => b2 a.operator ++ b1 a.console ++ b1 a.seat | none => b2 0 ++ b1 0 ++ b1 0)
      ++ b2 r.minutes ++ b4 t.sec ++ b2 t.ms ++ b1 (flagByte t.unsync)⟩

/-- An alarm action is reported: the AREP sequence number advances and the AREP joins the plant port's OWN queue, or is
dropped with its number used up (R63). -/
def State.report (s : State) (r : Report) : State :=
  let t := s.stamp
  let n := wrapUp s.arepSeq
  let u : State := { s.marked with arepSeq := n }
  u.send .plant (generated u Kind.arep 255 0 (BitVec.ofNat 16 n)
    (BitVec.ofNat 16 (match r.actor with | some a => a.operator | none => 0)) [r.record t])

/-! ## Overlays and new slots -/

/-- A fresh slot for point `p` with the overlays of R14; SUPPRESSED as given. -/
def freshSlot (s : State) (p : Nat) (st : AlarmState) (onset last : Stamp) (suppressed : Bool) : Slot :=
  { point := p, state := st, occ := 1, onset := onset, last := last, ackOp := none
    shelved := s.shelved p, chatter := (s.dynOf p).held, suppressed := suppressed
    stale := !s.controllerLive (s.pointDef p).controller }

/-- The admission's suppression condition (R14): LOW, flood suppressible, area in FLOOD. -/
def suppressedAtAdmission (s : State) (p : Nat) : Bool :=
  let d := s.pointDef p
  d.priority == .low && d.suppressible && (s.area d.area).flood

/-- The head of the admission queue, if any, is admitted into free slot `i` (R20, R21). -/
def admitHead (i : Nat) (e : Ev) : Ev :=
  match e.s.queue with
  | [] => e
  | q :: rest =>
    let s := e.s
    let st : AlarmState := if q.returned then .returnedUnack else .activeUnack
    let sl := freshSlot s q.point st q.onset s.stamp (suppressedAtAdmission s q.point)
    e.push ({ s.marked with queue := rest }.setSlot i sl)
      { kind := .admission, point := q.point, area := (s.pointDef q.point).area, slot := some i, newState := some st
        newOcc := some 1, origin := some .admission }

/-- Slot `i` is freed with a slot change of kind `k`, and the head of the queue admitted (R10, R20). -/
def freeAndAdmit (i : Nat) (sl : Slot) (k : ChangeKind) (o : Origin) (e : Ev) : Ev :=
  admitHead i (e.push (e.s.freeSlot i)
    { kind := k, point := sl.point, area := (e.s.pointDef sl.point).area, slot := some i, oldState := some sl.state
      oldOcc := some sl.occ, origin := some o })

/-- Slot `i` changes to `new` with a slot change of kind `k`. -/
def moveSlot (i : Nat) (sl new : Slot) (k : ChangeKind) (o : Option Origin) (e : Ev) : Ev :=
  e.push (e.s.setSlot i new)
    { kind := k, point := sl.point, area := (e.s.pointDef sl.point).area, slot := some i, oldState := some sl.state
      newState := some new.state, oldOcc := some sl.occ, newOcc := some new.occ, origin := o }

/-! ## Allocation and eviction (R17 to R19) -/

/-- Slot `b` makes a better victim than slot `a`: lower priority, then older last transition, then lower index (R18). -/
def betterVictim (s : State) (a b : Nat × Slot) : Bool :=
  let pa := (s.pointDef a.2.point).priority.rank
  let pb := (s.pointDef b.2.point).priority.rank
  if pa ≠ pb then pa < pb
  else if a.2.last.older b.2.last then false
  else if b.2.last.older a.2.last then true
  else b.1 < a.1

/-- Slot may be a victim of an onset of priority `pr`: RETURNED_UNACK, not URGENT, of a priority not above it (R18). -/
def victimCandidate (s : State) (pr : Priority) (e : Nat × Slot) : Bool :=
  let q := (s.pointDef e.2.point).priority
  e.2.state == .returnedUnack && q != .urgent && pr.rank ≤ q.rank

/-- The victim of R18, if there is one. -/
def victim (s : State) (pr : Priority) : Option (Nat × Slot) :=
  (s.slots.filter (victimCandidate s pr)).foldl
    (fun best e => match best with
      | none => some e
      | some b => if betterVictim s b e then some e else some b) none

/-- The victim's slot is freed with its AREP, count, flag and slot change, whose origin is that of the onset it makes
room for (R15, R18, R27). -/
def evict (v : Nat × Slot) (o : Origin) (e : Ev) : Ev :=
  let d := e.s.pointDef v.2.point
  let s1 := (e.s.freeSlot v.1).report
    { action := .evicted, point := v.2.point, area := d.area, occ := some v.2.occ, stateAfter := some 0 }
  let s2 := (s1.modArea d.area fun a => { a with evictions := countUp a.evictions }).latch .slotEviction
  e.push s2
    { kind := .evict, point := v.2.point, area := d.area, slot := some v.1, oldState := some v.2.state
      oldOcc := some v.2.occ, origin := some o }

/-- The onset's slot at index `i` (R17). -/
def onsetInto (i p : Nat) (o : Origin) (e : Ev) : Ev :=
  let s := e.s
  e.push (s.marked.setSlot i (freshSlot s p .activeUnack s.stamp s.stamp false))
    { kind := .onset, point := p, area := (s.pointDef p).area, slot := some i, newState := some .activeUnack
      newOcc := some 1, origin := some o }

/-- The onset joins the admission queue, or is lost and counted when the queue is full (R19). -/
def joinQueue (p : Nat) (o : Origin) (e : Ev) : Ev :=
  let s := e.s
  let a := (s.pointDef p).area
  if s.queue.length < Config.queueCap then
    e.push { s.marked with queue := s.queue ++ [⟨p, s.stamp, false⟩] }
      { kind := .queueJoin, point := p, area := a, origin := some o }
  else { e with s := s.modArea a fun r => { r with losts := countUp r.losts } }

/-- An onset for a point with no slot and not queued: the lowest free slot, a victim's slot, or the queue (R17). -/
def allocate (p : Nat) (o : Origin) (e : Ev) : Ev :=
  match e.s.lowestFree with
  | some i => onsetInto i p o e
  | none =>
    match victim e.s (e.s.pointDef p).priority with
    | some v => onsetInto v.1 p o (evict v o e)
    | none => joinQueue p o e

/-! ## Reports at the alarm table (R10 to R12, R19) -/

/-- SUPPRESSED after a re-onset or re-annunciation: cleared outside FLOOD (R14). -/
def keptSuppressed (s : State) (sl : Slot) : Bool := sl.suppressed && (s.area (s.pointDef sl.point).area).flood

/-- A report for a point that has slot `i`, by its latch class (R10 to R12). A ringback neither sets SUPPRESSED, also in
FLOOD (R46), nor clears it (R14); what that means for a slot suppressed at its onset is log 45. -/
def reportSlot (i : Nat) (sl : Slot) (active : Bool) (o : Origin) (e : Ev) : Ev :=
  let s := e.s
  let t := s.stamp
  let marked : Ev := { e with s := s.marked }
  let returned : Slot := { sl with state := .returnedUnack, last := t, ackOp := none }
  match active, sl.state, (s.pointDef sl.point).latch with
  | true, .returnedUnack, _ =>
    moveSlot i sl
      { sl with state := .activeUnack, occ := wrapUpToOne sl.occ, onset := t, last := t, ackOp := none
                suppressed := keptSuppressed s sl } .reonset (some o) marked
  | true, _, _ => e
  | false, .returnedUnack, _ => e
  | false, _, .tracking => freeAndAdmit i sl .free o e
  | false, .activeUnack, _ => moveSlot i sl returned .returned (some o) marked
  | false, .activeAcked, .latched => freeAndAdmit i sl .free o e
  | false, .activeAcked, .ringback =>
    moveSlot i sl { returned with occ := wrapUpToOne sl.occ } .ringback (some o) marked

/-- A report for a queued point acts on its entry, which keeps its place (R19). -/
def reportQueued (q : QEntry) (active : Bool) (o : Origin) (e : Ev) : Ev :=
  let s := e.s
  let c (k : ChangeKind) : SlotChange :=
    { kind := k, point := q.point, area := (s.pointDef q.point).area, origin := some o }
  let set (r : Bool) : State :=
    { s with queue := s.queue.map fun x => if x.point == q.point then { x with returned := r } else x }
  match active, (s.pointDef q.point).latch, q.returned with
  | false, .tracking, _ =>
    e.push { s with queue := s.queue.filter fun x => !(x.point == q.point) } (c .queueLeave)
  | true, .tracking, _ => e
  | false, _, false => e.push (set true) (c .queueReturn)
  | true, _, true => e.push (set false) (c .queueReonset)
  | _, _, _ => e

/-- An ACTIVE or NORMAL report for a point at the alarm table (R27 stage 2, R38). -/
def applyReport (p : Nat) (active : Bool) (o : Origin) (e : Ev) : Ev :=
  match e.s.slotOf p with
  | some (i, sl) => reportSlot i sl active o e
  | none =>
    match e.s.queue.find? fun q => q.point == p with
    | some q => reportQueued q active o e
    | none => if active then allocate p o e else e

/-- A matched acknowledgement of slot `i` by operator `op` (R10 to R12, R59). -/
def applyAck (i : Nat) (sl : Slot) (op : Nat) (e : Ev) : Ev :=
  match sl.state with
  | .activeUnack =>
    moveSlot i sl { sl with state := .activeAcked, last := e.s.stamp, ackOp := some op } .ack (some .ack)
      { e with s := e.s.marked }
  | .returnedUnack => freeAndAdmit i sl .free .ack e
  | .activeAcked => e

/-- A re-annunciation of a point whose shelf entry has been removed (R13). A slot in RETURNED_UNACK keeps both
timestamps (log 43). -/
def reannounce (p : Nat) (e : Ev) : Ev :=
  match e.s.slotOf p with
  | none => e
  | some (i, sl) =>
    let s := e.s
    let t := s.stamp
    let kept : Slot := { sl with shelved := false, suppressed := keptSuppressed s sl }
    if sl.state ≠ .returnedUnack ∧ (s.dynOf p).cond = .active then
      moveSlot i sl
        { kept with state := .activeUnack, occ := wrapUpToOne sl.occ, onset := t, last := t, ackOp := none }
        .reannounce (some .shelf) { e with s := s.marked }
    else moveSlot i sl kept .reannounce (some .shelf) e

/-- A discard of the point's slot or queue entry: the AREP DISCARDED, the lost count, the slot change of kind DISCARD,
and for a slot the admission of the head of the queue (R22, R4). -/
def discardPoint (p : Nat) (e : Ev) : Ev :=
  let s := e.s
  let a := (s.pointDef p).area
  let lost (t : State) : State := t.modArea a fun r => { r with losts := countUp r.losts }
  match s.slotOf p with
  | some (i, sl) =>
    let t := lost ((s.freeSlot i).report
      { action := .discarded, point := p, area := a, occ := some sl.occ, stateAfter := some 0 })
    admitHead i (e.push t
      { kind := .discard, point := p, area := a, slot := some i, oldState := some sl.state, oldOcc := some sl.occ
        origin := some .management })
  | none =>
    if s.queued p then
      let t := lost ({ s with queue := s.queue.filter fun x => !(x.point == p) }.report
        { action := .discarded, point := p, area := a, stateAfter := some 0 })
      e.push t { kind := .discard, point := p, area := a, origin := some .management }
    else e

/-- Every slot that `q` picks takes `f`; each is a slot change of kind OVERLAY (R14). -/
def overlayEach (q : Slot → Bool) (f : Slot → Slot) (e : Ev) : Ev :=
  (e.s.slots.filter fun x => q x.2).foldl (fun acc x => moveSlot x.1 x.2 (f x.2) .overlay none acc) e

/-! ## Counts of unacknowledged alarms -/

/-- The slot carries none of SHELVED, CHATTER and SUPPRESSED (R29). -/
def Slot.audible (sl : Slot) : Bool := !sl.shelved && !sl.chatter && !sl.suppressed

/-- ACTIVE_UNACK or RETURNED_UNACK. -/
def Slot.unacked (sl : Slot) : Bool := sl.state != .activeAcked

end Sys2Proof.Machine
end

