-- ==== Sys2Proof/Machine/Load.lean ====
section
/-! DEFINITION. The load monitor: counted onsets, entry into FLOOD, suppression, and decay (R43 to R48). -/

namespace Sys2Proof.Machine

/-- The weight of a priority (R45). -/
def Priority.weight : Priority → Nat
  | .urgent => 64 | .high => 32 | .medium => 16 | .low => 8

/-- The slot change is a candidate for a counted onset (R44). -/
def SlotChange.candidate (c : SlotChange) : Bool :=
  match c.kind, c.origin with
  | .onset, some .report | .reonset, some .report | .queueJoin, some .report | .queueReonset, some .report => true
  | .reannounce, some .shelf => c.newState == some .activeUnack && c.advanced
  | _, _ => false

/-- The slot change is a counted onset (R44): a candidate whose point is not shelved, and not chatter-held unless this
record started the hold. -/
def isCounted (s : State) (c : SlotChange) : Bool :=
  c.candidate && !s.shelved c.point && (!(s.dynOf c.point).held || c.startedHold)

/-- Entry into FLOOD of an area (R45): the flood state, NOTE FLOOD ON, FLOOD_ANY. -/
def State.enterFlood (s : State) (a : Nat) : State :=
  ((s.modArea a fun r => { r with flood := true }).notifyArea a (.flood a true)).latch .floodAny

/-- A weight is added to an area's load, and entry tested (R45). -/
def State.addLoad (s : State) (a w : Nat) : State :=
  let t := s.modArea a fun r => { r with load := min 65535 (r.load + w) }
  if !(t.area a).flood && (s.areaParams a).fOn ≤ (t.area a).load then t.enterFlood a else t

/-- The suppression condition of R46 holds for a counted onset: it has a slot, its point is LOW and suppressible, its
area is in FLOOD. -/
def suppresses (s : State) (c : SlotChange) : Bool :=
  let d := s.pointDef c.point
  (c.kind == .onset || c.kind == .reonset || c.kind == .reannounce)
    && d.priority == .low && d.suppressible && (s.area c.area).flood

/-- The load monitor's decision on one slot change, and its effects (R44 to R46). -/
def loadOne (e : Ev) (c : SlotChange) : Ev :=
  if isCounted e.s c then
    let s := e.s.addLoad c.area (e.s.pointDef c.point).priority.weight
    let t := if suppresses s c then
        match s.slotOf c.point with
        | some (i, sl) => s.setSlot i { sl with suppressed := true }
        | none => s
      else s
    e.push t { c with counted := true }
  else e.push e.s c

/-- Stage 3 of an event (R27): the slot changes are judged in their order. -/
def loadStage (e : Ev) : Ev := e.changes.foldl loadOne { s := e.s }

/-- The load after one tick (R47). -/
def decayed (l : Nat) : Nat := if l = 0 then 0 else l - max 1 (l / 64)

end Sys2Proof.Machine
end

