-- ==== Sys2Proof/Machine/Review.lean ====
section
/-! DEFINITION. The handover engine's review lists: what each slot change, shelving and unshelving does to each open
record (R125 to R132), the standing list they are built from (R71), and the notices and journal of the engine. -/

namespace Sys2Proof.Machine

/-! ## The standing list (R71) -/

/-- An entry of a standing list: a slot, or a queue entry shown as AWAITING_SLOT. -/
inductive Standing where
  | slot (sl : Slot)
  | queued (q : QEntry)
  deriving DecidableEq, Repr

def Standing.point : Standing → Nat
  | .slot sl => sl.point
  | .queued q => q.point

/-- The occurrence shown: 0 for AWAITING_SLOT (R72). -/
def Standing.occ : Standing → Nat
  | .slot sl => sl.occ
  | .queued _ => 0

def Standing.onset : Standing → Stamp
  | .slot sl => sl.onset
  | .queued q => q.onset

/-- The order of slot entries by the five keys of R71: `a` stands before `b`. -/
def slotBefore (s : State) (a b : Slot) : Bool :=
  let pa := (s.pointDef a.point).priority.rank
  let pb := (s.pointDef b.point).priority.rank
  if a.shelved ≠ b.shelved then !a.shelved
  else if pa ≠ pb then pa < pb
  else if a.unacked ≠ b.unacked then a.unacked
  else if a.onset.older b.onset then true
  else if b.onset.older a.onset then false
  else a.point < b.point

/-- `x` placed in a list before the first element it stands before. -/
def insertBefore {α : Type} (before : α → α → Bool) (x : α) : List α → List α
  | [] => [x]
  | y :: t => if before x y then x :: y :: t else y :: insertBefore before x t

/-- The standing list of an area (R71): its slots in order, then its queue entries in queue order. -/
def standingList (s : State) (area : Nat) : List Standing :=
  let mine := (s.slots.map Prod.snd).filter fun sl => (s.pointDef sl.point).area == area
  let sorted := mine.foldl (fun acc sl => insertBefore (slotBefore s) sl acc) []
  sorted.map .slot ++ (s.queue.filter fun q => (s.pointDef q.point).area == area).map .queued

/-! ## Criteria -/

/-- `t` is at or after the relief start of the area's top context (R126, R128). -/
def sinceRelief (s : State) (area : Nat) (t : Stamp) : Bool :=
  match (s.area area).relief with
  | c :: _ => !t.older c.start
  | [] => false

/-- The shelf entry of a point. -/
def State.shelfEntry (s : State) (p : Nat) : Option ShelfEntry := s.shelf.find? fun e => e.point == p

/-- The point is shelved by an entry started during relief (R65). -/
def State.shelvedInRelief (s : State) (p : Nat) : Bool := (s.shelfEntry p).any (·.relief)

/-- The point's priority is URGENT or HIGH. -/
def State.urgentOrHigh (s : State) (p : Nat) : Bool := (s.pointDef p).priority.rank ≤ Priority.high.rank

/-- The criterion for a standing-list entry at the OFFER (R126). -/
def reviewTakes (s : State) (k : HandoverKind) (area : Nat) (e : Standing) : Bool :=
  match k with
  | .shift => true
  | .relief => s.urgentOrHigh e.point || s.shelved e.point
  | .giveBack => sinceRelief s area e.onset || s.shelvedInRelief e.point

/-- The candidates of one area, in order: standing-list entries, then shelved points with no slot and not queued
(R126). -/
def reviewOfArea (s : State) (k : HandoverKind) (area : Nat) : List ReviewEntry :=
  let entry (p occ : Nat) : ReviewEntry := ⟨p, occ, (s.pointDef p).priority, .unreviewed⟩
  ((standingList s area).filter (reviewTakes s k area)).map (fun e => entry e.point e.occ)
    ++ ((s.shelf.filter fun x =>
          (s.pointDef x.point).area == area && (s.slotOf x.point).isNone && !s.queued x.point
            && (k != .giveBack || x.relief)).map fun x => entry x.point 0)

/-- The review list built at the OFFER, each point once (R126). -/
def buildReview (s : State) (k : HandoverKind) (areas : List Nat) : List ReviewEntry :=
  (areas.flatMap (reviewOfArea s k)).foldl
    (fun acc e => if acc.any fun x => x.point == e.point then acc else acc ++ [e]) []

/-! ## Effects on one record -/

/-- A record and whether the event changed its list in a way that is notified (R132). -/
abbrev Reviewed := Handover × Bool

def Handover.entryOf (h : Handover) (p : Nat) : Option ReviewEntry := h.list.find? fun e => e.point == p

def Handover.mapEntry (h : Handover) (p : Nat) (f : ReviewEntry → ReviewEntry) : Handover :=
  { h with list := h.list.map fun e => if e.point == p then f e else e }

/-- The point's entry becomes UNREVIEWED with an occurrence and the point's priority (R129, R131). -/
def resetEntry (s : State) (p occ : Nat) (r : Reviewed) : Reviewed :=
  (r.1.mapEntry p fun e => { e with occ := occ, priority := (s.pointDef p).priority, state := .unreviewed }, true)

/-- The point's entry becomes RESOLVED (R129, R131). -/
def resolveEntry (p : Nat) (r : Reviewed) : Reviewed :=
  match r.1.entryOf p with
  | some e =>
    if e.state = .resolved then r else (r.1.mapEntry p fun e => { e with state := .resolved }, true)
  | none => r

/-- A point is appended, or INCOMPLETE becomes yes when the list is full (R128). -/
def appendEntry (s : State) (p occ : Nat) (r : Reviewed) : Reviewed :=
  if r.1.list.length < Config.reviewCap then
    ({ r.1 with list := r.1.list ++ [⟨p, occ, (s.pointDef p).priority, .unreviewed⟩] }, true)
  else ({ r.1 with incomplete := true }, r.2 || !r.1.incomplete)

/-- The onset time of the point's slot or queue entry. -/
def State.onsetOf (s : State) (p : Nat) : Option Stamp :=
  match s.slotOf p with
  | some (_, sl) => some sl.onset
  | none => (s.queue.find? fun q => q.point == p).map (·.onset)

/-- The record's kind takes a slot change of a point without an entry (R128). -/
def appendTakes (s : State) (k : HandoverKind) (c : SlotChange) : Bool :=
  match k with
  | .shift => true
  | .relief => s.urgentOrHigh c.point && c.counted
  | .giveBack => (s.onsetOf c.point).any fun t => sinceRelief s c.area t

/-- The slot change is a new occurrence of its point (R129). -/
def SlotChange.newOccurrence (c : SlotChange) : Bool :=
  match c.kind with
  | .onset | .reonset | .ringback | .queueJoin | .queueReonset => true
  | .reannounce => c.advanced
  | _ => false

/-- What one slot change does to one record, read against the state after the event (R127 to R130). -/
def reviewChange (s : State) (c : SlotChange) (r : Reviewed) : Reviewed :=
  if (r.1.entryOf c.point).isSome then
    if c.newOccurrence then resetEntry s c.point (c.newOcc.getD 0) r
    else match c.kind with
      | .admission => (r.1.mapEntry c.point fun e => { e with occ := 1 }, r.2)
      | .free | .evict | .queueLeave => if s.shelved c.point then r else resolveEntry c.point r
      | .discard => resolveEntry c.point r
      | _ => r
  else if r.1.areas.contains c.area && (c.newOccurrence || c.kind == .admission) && appendTakes s r.1.kind c then
    appendEntry s c.point (c.newOcc.getD 0) r
  else r

/-- A shelving or an unshelving that the acknowledge unit tells the engine of (R127). -/
inductive ShelfEvent where
  | shelved (point : Nat)
  | unshelved (point : Nat) (advanced : Bool)
  deriving DecidableEq, Repr

/-- The occurrence of the point's slot, 0 without one. -/
def State.occOf (s : State) (p : Nat) : Nat :=
  match s.slotOf p with
  | some (_, sl) => sl.occ
  | none => 0

/-- What a shelving or unshelving does to one record (R131). -/
def reviewShelf (s : State) (x : ShelfEvent) (r : Reviewed) : Reviewed :=
  match x with
  | .shelved p =>
    if (r.1.entryOf p).isSome then resetEntry s p (s.occOf p) r
    else if r.1.areas.contains (s.pointDef p).area then appendEntry s p (s.occOf p) r
    else r
  | .unshelved p advanced =>
    if (r.1.entryOf p).isSome then
      if advanced then resetEntry s p (s.occOf p) r
      else if (s.dynOf p).cond = .normal then resolveEntry p r
      else r
    else r

/-- What an event does to one record: its slot changes in order, then its shelf events. -/
def reviewEvent (s : State) (changes : List SlotChange) (xs : List ShelfEvent) (h : Handover) : Reviewed :=
  xs.foldl (fun r x => reviewShelf s x r) (changes.foldl (fun r c => reviewChange s c r) (h, false))

/-! ## The engine -/

def Handover.reviewed (h : Handover) : Nat := (h.list.filter fun e => e.state == .reviewed).length
def Handover.resolved (h : Handover) : Nat := (h.list.filter fun e => e.state == .resolved).length
def Handover.unreviewed (h : Handover) : Nat := (h.list.filter fun e => e.state == .unreviewed).length

/-- The counts of the record's review list as it stands (R120). -/
def Handover.tally (h : Handover) : ReviewCounts := ⟨h.list.length, h.reviewed, h.resolved, h.unreviewed⟩

/-- A NOTE HANDOVER of a record to a console, with the counts of its list as it stands (R120, R132). -/
def State.noteHandover (s : State) (console : Nat) (h : Handover) (st : HandoverState) (r : Option AbortReason) :
    State :=
  s.notify console (.handover h.number h.kind st r h.tally)

/-- A NOTE HANDOVER to both parties' consoles, one notice where they are the same (R132). -/
def State.noteParties (s : State) (h : Handover) (st : HandoverState) (r : Option AbortReason) : State :=
  let t := s.noteHandover h.outConsole h st r
  if h.inConsole = h.outConsole then t else t.noteHandover h.inConsole h st r

/-- The record with a handover number is replaced. -/
def State.setRecord (s : State) (h : Handover) : State :=
  { s with records := s.records.map fun x => if x.number == h.number then h else x }

/-- The engine's part in an event that hands on slot changes or shelf events: each record in ascending number, with its
notice where its list changed (R127, R132). -/
def engineEvent (changes : List SlotChange) (xs : List ShelfEvent) (s : State) : State :=
  s.records.foldl (fun acc h =>
    let r := reviewEvent s changes xs h
    let t := acc.setRecord r.1
    if r.2 then t.noteHandover r.1.inConsole r.1 r.1.state none else t) s

end Sys2Proof.Machine
end

