-- ==== Sys2Proof/Machine/HandOn.lean ====
section
/-! DEFINITION. What follows an event's slot changes: the generations, the review lists, the NEW_ALARM notices and the
horns, in that order (R15, R16, R29, R78, R79, R100). -/

namespace Sys2Proof.Machine

/-- The areas named by slot changes, ascending, each once (R16). -/
def namedAreas (changes : List SlotChange) : List Nat := ascending (changes.map (·.area))

/-- The areas whose generation has already advanced in the present event: those that the earlier records of the open
MREQ named, which is one event with all its records (R16, R183). -/
def State.movedAreas (s : State) : List Nat := (s.request.map Request.moved).getD []

/-- The generation of each named area advances, once in an event (R16). -/
def advanceGenerations (areas : List Nat) (s : State) : State :=
  let fresh := areas.filter fun a => !s.movedAreas.contains a
  let t := fresh.foldl (fun acc a => acc.modArea a fun r => { r with generation := wrapUp r.generation }) s
  { t with request := t.request.map fun r => { r with moved := r.moved ++ fresh } }

/-! ## NEW_ALARM (R99, R100) -/

/-- The number of the area's audible unacknowledged slots of a priority (R99). -/
def unackedCount (s : State) (area : Nat) (pr : Priority) : Nat :=
  (s.slots.filter fun e =>
    (s.pointDef e.2.point).area == area && (s.pointDef e.2.point).priority == pr && e.2.unacked && e.2.audible).length

/-- The contents of an area's NEW_ALARM (R99). -/
def newAlarmNotice (s : State) (area : Nat) : Notice :=
  .newAlarm area (s.area area).generation (unackedCount s area .urgent) (unackedCount s area .high)
    (unackedCount s area .medium) (unackedCount s area .low)
    (s.queue.filter fun q => (s.pointDef q.point).area == area).length

/-- The slot change is of the silenced sort: it concerns a slot that carries SHELVED, CHATTER or SUPPRESSED after the
event (R29, R100), a ringback in FLOOD of a slot still SUPPRESSED among them (log 45). One with no slot is never of that
sort (R100), also where its point is chatter-held or shelved: R51, R53 and R70 rest the silence of such points on R29,
which speaks of slots (log 47). -/
def silencedChange (s : State) (c : SlotChange) : Bool :=
  match c.kind, c.slot with
  | .free, _ | .evict, _ | .discard, _ => false
  | _, some i =>
    match lookup s.slots i with
    | some sl => sl.point == c.point && !sl.audible
    | none => false
  | _, none => false

/-- One NEW_ALARM for each named area that is not wholly silenced, in ascending area number (R100), also where a flood
exit or chatter release clears ACTIVE_ACKED slots alone (log 46). -/
def queueNewAlarms (changes : List SlotChange) (s : State) : State :=
  (namedAreas changes).foldl (fun acc a =>
    if (changes.filter fun c => c.area == a).all (silencedChange s) then acc
    else acc.notifyArea a (newAlarmNotice s a)) s

/-! ## Horns (R78, R79) -/

/-- A slot is a qualifying alarm for a console (R78). -/
def qualifies (s : State) (address : Nat) (c : Console) (sl : Slot) : Bool :=
  let d := s.pointDef sl.point
  sl.unacked && sl.audible && d.priority.rank ≤ (s.hornLevel address).rank
    && c.operators.any fun op => s.hasRight op d.area .ack

/-- Some qualifying alarm remains for a console. -/
def anyQualifies (s : State) (address : Nat) (c : Console) : Bool := s.slots.any fun e => qualifies s address c e.2

/-- Slot `i` was a qualifying alarm for the console before the event; one whose point changed in the event, or that was
freed and taken again, counts as not (R78). -/
def qualifiedBefore (before : State) (changes : List SlotChange) (address i : Nat) : Bool :=
  !(changes.any fun c => c.slot == some i && (c.kind == .onset || c.kind == .admission))
    && match lookup before.consoles address, lookup before.slots i with
      | some c, some sl => qualifies before address c sl
      | _, _ => false

/-- A slot of the event sounds the console's horn: it qualifies after the event, and did not before or its occurrence
advanced (R78 step 1). A ringback counts only when its slot qualifies, also in FLOOD (log 45). -/
def sounds (before after : State) (changes : List SlotChange) (address : Nat) (c : Console) : Bool :=
  changes.any fun x =>
    match x.slot with
    | some i =>
      match lookup after.slots i with
      | some sl => qualifies after address c sl
          && (!qualifiedBefore before changes address i
              || changes.any fun y => y.slot == some i && y.advanced)
      | none => false
    | none => false

/-- Step 2 of the horn evaluation: QUIET when no qualifying alarm remains (R78, R79). -/
def State.hornStep2 (s : State) (address : Nat) : State :=
  match lookup s.consoles address with
  | some c => if c.attached && !anyQualifies s address c then s.setHorn address .quiet else s
  | none => s

/-- Both steps of the horn evaluation for one console (R78). -/
def hornStep (before : State) (changes : List SlotChange) (s : State) (address : Nat) : State :=
  match lookup s.consoles address with
  | some c => if sounds before s changes address c then s.setHorn address .sounding else s.hornStep2 address
  | none => s

/-- The horn of every ATTACHED console is evaluated (R78). -/
def evaluateHorns (before : State) (changes : List SlotChange) (s : State) : State :=
  s.attachedConsoles.foldl (hornStep before changes) s

/-! ## Handing on -/

/-- An event's slot changes and shelf events are handed on (R15, R29): `before` is the state before the event. -/
def handOn (before : State) (e : Ev) (xs : List ShelfEvent) : State :=
  let s1 := advanceGenerations (namedAreas e.changes) e.s
  let s2 := engineEvent e.changes xs s1
  if e.changes.isEmpty then s2 else evaluateHorns before e.changes (queueNewAlarms e.changes s2)

end Sys2Proof.Machine
end

