-- ==== Sys2Proof/Machine/Shelf.lean ====
section
/-! DEFINITION. The shelf list, and the removal of an entry by UNSHELVE, expiry or a forced rewrite (R65 to R69). -/

namespace Sys2Proof.Machine

/-- An entry placed in ascending order of ticks, behind those with equal ticks (R65). -/
def placeShelf (e : ShelfEntry) : List ShelfEntry → List ShelfEntry
  | [] => [e]
  | x :: t => if e.ticks < x.ticks then e :: x :: t else x :: placeShelf e t

/-- The shelf list without the point's entry. -/
def removeShelf (p : Nat) (l : List ShelfEntry) : List ShelfEntry := l.filter fun x => !(x.point == p)

/-- The AREP of an unshelving: the slot's occurrence and state after the event, if the point has a slot (R64). -/
def unshelveReport (s : State) (p : Nat) (act : Action) (who : Option Actor) : Report :=
  let sl := (s.slotOf p).map Prod.snd
  { action := act, point := p, area := (s.pointDef p).area, occ := sl.map (·.occ)
    stateAfter := sl.map (·.state.code), actor := who }

/-- Steps 1 to 3 of R68 on an event in progress: the entry leaves the list, the point is re-annunciated with the load
monitor's decision, the AREP is sent. Answers the event and the unshelving the engine is told of. -/
def unshelveEv (p : Nat) (act : Action) (who : Option Actor) (e : Ev) : Ev × ShelfEvent :=
  let off : Ev := { s := { e.s with shelf := removeShelf p e.s.shelf } }
  let done := loadStage (reannounce p off)
  ({ s := done.s.report (unshelveReport done.s p act who), changes := e.changes ++ done.changes },
   .unshelved p (done.changes.any SlotChange.advanced))

/-- The removal of a point's shelf entry as an event of its own (R68, R69). -/
def unshelveEvent (p : Nat) (act : Action) (who : Option Actor) (s : State) : State :=
  let r := unshelveEv p act who { s := s }
  handOn s r.1 [r.2]

end Sys2Proof.Machine
end

