-- ==== Sys2Proof/Machine/Authority.lean ====
section
/-! DEFINITION. The authority table, the retained entries, the journal, and the ending of handover records
(R103 to R112, R116 to R118, R138 to R145). -/

namespace Sys2Proof.Machine

/-! ## Journal (R143, R144) -/

/-- A journal entry is written: the next sequence number, the present timestamp, the oldest entry overwritten when the
ring is full. -/
def State.writeJournal (s : State) (e : JournalEntry) : State :=
  let n := (s.retained.journalSeq + 1) % 4294967296
  let all := s.retained.journal ++ [{ e with seq := n, time := s.stamp }]
  let kept := all.drop (all.length - Config.journalCap)
  { s.marked with retained := { s.retained with journalSeq := n, journal := kept } }

/-! ## Areas -/

/-- The area's retained entry takes its holder and relief stack (R107). -/
def State.retainArea (s : State) (a : Nat) : State :=
  let r := s.area a
  { s with retained := { s.retained with areas := writeAt {} s.retained.areas a ⟨r.holder, r.relief⟩ } }

/-- The area's authority and holder become HELD by `h`, its grace stops, its retained entry is written and NOTE
AUTHORITY queued (R111, R114, R116, R118). -/
def State.holdArea (s : State) (a : Nat) (h : Holder) : State :=
  ((s.modArea a fun r => { r with authority := .held, holder := some h, graceLeft := 0 }).retainArea a).noteAuthority a

/-- The area enters GRACE under its recorded holder (R108). Tick work the area still owed for an earlier GRACE is
dropped: it is first decremented at the next tick (R109). -/
def State.enterGrace (s : State) (a : Nat) : State :=
  ((s.modArea a fun r => { r with authority := .grace, graceLeft := (s.areaParams a).grace }).noteAuthority a).dropOwed
    (.grace a)

/-- The area becomes ORPHANED under its recorded holder (R109, R112). -/
def State.orphanArea (s : State) (a : Nat) : State :=
  (s.modArea a fun r => { r with authority := .orphaned, graceLeft := 0 }).noteAuthority a

/-- The areas held HELD from a seat by an operator enter GRACE, in ascending number (R108). -/
def State.graceSeat (s : State) (h : Holder) : State :=
  allAreas.foldl (fun acc a =>
    if (acc.area a).authority == .held && (acc.area a).holder == some h then acc.enterGrace a else acc) s

/-- The areas of an operator removed in the roster, HELD or in GRACE, become ORPHANED, with one journal entry where any
did (R112). -/
def State.orphanOperator (s : State) (op : Nat) : State :=
  let mine := allAreas.filter fun a =>
    ((s.area a).authority == .held || (s.area a).authority == .grace)
      && (s.area a).holder.any fun h => h.operator == op
  let t := mine.foldl State.orphanArea s
  if mine.isEmpty then t
  else t.writeJournal { kind := .orphaned, areas := mine, outgoing := some op }

/-! ## Ending of handover records -/

/-- The counts of a journal entry: entries, reviewed, resolved (R144). -/
def Handover.counts (h : Handover) : Nat × Nat × Nat := (h.list.length, h.reviewed, h.resolved)

/-- The open record with a handover number. -/
def State.record (s : State) (n : Nat) : Option Handover := s.records.find? fun h => h.number == n

/-- The record leaves the table and its summary the retained store (R138 step 3, R140 step 2). -/
def State.dropRecord (s : State) (n : Nat) : State :=
  { s with
    records := s.records.filter fun h => !(h.number == n)
    retained := { s.retained with summaries := s.retained.summaries.filter fun x => !(x.number == n) } }

/-- The open record field of each of the record's areas becomes absent (R117). -/
def State.closeAreas (s : State) (areas : List Nat) : State :=
  areas.foldl (fun acc a => acc.modArea a fun r => { r with openRecord := none }) s

/-- The record ends ABORTED (R140). -/
def State.abort (s : State) (h : Handover) (r : AbortReason) : State :=
  (((s.closeAreas h.areas).dropRecord h.number).writeJournal
    { kind := .aborted, areas := h.areas, number := some h.number
      recordKind := some h.kind, outgoing := some h.outOp, incoming := some h.inOp, reason := some r
      counts := some h.counts }).noteParties h .aborted (some r)

/-- Every open record naming the operator as incoming ends with INCOMING_LOST (R141). -/
def State.abortIncoming (s : State) (op : Nat) : State :=
  s.records.foldl (fun acc h => if h.inOp == op then acc.abort h .incomingLost else acc) s

/-- Every open record naming an operator removed in the roster ends: AUTHORITY_LOST where he is outgoing, INCOMING_LOST
where he is incoming (R142), in ascending handover number (log 70). -/
def State.abortRemoved (s : State) (op : Nat) : State :=
  s.records.foldl (fun acc h =>
    if h.outOp == op then acc.abort h .authorityLost
    else if h.inOp == op then acc.abort h .incomingLost else acc) s

/-- The relief stack after completion of a record of its kind (R139). -/
def reliefAfter (h : Handover) (t : Stamp) (stack : List Relief) : List Relief :=
  match h.kind with
  | .shift => []
  | .relief => ⟨h.outOp, h.outConsole, t, h.number⟩ :: stack
  | .giveBack => stack.drop 1

/-- One area of a completed record (R118). -/
def completeArea (h : Handover) (t : Stamp) (s : State) (a : Nat) : State :=
  ((s.modArea a fun r =>
      { r with relief := reliefAfter h t r.relief, openRecord := none })).holdArea a ⟨h.inOp, h.inConsole, h.inSeat⟩

/-- The contexts a completion removes under SHIFT, each with its area (R139, R144), those of one area top first
(log 56). -/
def clearedContexts (s : State) (h : Handover) : List (Nat × Relief) :=
  match h.kind with
  | .shift => h.areas.flatMap fun a => (s.area a).relief.map fun c => (a, c)
  | _ => []

/-- The record completes (R138). -/
def State.complete (s : State) (h : Handover) : State :=
  let t := s.stamp
  let s1 := h.areas.foldl (completeArea h t) s.marked
  ((s1.dropRecord h.number).writeJournal
    { kind := .complete, areas := h.areas, number := some h.number, recordKind := some h.kind
      outgoing := some h.outOp, incoming := some h.inOp, counts := some h.counts
      contexts := clearedContexts s h }).noteParties h .complete none

/-! ## Claim and forced assignment -/

/-- The contexts of an area that name an operator (R114 step 2, R116 step 2). -/
def State.contextsOf (s : State) (a op : Nat) : List (Nat × Relief) :=
  ((s.area a).relief.filter fun c => c.operator == op).map fun c => (a, c)

/-- The contexts of the area naming the operator are removed; the others keep their order. -/
def State.dropContexts (s : State) (a op : Nat) : State :=
  s.modArea a fun r => { r with relief := r.relief.filter fun c => !(c.operator == op) }

/-- The recorded holder operator of an area. -/
def State.holderOp (s : State) (a : Nat) : Option Nat := (s.area a).holder.map (·.operator)

/-- The area is taken by an operator at a seat, with a journal entry of kind `k` (R114 steps 2 to 5, R116 steps 2, 4
and 5). -/
def State.takeArea (s : State) (a : Nat) (h : Holder) (k : JournalKind) : State :=
  ((s.dropContexts a h.operator).holdArea a h).writeJournal
    { kind := k, areas := [a], outgoing := s.holderOp a
      incoming := some h.operator, contexts := s.contextsOf a h.operator }

/-- The area is forced to no operator (R116 steps 3 to 5). -/
def State.forceUnheld (s : State) (a : Nat) : State :=
  (((s.modArea a fun r => { r with authority := .unheld, holder := none, graceLeft := 0 }).retainArea a).noteAuthority
    a).writeJournal
    { kind := .force, areas := [a], outgoing := s.holderOp a }

end Sys2Proof.Machine
end

