-- ==== Sys2Proof/Machine/Consoles.lean ====
section
/-! DEFINITION. Consoles: responses, attach, session end, detach, and the checks every request passes
(R82 to R93). -/

namespace Sys2Proof.Machine

/-! ## Responses -/

/-- A result record (R177). -/
def resultRec (r : Result) : Rec := ⟨0x70#8, b1 r.code⟩

/-- A RESP to a console joins the console port's OWN queue, or is dropped (R92, R174). -/
def State.respond (s : State) (console : Nat) (seat : Nat) (seq : Half) (op : Nat) (recs : List Rec) : State :=
  s.send .console (generated s Kind.resp console seat seq (BitVec.ofNat 16 op) recs)

/-- A RESP to the request in `f`: its seat and sequence echoed, `op` in the operator field. -/
def State.answer (s : State) (f : Frame) (op : Nat) (r : Result) (data : List Rec) : State :=
  s.respond f.source.toNat f.seat.toNat f.seq op (resultRec r :: data)

/-! ## Attach -/

/-- The console's class and features resolved against the offered set; the third part says that no class was shared
(R83). -/
def resolveAttach (st : Station) (classes : Classes) (features : Features) : ConsoleClass × Features × Bool :=
  let both : Features :=
    { groupAck := features.groupAck && st.features.groupAck
      secondSeat := features.secondSeat && st.features.secondSeat
      handoverDialog := features.handoverDialog && st.features.handoverDialog }
  if classes.full && st.classes.full then (.full, both, false)
  else if classes.ack && st.classes.ack then (.ack, both, false)
  else if classes.view && st.classes.view then (.view, both, false)
  else (.view, {}, true)

/-- The console attaches (R83): the rate hold, failed login count and login hold keep their values. -/
def Console.attach (c : Console) (cls : ConsoleClass) (f : Features) : Console :=
  { c with cls := some cls, features := f, seat1 := none, seat2 := none, silence := 0, horn := .quiet
           notices := [], noticeSeq := 0, transfer := none, requests := 0 }

/-! ## Session end and detach -/

/-- Why a session ends (R85). -/
inductive EndCause where
  | logout | move | detach | rehello | removed | roster
  deriving DecidableEq, Repr

/-- Step 3 of a session end: GRACE for a lost seat, ORPHANED for a roster removal (R85, R108, R112). -/
def endAuthority (address seat op : Nat) (cause : EndCause) (s : State) : State :=
  match cause with
  | .detach | .rehello | .removed => s.graceSeat ⟨op, address, seat⟩
  | .roster => s.orphanOperator op
  | .logout | .move => s

/-- Step 4 of a session end (R85, R141, R142). -/
def endHandovers (op : Nat) (cause : EndCause) (s : State) : State :=
  match cause with
  | .roster => s.abortRemoved op
  | _ => s.abortIncoming op

/-- The session at a seat ends (R85). -/
def endSession (address seat : Nat) (cause : EndCause) (s : State) : State :=
  match (lookup s.consoles address).bind (·.seatOp seat) with
  | none => s
  | some op =>
    let s1 := s.modConsole address fun c => c.setSeat seat none
    let s2 := s1.modConsole address fun c =>
      if c.transfer.any fun t => t.seat == seat then { c with transfer := none } else c
    (endHandovers op cause (endAuthority address seat op cause s2)).hornStep2 address

/-- The console's own fields after a detach (R87). -/
def Console.detached (c : Console) : Console :=
  { c with cls := none, features := {}, seat1 := none, seat2 := none, silence := 0, horn := .quiet
           notices := [], transfer := none, requests := 0 }

/-- An ATTACHED console detaches: its sessions end, seat 1 before seat 2, each queueing NOTE AUTHORITY for its own areas
(log 51), and its entry is emptied (R87). -/
def detachConsole (cause : EndCause) (address : Nat) (s : State) : State :=
  match lookup s.consoles address with
  | some c =>
    if c.attached then
      (endSession address 2 cause (endSession address 1 cause s)).modConsole address Console.detached
    else s
  | none => s

/-! ## Request intake (R84, R92, R93) -/

/-- The request-rate check of R93: the console afterwards, and whether the request passes. -/
def Console.countRequest (c : Console) (limit : Nat) : Console × Bool :=
  if c.rateHold > 0 then (c, false)
  else if c.requests + 1 > limit then ({ c with requests := c.requests + 1, rateHold := Config.rateHold }, false)
  else ({ c with requests := c.requests + 1 }, true)

/-- Who sent a request that has passed the intake checks. -/
structure Requester where
  operator : Nat
  console  : Nat
  seat     : Nat
  deriving DecidableEq, Repr

/-- Silent attach at VIEW with no features, the first part of the event (R84). -/
def silentAttach (address : Nat) (s : State) : State :=
  s.modConsole address fun c => if c.attached then c else c.attach .view {}

/-- What a refusal at intake carries beside its result: the data records that R177 and R180 give every RESP to the request,
read from the state (log 20). -/
abbrev View := State → List Rec

/-- A request whose RESP carries no data where it is refused at intake. -/
def noView : View := fun _ => []

/-- Checks 1 and 2 of R92; `k` takes the request with the console as it stands. -/
def intakeSeat (f : Frame) (view : View) (k : Console → State → State) (s : State) : State :=
  match lookup s.consoles f.source.toNat with
  | none => s
  | some c =>
    if !c.attached then s.answer f 0 .notAttached (view s)
    else if !c.hasSeat f.seat.toNat then s.answer f 0 .badSeat (view s)
    else k c s

/-- Checks 1 to 3 of R92; `k` takes the request. -/
def intakeLogged (f : Frame) (view : View) (k : Requester → State → State) (s : State) : State :=
  intakeSeat f view (fun c t =>
    match c.seatOp f.seat.toNat with
    | none => t.answer f 0 .notLoggedIn (view t)
    | some op =>
      if f.operator.toNat = op then k ⟨op, f.source.toNat, f.seat.toNat⟩ t
      else t.answer f op .notLoggedIn (view t)) s

/-- Checks 1 to 4 of R92; `k` takes the request. -/
def intakeCounted (f : Frame) (view : View) (k : Requester → State → State) (s : State) : State :=
  intakeLogged f view (fun q t =>
    match lookup t.consoles q.console with
    | none => t
    | some c =>
      let r := c.countRequest t.tables.params.rateLimit
      let u := t.modConsole q.console fun _ => r.1
      if r.2 then k q u else u.answer f q.operator .onHold (view u)) s

/-- The console of a request has class `k` or above. -/
def State.consoleAtLeast (s : State) (address : Nat) (k : ConsoleClass) : Bool :=
  match lookup s.consoles address with
  | some c => c.atLeast k
  | none => false

/-- The features of a console. -/
def State.consoleFeatures (s : State) (address : Nat) : Features :=
  match lookup s.consoles address with
  | some c => c.features
  | none => {}

end Sys2Proof.Machine
end

