-- ==== Sys2Proof/Machine/Gate.lean ====
section
/-! DEFINITION. The command gate: forwarding, the ends of an outstanding command, and the fault latch
(R146 to R158). -/

namespace Sys2Proof.Machine

/-- The command record of a RESP (R180). -/
def commandRec (tag point controller : Nat) (detail : List Byte) : Rec :=
  ⟨0x7B#8, b2 tag ++ b2 point ++ b1 controller ++ detail⟩

/-- An outstanding command ends with a result: its entry leaves the table, and its RESP is sent when its console is
ATTACHED (R153). -/
def endCommand (r : Result) (detail : List Byte) (s : State) (c : Command) : State :=
  let t := { s with commands := s.commands.filter fun x => !(x.tag == c.tag) }
  if (lookup t.consoles c.console).any Console.attached then
    t.respond c.console c.seat c.seq c.operator [resultRec r, commandRec c.tag c.point c.controller detail]
  else t

/-- Every outstanding command to a controller ends with LINK_LOST, in table order (R156). -/
def endCommandsTo (address : Nat) (s : State) : State :=
  (s.commands.filter fun c => c.controller == address).foldl (endCommand .linkLost []) s

/-- A command ends at the confirm limit: NO_CONFIRM, the slow count, CONFIRM_TIMEOUT (R155). -/
def endAtLimit (s : State) (c : Command) : State :=
  ((endCommand .noConfirm [] s c).modController c.controller fun k => { k with slow := countUp k.slow }).latch
    .confirmTimeout

/-- A FAULT confirmation sets the controller's fault latch where it is CLEAR (R154). -/
def setFaultLatch (address : Nat) (s : State) : State :=
  match lookup s.controllers address with
  | some c =>
    if c.faultHeld then s
    else (((s.modController address fun k => { k with faultHeld := true }).notifyAll
      (.controllerHeld address true))).latch .ctrlFault
  | none => s

/-- The fault latch of a controller is cleared (R158). -/
def clearFaultLatch (address : Nat) (s : State) : State :=
  (s.modController address fun k => { k with faultHeld := false }).notifyAll (.controllerHeld address false)

/-- The tag of the next forwarded command (R151). -/
def nextTag (s : State) : Nat :=
  nextFree (s.commands.map (·.tag)) (Config.commandCap + 1) (wrapUpToOne s.tagCounter)

/-- An OPCMD is forwarded to its point's controller (R150): a telegram the part forms, with the console's records. Padding
after the last record of the console's OPCMD is not carried over, which is the model's choice (log 76). -/
def forwardCommand (q : Requester) (f : Frame) (p : Nat) (s : State) : State :=
  let tag := nextTag s
  let ctrl := (s.pointDef p).controller
  let c : Command :=
    { tag := tag, console := q.console, seat := q.seat, operator := q.operator, seq := f.seq, controller := ctrl
      point := p, ticks := s.tables.params.confirmLimit }
  let t := { s with tagCounter := tag, commands := s.commands ++ [c] }
  t.send .plant (generated t Kind.opcmd ctrl 0 (BitVec.ofNat 16 tag) (BitVec.ofNat 16 q.operator) f.recs)

end Sys2Proof.Machine
end

