-- ==== Sys2Proof/Machine/Supervision.lean ====
section
/-! DEFINITION. Controller supervision: STALE, resynchronisation, the snapshot, and point reports
(R25 to R42, R51). -/

namespace Sys2Proof.Machine

/-! ## Becoming STALE -/

/-- The supervision fields of a controller that becomes STALE (R33). -/
def Controller.stale (c : Controller) : Controller :=
  { c with live := false, silence := 0, phase := .idle, sent := 0, wait := 0, snapSet := [], snapFailed := false }

/-- A resynchronisation is abandoned (R40). -/
def Controller.abandon (c : Controller) : Controller := { c with phase := .idle, sent := 0, wait := 0, snapSet := [] }

/-- A LIVE controller becomes STALE, on an event in progress: its slots take STALE, its commands end, NOTE STALE is
queued and STALE_ANY latches (R33). -/
def staleEv (address : Nat) (e : Ev) : Ev :=
  let e1 : Ev := { e with s := e.s.modController address Controller.stale }
  let e2 := overlayEach (fun sl => (e.s.pointDef sl.point).controller == address && !sl.stale)
    (fun sl => { sl with stale := true }) e1
  { e2 with s := ((endCommandsTo address e2.s).notifyAll (.stale address true)).latch .staleAny }

/-- A LIVE controller becomes STALE, as an event of its own. -/
def becomeStale (address : Nat) (s : State) : State := handOn s (staleEv address { s := s }) []

/-! ## Resynchronisation (R34, R35) -/

/-- An SREQ with the controller's snapshot number joins the plant port's OWN queue (R34). -/
def sendSreq (address : Nat) (s : State) : State :=
  match lookup s.controllers address with
  | some c => s.send .plant (generated s Kind.sreq address 0 (BitVec.ofNat 16 c.snapNumber) 0 [])
  | none => s

/-- A resynchronisation starts (R34). -/
def startResync (address : Nat) (s : State) : State :=
  sendSreq address (s.modController address fun c =>
    { c with snapNumber := wrapUp c.snapNumber, sent := 1, wait := Config.snapshotWait, phase := .requested })

/-- The wait of a resynchronisation has expired (R35): a repeat, or failure after the last. -/
def resyncExpired (address : Nat) (s : State) : State :=
  match lookup s.controllers address with
  | none => s
  | some c =>
    if c.sent < Config.snapshotRetries + 1 then
      sendSreq address (s.modController address fun c =>
        { c with snapSet := [], snapNumber := wrapUp c.snapNumber, sent := c.sent + 1, wait := Config.snapshotWait
                 phase := .requested })
    else s.modController address fun c =>
      { c with phase := .idle, sent := 0, wait := 0, snapSet := [], snapFailed := true }

/-! ## Point reports (R27, R51) -/

/-- The chatter score after an addition (R51). -/
def chatterAdded (n : Nat) : Nat := min 255 (n + 16)

/-- Stage 1 of R27: the last reported condition and the chatter score. Answers the dynamic state after, whether the
condition changed, and whether the record started a chatter hold. -/
def reportStage1 (d : PointDef) (y : PointDyn) (c : Condition) : PointDyn × Bool × Bool :=
  if y.cond = c then (y, false, false)
  else
    let score := chatterAdded y.score
    let starts := !y.held && d.chatterOn ≤ score
    ({ cond := c, score := score, held := y.held || starts }, true, starts)

/-- A record that started a chatter hold marks the point's slot with CHATTER where no slot change of the event has
(R14, R28, R51). -/
def markHeld (p : Nat) (e : Ev) : Ev :=
  match e.s.slotOf p with
  | some (i, sl) =>
    if sl.chatter then e
    else
      let new : Slot := { sl with chatter := true }
      if e.changes.any fun c => c.point == p then { e with s := e.s.setSlot i new }
      else moveSlot i sl new .overlay (some .report) e
  | none => e

/-- One point record of a PREP, as one event at the alarm table (R27). -/
def reportEvent (p : Nat) (c : Condition) (s0 : State) : State :=
  let before := s0.beginEvent
  let r := reportStage1 (before.pointDef p) (before.dynOf p) c
  let s1 := before.setDyn p r.1
  let active := c == .active
  -- the AREP CHATTER_HOLD stands before the actions of stage 2 and names the slot as stage 2 leaves it
  let s2 := if r.2.2 then
      s1.report { action := .chatterHold, point := p, area := (s1.pointDef p).area
                  occ := ((applyReport p active .report { s := s1 }).s.slotOf p).map (·.2.occ) }
    else s1
  let e := applyReport p active .report { s := s2 }
  let e := if r.2.2 then markHeld p e else e
  let facts : Ev :=
    { e with changes := e.changes.map fun x => { x with condChanged := r.2.1, startedHold := r.2.2 && x.point == p } }
  handOn before (loadStage facts) []

/-- A point record that is not skipped names a defined point of this controller (R26). -/
def reportable (s : State) (address p : Nat) : Bool :=
  p < Config.pointCount && (s.pointDef p).defined && (s.pointDef p).controller == address

/-- The snapshot set follows a point record of a controller in RECEIVING (R37). -/
def followReport (address p : Nat) (c : Condition) (s : State) : State :=
  s.modController address fun k =>
    if k.phase = .receiving then
      { k with snapSet := match c with
        | .active => insertNat p k.snapSet
        | .normal => k.snapSet.filter fun q => !(q == p) }
    else k

/-- The records of a PREP, one after another (R25, R26): a record of another code is skipped, one of the wrong length
ends the parsing. -/
def applyPrep (address : Nat) : List Rec → State → State
  | [], s => s
  | r :: rest, s =>
    if r.code ≠ 0x01#8 then applyPrep address rest s
    else if r.data.length ≠ 3 ∧ r.data.length ≠ 9 then s
    else
      let p := field2 r.data 0
      match conditionOf (field1 r.data 2) with
      | some c =>
        if reportable s address p then applyPrep address rest (followReport address p c (reportEvent p c s))
        else applyPrep address rest s
      | none => applyPrep address rest s

/-! ## Snapshots (R36, R38, R39) -/

/-- One point of a snapshot's first stage: not in the set, so NORMAL (R38). -/
def snapshotAbsent (e : Ev) (p : Nat) : Ev :=
  let s := e.s.setDyn p { e.s.dynOf p with cond := .normal }
  applyReport p false .snapshot { e with s := s }

/-- One point of a snapshot's second stage: in the set, so ACTIVE (R38). -/
def snapshotPresent (e : Ev) (p : Nat) : Ev :=
  let s := e.s.setDyn p { e.s.dynOf p with cond := .active }
  applyReport p true .snapshot { e with s := s }

/-- Stage 3: STALE is cleared from every slot of the controller's points; a slot not changed by the earlier stages
hands on an OVERLAY change (R38, R14). -/
def clearStale (address : Nat) (e : Ev) : Ev :=
  (e.s.slots.filter fun x => (e.s.pointDef x.2.point).controller == address && x.2.stale).foldl
    (fun acc x =>
      let new : Slot := { x.2 with stale := false }
      if acc.changes.any fun c => c.slot == some x.1 && c.point == x.2.point then
        { acc with s := acc.s.setSlot x.1 new }
      else moveSlot x.1 x.2 new .overlay (some .snapshot) acc) e

/-- The defined points whose definition names a controller, ascending. -/
def State.pointsOf (s : State) (address : Nat) : List Nat :=
  keys (s.tables.points.filter fun e => e.2.defined && e.2.controller == address)

/-- A snapshot ends and is applied as one event (R38), and the controller returns to LIVE (R39). Stage 2 takes every point
of the set, also one rewritten since it was added (log 17). -/
def applySnapshot (address : Nat) (s0 : State) : State :=
  let before := s0.beginEvent
  match lookup before.controllers address with
  | none => before
  | some c =>
    let mine := before.pointsOf address
    let e1 := (mine.filter fun p => !c.snapSet.contains p).foldl snapshotAbsent { s := before }
    let e2 := c.snapSet.foldl snapshotPresent e1
    let e3 := clearStale address { e2 with s := e2.s.modController address fun k =>
      { k with live := true, silence := 0, phase := .idle, sent := 0, wait := 0, snapSet := [], snapFailed := false
               beenLive := true } }
    handOn before { e3 with s := e3.s.notifyAll (.stale address false) } []

/-- A snapshot record's point is added where it is defined and names this controller (R36). -/
def addSnapPoint (address : Nat) (data : List Byte) (s : State) : State :=
  if data.length = 3 ∧ reportable s address (field2 data 1) then
    s.modController address fun k => { k with snapSet := insertNat (field2 data 1) k.snapSet }
  else s

/-- The phase of a controller. -/
def State.phaseOf (s : State) (address : Nat) : Phase :=
  match lookup s.controllers address with
  | some c => c.phase
  | none => .idle

/-- FIRST: the set is emptied (R36). -/
def snapFirst (address : Nat) (s : State) : State :=
  s.modController address fun k => { k with snapSet := [], phase := .receiving }

/-- The records of an accepted PSNAP, in order (R36, R180): records after a LAST are discarded, a record of the wrong
length ends the parsing, one of another code or marker is skipped. -/
def applyPsnap (address : Nat) : List Rec → State → State
  | [], s => s
  | r :: rest, s =>
    if r.code ≠ 0x11#8 then applyPsnap address rest s
    else if r.data.length ≠ 1 ∧ r.data.length ≠ 3 then s
    else
      let receiving := s.phaseOf address == .receiving
      match field1 r.data 0 with
      | 0 => applyPsnap address rest (if receiving then addSnapPoint address r.data s else s)
      | 1 => applyPsnap address rest (addSnapPoint address r.data (snapFirst address s))
      | 2 => if receiving then applySnapshot address (addSnapPoint address r.data s)
             else applyPsnap address rest s
      | 3 => applySnapshot address (addSnapPoint address r.data (snapFirst address s))
      | _ => applyPsnap address rest s

/-! ## Liveness (R31, R34, R82) -/

/-- A well-formed telegram from a configured station counts for its liveness: a controller at the plant port, a console
at the console port. A STALE controller in IDLE starts a resynchronisation, which the second part tells. -/
def liveness (p : PortId) (source : Nat) (s : State) : State × Bool :=
  match p with
  | .plant =>
    match lookup s.controllers source with
    | some c =>
      let t := s.modController source fun k => { k with silence := 0 }
      if !c.live && c.phase == .idle then (startResync source t, true) else (t, false)
    | none => (s, false)
  | .console => (s.modConsole source fun c => { c with silence := 0 }, false)

end Sys2Proof.Machine
end

