-- ==== Sys2Proof/Machine/Items.lean ====
section
/-! DEFINITION. Field items of management: reading the items of a WRITE, and the items a READ, a QUERY_SLOT and a
READ_STATUS return (R181, R184, R186, R191). -/

namespace Sys2Proof.Machine

/-! ## Items of a WRITE -/

/-- A field item: code and value. -/
abbrev Item := Nat × List Byte

/-- The items of a WRITE record; none where an item's size runs past the end or one byte is left over, of whatever code
the item is (R181): that such a WRITE is BAD_REQUEST is the model's choice (log 66). -/
def parseItems : Nat → List Byte → Option (List Item)
  | _, [] => some []
  | 0, _ => none
  | fuel + 1, c :: n :: rest =>
    if n.toNat ≤ rest.length then
      (parseItems fuel (rest.drop n.toNat)).map fun t => (c.toNat, rest.take n.toNat) :: t
    else none
  | _ + 1, [_] => none

/-- The size of an item a WRITE of the table may carry (R181). -/
def itemSize : TableId → Nat → Option Nat
  | .points, 6 => some 2
  | .points, n => if 1 ≤ n ∧ n ≤ 9 then some 1 else none
  | .roster, 0 => some 0
  | .roster, 1 => some 2 | .roster, 2 => some 1 | .roster, 3 => some 4 | .roster, 4 => some 1 | .roster, 5 => some 16
  | .stations, 0 => some 0
  | .stations, 7 => some 2 | .stations, 8 => some 2
  | .stations, n => if 1 ≤ n ∧ n ≤ 6 then some 1 else none
  | .areas, n => if 1 ≤ n ∧ n ≤ 7 then some 2 else none
  | .params, 1 => some 1 | .params, 2 => some 1
  | .params, n => if 3 ≤ n ∧ n ≤ 7 then some 2 else none
  | _, _ => none

/-- The items of codes below 0x40, all of a listed code and size; none where one is not. Items of code 0x40 and above
are ignored (R181). -/
def checkedItems (t : TableId) (data : List Byte) : Option (List Item) :=
  match parseItems data.length data with
  | none => none
  | some items =>
    let mine := items.filter fun i => i.1 < 0x40
    if mine.all fun i => itemSize t i.1 == some i.2.length then some mine else none

/-- The bytes of the item with a code; of two, the later. -/
def itemBytes (items : List Item) (code : Nat) : Option (List Byte) :=
  (items.reverse.find? fun i => i.1 == code).map Prod.snd

/-- The value of the item with a code. -/
def itemValue (items : List Item) (code : Nat) : Option Nat := (itemBytes items code).map natOf

/-! ## Items of a reply -/

/-- One field item (R181). -/
def item (code : Nat) (value : List Byte) : List Byte := b1 code ++ b1 value.length ++ value

/-- An item for a field that may be absent: left out when it is, which is the model's choice where R186 does not say it, and
the codes of the items after it stay (log 81). -/
def itemOpt (code : Nat) (value : Option (List Byte)) : List Byte :=
  match value with
  | some v => item code v
  | none => []

/-- A READ of POINTS: definition and dynamic state (R184). The chatter score takes two bytes (log 65), and the shelved item
is the yes or no without R5's reference to the shelf entry (log 72). -/
def readPoint (s : State) (p : Nat) : List Byte :=
  let d := s.pointDef p
  let y := s.dynOf p
  item 0x01 (b1 (flagByte d.defined)) ++ item 0x02 (b1 d.area) ++ item 0x03 (b1 d.controller)
    ++ item 0x04 (b1 d.priority.code) ++ item 0x05 (b1 d.latch.code) ++ item 0x06 (b2 d.shelveLimit)
    ++ item 0x07 (b1 d.chatterOn) ++ item 0x08 (b1 d.chatterOff) ++ item 0x09 (b1 (flagByte d.suppressible))
    ++ item 0x40 (b1 y.cond.code) ++ item 0x41 (b2 y.score) ++ item 0x42 (b1 (flagByte y.held))
    ++ item 0x43 (b1 (flagByte (s.shelved p))) ++ item 0x44 (b1 (flagByte (s.queued p)))

/-- A READ of ROSTER: every field, the credential code as 0 (R90, R184). -/
def readOperator (s : State) (i : Nat) : List Byte :=
  match lookup s.tables.roster i with
  | some o =>
    item 0x01 (b2 o.id) ++ item 0x02 (b1 (flagByte o.enabled)) ++ item 0x03 (b4 0) ++ item 0x04 (b1 o.role.code)
      ++ item 0x05 (allAreas.flatMap fun a => b1 ((o.rights[a]?).getD .none).rank)
  | none => []

/-- The read-only fields of a console table entry that its READ returns (R81): the state first, in the order of the
table, an EMPTY seat as 0 (log 50). -/
def readConsole (c : Console) : List Byte :=
  item 0x40 (b1 (flagByte c.attached)) ++ itemOpt 0x41 (c.cls.map fun k => b1 k.code)
    ++ item 0x42 (b1 c.features.code) ++ item 0x43 (b2 (c.seat1.getD 0))
    ++ itemOpt 0x44 (if c.features.secondSeat then some (b2 (c.seat2.getD 0)) else none)
    ++ item 0x45 (b1 c.horn.code) ++ item 0x46 (b2 c.notices.length)

/-- The fields of a controller that a READ of its station returns (R30, R146). -/
def readController (c : Controller) : List Byte :=
  item 0x07 (b2 c.slow) ++ item 0x08 (b2 c.late) ++ item 0x40 (b1 (flagByte (!c.live)))
    ++ item 0x41 (b1 (flagByte c.snapFailed)) ++ item 0x42 (b1 (flagByte c.faultHeld))

/-- The station configures a controller: kind CONTROLLER, side PLANT (R185). -/
def Station.isController (st : Station) : Bool := st.kind == .controller && st.side == some .plant

/-- The station configures a console: kind CONSOLE, side CONSOLE (R185). -/
def Station.isConsole (st : Station) : Bool := st.kind == .console && st.side == some .console

/-- A READ of STATIONS (R184). -/
def readStation (s : State) (i : Nat) : List Byte :=
  match lookup s.tables.stations i with
  | some st =>
    item 0x01 (b1 st.address) ++ item 0x02 (b1 st.kind.code) ++ itemOpt 0x03 (st.side.map fun x => b1 (sideCode x))
      ++ (if st.kind = .console then
            item 0x04 (b1 st.classes.code) ++ item 0x05 (b1 st.features.code) ++ item 0x06 (b1 st.hornLevel.code)
          else [])
      ++ (if st.isController then ((lookup s.controllers st.address).map readController).getD [] else [])
      ++ (if st.isConsole then ((lookup s.consoles st.address).map readConsole).getD [] else [])
  | none => []

/-- The items of a relief context, all under one code (R106). -/
def readContext (code : Nat) (c : Relief) : List Byte :=
  item code (b2 c.operator) ++ item code (b1 c.console) ++ item code c.start.bytes ++ item code (b2 c.number)

/-- A READ of AREAS: parameters, counts, load and flood state, authority record (R184). The holder console and the holder
seat take one byte each (log 55). -/
def readArea (s : State) (a : Nat) : List Byte :=
  let p := s.areaParams a
  let r := s.area a
  item 0x01 (b2 p.fOn) ++ item 0x02 (b2 p.fOff) ++ item 0x03 (b2 p.grace) ++ item 0x04 (b2 p.attend)
    ++ item 0x05 (b2 p.handover) ++ item 0x06 (b2 r.evictions) ++ item 0x07 (b2 r.losts)
    ++ item 0x40 (b2 r.load) ++ item 0x41 (b1 (flagByte r.flood)) ++ item 0x42 (b1 r.authority.code)
    ++ itemOpt 0x43 (r.holder.map fun h => b2 h.operator) ++ itemOpt 0x44 (r.holder.map fun h => b1 h.console)
    ++ itemOpt 0x45 (r.holder.map fun h => b1 h.seat) ++ item 0x46 (b2 r.graceLeft)
    ++ r.relief.flatMap (readContext 0x47) ++ itemOpt 0x48 (r.openRecord.map b2)

/-- A READ of PARAMS (R184). -/
def readParams (s : State) : List Byte :=
  let p := s.tables.params
  item 0x01 (b1 p.rateLimit) ++ item 0x02 (b1 p.confirmLimit) ++ item 0x03 (b2 p.enables.toNat)
    ++ item 0x04 (b2 s.plant.malformed) ++ item 0x05 (b2 s.plant.dropped)
    ++ item 0x06 (b2 s.console.malformed) ++ item 0x07 (b2 s.console.dropped)
    ++ item 0x40 (b2 Config.rateHold) ++ item 0x41 (b2 Config.loginFailureLimit) ++ item 0x42 (b2 Config.loginHold)
    ++ item 0x43 (b2 Config.snapshotWait) ++ item 0x44 (b2 Config.snapshotRetries)
    ++ item 0x45 (b2 Config.stationLiveLimit) ++ item 0x46 (b2 Config.timeMasterLimit)

/-- A QUERY_SLOT, or a READ of SLOTS (R186). -/
def readSlot (s : State) (i : Nat) : List Byte :=
  match lookup s.slots i with
  | some sl =>
    item 0x40 (b1 1) ++ item 0x41 (b2 sl.point) ++ item 0x42 (b1 sl.state.code) ++ item 0x43 (b2 sl.occ)
      ++ item 0x44 (b1 (flagByte sl.shelved)) ++ item 0x45 (b1 (flagByte sl.chatter))
      ++ item 0x46 (b1 (flagByte sl.suppressed)) ++ item 0x47 (b1 (flagByte sl.stale))
      ++ item 0x48 sl.onset.bytes ++ item 0x49 sl.last.bytes ++ itemOpt 0x4A (sl.ackOp.map b2)
  | none => item 0x40 (b1 0)

/-- A READ of SHELF, in list order; no item where no entry stands (R65, R184, log 52). -/
def readShelf (s : State) (i : Nat) : List Byte :=
  match s.shelf[i]? with
  | some e =>
    item 0x40 (b2 e.point) ++ item 0x41 (b2 e.operator) ++ item 0x42 e.start.bytes ++ item 0x43 (b2 e.ticks)
      ++ item 0x44 (b1 (flagByte e.relief))
  | none => []

/-- The number of a journal kind, for its unstated code (log 7). -/
def JournalKind.index : JournalKind → Nat
  | .complete => 0 | .aborted => 1 | .resetAbort => 2 | .claim => 3 | .force => 4 | .orphaned => 5

/-- A READ of the outstanding command table, in table order; no item where no entry stands (R147, log 30, log 52). -/
def readCommand (s : State) (i : Nat) : List Byte :=
  match s.commands[i]? with
  | some c =>
    item 0x40 (b2 c.tag) ++ item 0x41 (b1 c.console) ++ item 0x42 (b1 c.seat) ++ item 0x43 (b2 c.operator)
      ++ item 0x44 (b2 c.seq.toNat) ++ item 0x45 (b1 c.controller) ++ item 0x46 (b2 c.point) ++ item 0x47 (b2 c.ticks)
  | none => []

/-- A READ of JOURNAL, oldest first; no item where no entry stands (R143, R144, log 52). -/
def readJournal (s : State) (i : Nat) : List Byte :=
  match s.retained.journal[i]? with
  | some e =>
    item 0x40 (b4 e.seq) ++ item 0x41 [Config.journalKindCode e.kind.index] ++ item 0x42 e.time.bytes
      ++ e.areas.flatMap (fun a => item 0x43 (b1 a))
      ++ itemOpt 0x44 (e.number.map b2) ++ itemOpt 0x45 (e.recordKind.map fun k => b1 k.code)
      ++ itemOpt 0x46 (e.outgoing.map b2) ++ itemOpt 0x47 (e.incoming.map b2)
      ++ itemOpt 0x48 (e.reason.map fun r => b1 r.code)
      ++ (match e.counts with
          | some (n, r, z) => item 0x49 (b2 n) ++ item 0x49 (b2 r) ++ item 0x49 (b2 z)
          | none => [])
      ++ e.contexts.flatMap (fun c => item 0x4A (b1 c.1) ++ readContext 0x4A c.2)
      ++ itemOpt 0x4B (e.reached.map fun st => b1 st.code)
  | none => []

/-- The number of a reset cause, for its unstated code (log 7). -/
def ResetCause.index : ResetCause → Nat
  | .powerOn => 0 | .systemCommand => 1 | .systemLine => 2

/-- What READ_STATUS and a READ of STATUS return (R191): the latched values as one list under one code and the conditions as
one list under the next (log 59), and the tick value in the form of a timestamp (log 60). -/
def readStatusItems (s : State) : List Byte :=
  StatusFlag.all.flatMap (fun f => item 0x40 (b1 (flagByte (s.isLatched f))))
    ++ StatusFlag.all.flatMap (fun f => item 0x41 (b1 (flagByte (s.condition f))))
    ++ item 0x42 (b1 s.time.state.code)
    ++ item 0x43 (Stamp.bytes ⟨s.time.state == .unset, s.time.sec, s.time.ms⟩)
    ++ item 0x44 (b1 (flagByte s.time.held)) ++ item 0x45 (b1 (flagByte s.time.relock))
    ++ item 0x46 (b1 (flagByte s.memory.valid)) ++ item 0x47 (b1 (flagByte s.store.isSome))
    ++ item 0x48 [Config.resetCauseCode s.retained.cause.index] ++ item 0x49 (b2 s.retained.count)

end Sys2Proof.Machine
end

