-- ==== Sys2Proof/Machine/Writes.lean ====
section
/-! DEFINITION. What a WRITE does to each configuration table, with its refusals, its clamping and its effects on the
blocks that read the table (R2 to R4, R41, R49, R89, R91, R110, R137, R146, R159, R184, R185). -/

namespace Sys2Proof.Machine

/-- What one management record answers: the open request and the state after it, its result code, and the data that
follows the code in the result record (R181, R183). -/
structure Answer where
  req  : Request
  s    : State
  code : Byte
  data : List Byte := []

def Result.byte (r : Result) : Byte := BitVec.ofNat 8 r.code

/-- A record refused: the state is unchanged. -/
def refuse (req : Request) (s : State) (r : Result) : Answer := { req := req, s := s, code := r.byte }

/-- A WRITE taken: OK, or OK_CLAMPED where a value was clamped (R3, R184). -/
def written (req : Request) (clamped : Bool) (s : State) : Answer :=
  { req := req, s := s, code := (if clamped then Result.okClamped else Result.ok).byte }

/-- A yes or no (R179). -/
def yesNo : Nat → Option Bool
  | 0 => some false
  | 1 => some true
  | _ => none

/-- An optional item: its value through `f`, `d` where the item is absent, none where its value names nothing. -/
def optItem {α : Type} (items : List Item) (code : Nat) (d : α) (f : Nat → Option α) : Option α :=
  match itemValue items code with
  | some v => f v
  | none => some d

/-- The items are named in a WRITE of a count with a value other than 0 (R184). -/
def countsNonzero (items : List Item) (codes : List Nat) : Bool :=
  codes.any fun c => (itemValue items c).any fun v => v != 0

/-! ## POINTS (R2 to R4) -/

/-- The definition a WRITE carries, before clamping; none where it is refused with BAD_REQUEST (R2). -/
def pointWritten (old : PointDef) (items : List Item) : Option PointDef :=
  (optItem items 1 old.defined yesNo).bind fun defined =>
  if !defined then some {}
  else
    (itemValue items 2).bind fun area =>
    (itemValue items 3).bind fun controller =>
    ((itemValue items 4).bind priorityOf).bind fun priority =>
    ((itemValue items 5).bind latchOf).bind fun latch =>
    (optItem items 9 false yesNo).bind fun suppressible =>
    if area > 15 ∨ controller = 0 ∨ controller > 254 then none
    else some
      { defined := true, area := area, controller := controller, priority := priority, latch := latch
        shelveLimit := (itemValue items 6).getD 0, chatterOn := (itemValue items 7).getD 96
        chatterOff := (itemValue items 8).getD 32, suppressible := suppressible }

/-- The definition after the clamping of R3, its four steps in order. -/
def clampPoint (d : PointDef) : PointDef :=
  let on := max 32 d.chatterOn
  let off := min d.chatterOff (on - 16)
  let limit := min 480 d.shelveLimit
  let urgent := d.priority == .urgent
  { d with
    chatterOn := on, chatterOff := off, shelveLimit := if urgent then 0 else limit
    suppressible := d.suppressible && !urgent }

/-- A shelf entry cannot stand beside the definition: undefined, URGENT, or a shelve limit of 0 (R4 step 4). -/
def endsShelving (d : PointDef) : Bool := !d.defined || d.priority == .urgent || d.shelveLimit == 0

/-- The definition of point `p` is rewritten in the four steps of R4, as one event. -/
def rewritePoint (p : Nat) (d : PointDef) (s : State) : State :=
  let e1 := discardPoint p { s := s }
  let s2 := e1.s.setDyn p { e1.s.dynOf p with score := 0, held := false }
  let e3 : Ev :=
    { e1 with s := { s2 with tables := { s2.tables with points := writeAt {} s2.tables.points p d } } }
  if e3.s.shelved p && endsShelving d then
    let r := unshelveEv p .unshelve none e3
    handOn s r.1 [r.2]
  else handOn s e3 []

/-- A WRITE to POINTS at an index within the table (R2 to R4). -/
def writePoint (req : Request) (p : Nat) (force : Bool) (items : List Item) (s : State) : Answer :=
  match pointWritten (s.pointDef p) items with
  | none => refuse req s .badRequest
  | some d =>
    if ((s.slotOf p).isSome || s.queued p) && !force then refuse req s .inUse
    else written req (clampPoint d != d) (rewritePoint p (clampPoint d) s)

/-! ## ROSTER (R91) -/

/-- A free value as a role or a right level, for a field that the WRITE of a new entry omits (log 8). -/
def roleFrom (n : Nat) : Role := (roleOf (1 + n % 4)).getD .observer
def rightFrom (n : Nat) : RightLevel := (rightOf (n % 5)).getD .none

/-- What a new roster entry holds in the fields its WRITE omits: free values, since no rule states them (log 8). -/
def omittedOperator (i : Nat) : Operator :=
  { id := Config.omittedRosterValue i 1 0 % 65536
    enabled := Config.omittedRosterValue i 2 0 % 2 == 1
    code := Config.omittedRosterValue i 3 0 % 4294967296
    role := roleFrom (Config.omittedRosterValue i 4 0)
    rights := allAreas.map fun a => rightFrom (Config.omittedRosterValue i 5 a) }

/-- Sixteen right levels from their bytes (R179, R181). -/
def rightsOf (l : List Byte) : Option (List RightLevel) :=
  l.foldr (fun b acc => acc.bind fun t => (rightOf b.toNat).map fun r => r :: t) (some [])

/-- The roster entry a WRITE leaves; none where a value names nothing. -/
def operatorWritten (old : Operator) (items : List Item) : Option Operator :=
  (optItem items 2 old.enabled yesNo).bind fun enabled =>
  (optItem items 4 old.role roleOf).bind fun role =>
  (match itemBytes items 5 with | some l => rightsOf l | none => some old.rights).bind fun rights =>
  some { id := (itemValue items 1).getD old.id, enabled := enabled, code := (itemValue items 3).getD old.code
         role := role, rights := rights }

/-- An operator ID the entry at index `i` may not take: 0, 65535, or one another entry holds (R91). -/
def badOperatorId (s : State) (i id : Nat) : Bool :=
  id == 0 || id == 65535 || s.tables.roster.any fun e => e.1 != i && e.2.id == id

/-- The consequences of an operator's removal: his session ends with cause roster, or without one his areas and his
open records are acted on alone (R85, R91, R112, R142). -/
def removeOperator (op : Nat) (s : State) : State :=
  match s.session op with
  | some (address, seat) => endSession address seat .roster s
  | none => endHandovers op .roster (endAuthority 0 0 op .roster s)

/-- Step 2 of the horn evaluation at the console where the operator is logged in (R79). -/
def rehornOperator (op : Nat) (s : State) : State :=
  match s.session op with
  | some (address, _) => s.hornStep2 address
  | none => s

def State.setRoster (s : State) (l : List (Nat × Operator)) : State :=
  { s with tables := { s.tables with roster := l } }

/-- The consequences of a WRITE that changed the entry from `old` to `new` (R91): enabled set from yes to no, and a changed
operator ID, remove the old operator (R112). Enabled no for an operator already disabled removes nobody, which is the
model's choice for one whose areas stand in GRACE after a start-up (log 75). -/
def afterRoster (old : Option Operator) (new : Operator) (s : State) : State :=
  match old with
  | none => s
  | some o =>
    let t := if (o.enabled && !new.enabled) || o.id != new.id then removeOperator o.id s else s
    if o.role != new.role || o.rights != new.rights then rehornOperator new.id t else t

/-- A WRITE to ROSTER at an index within the table (R91, R181): values that name nothing are refused first, also beside
the removal item (log 26). The removal item at a free index is answered OK and changes nothing (log 62). -/
def writeOperator (req : Request) (i : Nat) (_force : Bool) (items : List Item) (s : State) : Answer :=
  let old := lookup s.tables.roster i
  if (operatorWritten (old.getD (omittedOperator i)) items).isNone then refuse req s .badRequest
  else if (itemBytes items 0).isSome then
    let t := s.setRoster (removeAt s.tables.roster i)
    written req false (match old with | some o => removeOperator o.id t | none => t)
  else
    match operatorWritten (old.getD (omittedOperator i)) items with
    | none => refuse req s .badRequest
    | some new =>
      if badOperatorId s i new.id then refuse req s .badRequest
      else written req false
        (afterRoster old new (s.setRoster (insertAt s.tables.roster i new)))

/-! ## STATIONS (R41, R89, R146, R184, R185) -/

/-- The address, kind and side a WRITE leaves over the old entry, if any; none where one is missing or names nothing. -/
def stationAddress (old : Option Station) (items : List Item) : Option Nat :=
  match itemValue items 1 with
  | some v => if v = 0 ∨ v ≥ 255 then none else some v
  | none => old.map Station.address

def stationKind (old : Option Station) (items : List Item) : Option StationKind :=
  match itemValue items 2 with
  | some v => stationKindOf v
  | none => old.map Station.kind

def stationSide (old : Option Station) (items : List Item) : Option PortId :=
  match itemValue items 3 with
  | some v => sideOf v
  | none => old.bind Station.side

/-- The offered set and horn level of an entry that is no CONSOLE's, and of a new CONSOLE that carries none (R185). Bits of
an item that name no class or feature are ignored (log 80). -/
def offeredClasses (old : Option Station) (items : List Item) : Classes :=
  match itemValue items 4 with
  | some v => classesOf v
  | none => (old.map Station.classes).getD { view := true }

def offeredFeatures (old : Option Station) (items : List Item) : Features :=
  match itemValue items 5 with
  | some v => featuresOf v
  | none => (old.map Station.features).getD {}

/-- A side item carries a code that names no side. -/
def badSide (items : List Item) : Bool := (itemValue items 3).any fun v => (sideOf v).isNone

/-- An item carries a value that the WRITE is refused for whatever else it carries: a count other than 0, an address of 0 or
255, a kind, side or horn level that names no value (R184, R185, log 26). -/
def badStationItems (items : List Item) : Bool :=
  countsNonzero items [7, 8] || ((itemValue items 1).any fun v => v == 0 || 255 ≤ v)
    || ((itemValue items 2).any fun v => (stationKindOf v).isNone) || badSide items
    || (itemValue items 6).any fun v => (priorityOf v).isNone

/-- The station entry a WRITE leaves; none where a required field is missing or a code names nothing (R185). -/
def stationWritten (old : Option Station) (items : List Item) : Option Station :=
  (stationAddress old items).bind fun address =>
  (stationKind old items).bind fun kind =>
  (optItem items 6 ((old.map Station.hornLevel).getD Priority.low) priorityOf).bind fun horn =>
  let side := stationSide old items
  if badSide items || (kind != StationKind.self && side.isNone) then none
  else if kind = StationKind.console then some
    { address := address, kind := kind, side := side, classes := offeredClasses old items
      features := offeredFeatures old items, hornLevel := horn }
  else some
    { address := address, kind := kind, side := if kind = StationKind.self then none else side
      classes := { view := true }, features := {}, hornLevel := .low }

/-- How many entries of a kind the table holds. -/
def stationsOf (t : List (Nat × Station)) (k : StationKind) : Nat := (t.filter fun e => e.2.kind == k).length

/-- Some address stands in two entries. -/
def sharedAddress (t : List (Nat × Station)) : Bool :=
  t.any fun a => t.any fun b => a.1 != b.1 && a.2.address == b.2.address

/-- A WRITE that would leave the table so is refused (R184). -/
def stationsRefused (old new : List (Nat × Station)) : Bool :=
  stationsOf new .self > 1 || stationsOf new .timeMaster > 1
    || (stationsOf old .self > 0 && stationsOf new .self == 0) || sharedAddress new
    || stationsOf new .controller > Config.controllerCap || stationsOf new .console > Config.consoleCap
    || stationsOf new .engineering > Config.engineeringCap

/-- A controller's entry leaves the table: it becomes STALE, or abandons a resynchronisation, its hold is cleared, and
its records are removed (R41, R146). -/
def dropController (address : Nat) (s : State) : State :=
  match lookup s.controllers address with
  | none => s
  | some c =>
    let s1 := if c.live then becomeStale address s else s.modController address Controller.abandon
    let s2 := if c.faultHeld then clearFaultLatch address s1 else s1
    { s2 with controllers := removeAt s2.controllers address }

/-- A console's entry leaves the table, detached first (R89). -/
def dropConsole (address : Nat) (s : State) : State :=
  let t := detachConsole .removed address s
  { t with consoles := removeAt t.consoles address }

/-- The address an entry configures as a controller, or as a console. -/
def controllerAddress (st : Option Station) : Option Nat :=
  match st with
  | some x => if x.isController then some x.address else none
  | none => none

def consoleAddress (st : Option Station) : Option Nat :=
  match st with
  | some x => if x.isConsole then some x.address else none
  | none => none

/-- The entry at an index becomes `new` (absent: it is removed), with its effects on supervision, the gate, the console
table and the horns (R41, R89, R146). -/
def changeStation (i : Nat) (new : Option Station) (s : State) : State :=
  let old := lookup s.tables.stations i
  let s1 := match controllerAddress old with
    | some a => if controllerAddress new = some a then s else dropController a s
    | none => s
  let s2 := match consoleAddress old with
    | some a => if consoleAddress new = some a then s1 else dropConsole a s1
    | none => s1
  let table := match new with
    | some st => insertAt s2.tables.stations i st
    | none => removeAt s2.tables.stations i
  let s3 : State := { s2 with tables := { s2.tables with stations := table } }
  let s4 := match controllerAddress new with
    | some a =>
      if controllerAddress old = some a then s3 else { s3 with controllers := insertAt s3.controllers a {} }
    | none => s3
  match consoleAddress new with
  | some a =>
    if consoleAddress old = some a then
      if old.map (·.hornLevel) = new.map (·.hornLevel) then s4 else s4.hornStep2 a
    else { s4 with consoles := insertAt s4.consoles a {} }
  | none => s4

/-- The counts of the entry's controller that a WRITE of 0 clears (R146). -/
def clearGateCounts (new : Station) (items : List Item) (s : State) : State :=
  if new.isController then
    s.modController new.address fun c =>
      { c with slow := if (itemValue items 7).isSome then 0 else c.slow
               late := if (itemValue items 8).isSome then 0 else c.late }
  else s

/-- A WRITE to STATIONS at an index within the table (R184, R185): values that refuse it are looked at first, also beside
the removal item (log 26). The removal item at a free index is answered OK and changes nothing (log 62). -/
def writeStation (req : Request) (i : Nat) (_force : Bool) (items : List Item) (s : State) : Answer :=
  let table := s.tables.stations
  if badStationItems items then refuse req s .badRequest
  else if (itemBytes items 0).isSome then
    if stationsRefused table (removeAt table i) then refuse req s .badRequest
    else written req false (changeStation i none s)
  else
    match stationWritten (lookup table i) items with
    | none => refuse req s .badRequest
    | some new =>
      if stationsRefused table (insertAt table i new) then refuse req s .badRequest
      else written req false (clearGateCounts new items (changeStation i (some new) s))

/-! ## AREAS (R49, R110, R137, R23) -/

/-- `v` held between two bounds. -/
def between (lo hi v : Nat) : Nat := max lo (min hi v)

/-- The area parameters a WRITE carries over the stored ones, before clamping. -/
def areaWritten (old : AreaParams) (items : List Item) : AreaParams :=
  { fOn := (itemValue items 1).getD old.fOn, fOff := (itemValue items 2).getD old.fOff
    grace := (itemValue items 3).getD old.grace, attend := (itemValue items 4).getD old.attend
    handover := (itemValue items 5).getD old.handover }

/-- The clamping of R49, R110 and R137. -/
def clampArea (p : AreaParams) : AreaParams :=
  let on := max 64 p.fOn
  { fOn := on, fOff := min p.fOff (on - 1), grace := between 10 300 p.grace, attend := between 10 600 p.attend
    handover := between 60 3600 p.handover }

/-- The counts of the area that a WRITE of 0 clears (R23). -/
def clearAreaCounts (a : Nat) (items : List Item) (s : State) : State :=
  s.modArea a fun r =>
    { r with evictions := if (itemValue items 6).isSome then 0 else r.evictions
             losts := if (itemValue items 7).isSome then 0 else r.losts }

/-- A WRITE to AREAS at an index within the table. The stored parameters already lie within their ranges, so clamping
the whole entry clamps only values the record carries, and F_off beneath a lowered F_on (R49). -/
def writeArea (req : Request) (a : Nat) (_force : Bool) (items : List Item) (s : State) : Answer :=
  if countsNonzero items [6, 7] then refuse req s .badRequest
  else
    let p := areaWritten (s.areaParams a) items
    let t : State := { s with tables :=
      { s.tables with areaParams := writeAt {} s.tables.areaParams a (clampArea p) } }
    written req (clampArea p != p) (clearAreaCounts a items t)

/-! ## PARAMS (R159, R170, R184) -/

/-- The part parameters a WRITE carries over the stored ones, before clamping. The notice enables are written as given
(R184), with the bits that stand for no flag (log 80). -/
def paramsWritten (old : Params) (items : List Item) : Params :=
  { rateLimit := (itemValue items 1).getD old.rateLimit, confirmLimit := (itemValue items 2).getD old.confirmLimit
    enables := match itemValue items 3 with | some v => BitVec.ofNat 16 v | none => old.enables }

def clampParams (p : Params) : Params :=
  { p with rateLimit := between 5 50 p.rateLimit, confirmLimit := between 1 10 p.confirmLimit }

/-- The port counts that a WRITE of 0 clears (R170). -/
def clearPortCounts (items : List Item) (s : State) : State :=
  let clear (m d : Nat) (q : Port) : Port :=
    { q with malformed := if (itemValue items m).isSome then 0 else q.malformed
             dropped := if (itemValue items d).isSome then 0 else q.dropped }
  { s with plant := clear 4 5 s.plant, console := clear 6 7 s.console }

/-- A WRITE to PARAMS at index 0. -/
def writePart (req : Request) (_i : Nat) (_force : Bool) (items : List Item) (s : State) : Answer :=
  if countsNonzero items [4, 5, 6, 7] then refuse req s .badRequest
  else
    let p := paramsWritten s.tables.params items
    let t : State := { s with tables := { s.tables with params := clampParams p } }
    written req (clampParams p != p) (clearPortCounts items t)

end Sys2Proof.Machine
end

