-- ==== Sys2Proof/Machine/Requests.lean ====
section
/-! DEFINITION. Management requests: their authorisation, the operation of each record but the WRITEs, the taking of the
open request's records in order, and the end of a request with its MREP (R183, R184, R186, R188 to R191). -/

namespace Sys2Proof.Machine

/-! ## Operations -/

/-- The table a SELECT names (R181), the outstanding commands under a code that no rule gives (R147, log 30). -/
def tableOf : Nat → Option TableId
  | 1 => some .points | 2 => some .roster | 3 => some .stations | 4 => some .areas | 5 => some .params
  | 6 => some .slots | 7 => some .shelf | 8 => some .journal | 9 => some .status
  | n => if n = Config.commandTableCode then some .commands else none

/-- How many indices a table has (R147, R184). -/
def tableSize : TableId → Nat
  | .points => Config.pointCount | .roster => Config.rosterCap | .stations => Config.stationCap | .areas => 16
  | .params => 1 | .slots => Config.slotCount | .shelf => Config.shelfCap | .journal => Config.journalCap
  | .status => 1 | .commands => Config.commandCap

/-- What one record does: the open request, the record's data and the state give an answer. -/
abbrev Operation := Request → List Byte → State → Answer

/-- A record answered OK with the state and data given. -/
def done (req : Request) (s : State) (data : List Byte := []) : Answer :=
  { req := req, s := s, code := Result.ok.byte, data := data }

/-- The operation is taken only where the record has its length; otherwise BAD_REQUEST, and nothing changes (R181). That
the length is judged before every other refusal of the record is the model's choice (log 78): a READ of a wrong length is
BAD_REQUEST also before any SELECT (R184), a STORE or CLEAR_RETAINED also during a STORE or while a handover record is open
(R188, R190). -/
def ofLength (n : Nat) (op : Operation) : Operation := fun req data s =>
  if data.length = n then op req data s else refuse req s .badRequest

/-- SELECT (R184). One of a wrong length changes nothing (R181), so that the selection before it stands (log 79). -/
def selectOp : Operation := ofLength 1 fun req data s =>
  match tableOf (natOf data) with
  | some t => done { req with selected := some t } s
  | none => refuse { req with selected := none } s .badRequest

/-- The items of the entry a READ returns (R147, R184). -/
def readItems (t : TableId) (i : Nat) (s : State) : List Byte :=
  match t with
  | .points => readPoint s i | .roster => readOperator s i | .stations => readStation s i | .areas => readArea s i
  | .params => readParams s | .slots => readSlot s i | .shelf => readShelf s i | .journal => readJournal s i
  | .status => readStatusItems s | .commands => readCommand s i

/-- READ (R184); a READ of STATUS then sets each latched value to its condition (R191). Its length is judged before its
selection (log 78). -/
def readOp : Operation := ofLength 2 fun req data s =>
  match req.selected with
  | none => refuse req s .noSelect
  | some t =>
    if natOf data ≥ tableSize t then refuse req s .badIndex
    else done req (if t = .status then s.relatch else s) (readItems t (natOf data) s)

/-- A WRITE to the selected table `t`: its length, BUSY during a STORE, its index and its items, then the table's own
rule (R181, R184, R188), in an order that is the model's choice (log 24). Bit 0 of the options byte is FORCE; that
its bits 1 to 7 are ignored, and FORCE in a WRITE to another table than POINTS, is the model's choice (log 77). -/
def writeOp (t : TableId) (body : Request → Nat → Bool → List Item → State → Answer) : Operation := fun req data s =>
  if data.length < 3 then refuse req s .badRequest
  else if s.store.isSome then refuse req s .busy
  else if field2 data 0 ≥ tableSize t then refuse req s .badIndex
  else match checkedItems t (data.drop 3) with
    | none => refuse req s .badRequest
    | some items => body req (field2 data 0) ((field1 data 2).testBit 0) items s

/-- QUERY_SLOT (R186). -/
def queryOp : Operation := ofLength 2 fun req data s =>
  if natOf data ≥ Config.slotCount then refuse req s .badIndex else done req s (readSlot s (natOf data))

/-- DISCARD_SLOT (R22, R186). Its answer carries the point under code 0x40 and the lost occurrence under 0x41 (log 61). -/
def discardOp : Operation := ofLength 2 fun req data s =>
  if natOf data ≥ Config.slotCount then refuse req s .badIndex
  else match lookup s.slots (natOf data) with
    | none => refuse req s .notPending
    | some sl => done req (handOn s (discardPoint sl.point { s := s }) [])
        (item 0x40 (b2 sl.point) ++ item 0x41 (b2 sl.occ))

/-- Step 1 of R116: the area's open record ends with AUTHORITY_LOST. -/
def abortOpen (a : Nat) (s : State) : State :=
  match (s.area a).openRecord.bind s.record with
  | some h => s.abort h .authorityLost
  | none => s

/-- FORCE_AREA (R115, R116). One that finds holder and authority as asked queues its NOTE AUTHORITY too (log 69). -/
def forceOp : Operation := ofLength 3 fun req data s =>
  let a := field1 data 0
  let op := field2 data 1
  if a > 15 then refuse req s .badIndex
  else if op = 0 then done req ((abortOpen a s).forceUnheld a)
  else match s.session op with
    | none => refuse req s .notLoggedIn
    | some (address, seat) =>
      if s.consoleAtLeast address .full then
        done req ((abortOpen a s).takeArea a ⟨op, address, seat⟩ .force)
      else refuse req s .classTooLow

/-- CLEAR_HOLD from management (R158, R186). -/
def clearHoldOp : Operation := ofLength 1 fun req data s =>
  match lookup s.controllers (natOf data) with
  | none => refuse req s .badIndex
  | some c => done req (if c.faultHeld then clearFaultLatch (natOf data) s else s)

/-- STORE (R188). Its result stands at the place of the record and is set at the completion event. Its length is judged
before BUSY (log 78). -/
def storeOp : Operation := ofLength 0 fun req _ s =>
  if s.store.isSome then refuse req s .busy
  else
    let t : State :=
      { s with store := some { copy := s.tables, age := 0 }, memory := { s.memory with valid := false } }
    done { req with storeAt := some req.results.length } (t.latch .configInvalid)

/-- RESET (R189): the first RESET decides when the reset takes place, a later one joins it. -/
def resetOp : Operation := ofLength 0 fun req _ s =>
  done { req with stopped := true, resets := true, decides := !s.resetWaits } { s with resetWaits := true }

/-- CLEAR_RETAINED (R190). Its length is judged first (log 78), and BUSY_AREA before BUSY (log 34). -/
def clearRetainedOp : Operation := ofLength 0 fun req _ s =>
  if !s.records.isEmpty then refuse req s .busyArea
  else if s.store.isSome then refuse req s .busy
  else done req { s with retained := { s.retained with journal := [], journalSeq := 0, count := 0, lost := false } }

/-- READ_STATUS (R191). -/
def readStatusOp : Operation := ofLength 0 fun req _ s => done req s.relatch (readStatusItems s)

/-- A record no command of the table owns: a WRITE without a selection or to a table that refuses it, a CREDENTIAL that
is not the first record, a code that names no record (R181, R184). Such a WRITE is BUSY during a STORE before it is
NO_SELECT, and to SLOTS, SHELF, JOURNAL or STATUS it is BAD_REQUEST at every index (log 24); to the outstanding commands it
is BAD_REQUEST too (log 30). -/
def otherOp (code : Byte) : Operation := fun req data s =>
  if code = 0x80#8 ∧ data.length = 6 then
    let d := s.drawFree
    { req := req, s := d.2, code := Config.laterCredentialResult d.1 }
  else if code = 0x83#8 ∧ data.length ≥ 3 then
    if s.store.isSome then refuse req s .busy
    else if req.selected.isNone then refuse req s .noSelect
    else refuse req s .badRequest
  else refuse req s .badRequest

/-! ## Taking the records in order -/

/-- The commands of the table that take a record of an MREQ; `other` is no command's. -/
inductive MgmtRow where
  | select | read | writePoints | writeRoster | writeStations | writeAreas | writeParams | query | discard | force
  | clearHold | store | reset | clearRetained | readStatus | other
  deriving DecidableEq, Repr

/-- The command that takes a record under a selection (R181, R184). -/
def rowOf (selected : Option TableId) (r : Rec) : MgmtRow :=
  match r.code.toNat with
  | 0x81 => .select | 0x82 => .read | 0x84 => .query | 0x85 => .discard | 0x86 => .force | 0x87 => .clearHold
  | 0x88 => .store | 0x89 => .reset | 0x8A => .clearRetained | 0x8B => .readStatus
  | 0x83 =>
    match selected with
    | some .points => .writePoints | some .roster => .writeRoster | some .stations => .writeStations
    | some .areas => .writeAreas | some .params => .writeParams | _ => .other
  | _ => .other

/-- The operation of a row. -/
def MgmtRow.op (code : Byte) : MgmtRow → Operation
  | .select => selectOp
  | .read => readOp
  | .writePoints => writeOp .points writePoint
  | .writeRoster => writeOp .roster writeOperator
  | .writeStations => writeOp .stations writeStation
  | .writeAreas => writeOp .areas writeArea
  | .writeParams => writeOp .params writePart
  | .query => queryOp
  | .discard => discardOp
  | .force => forceOp
  | .clearHold => clearHoldOp
  | .store => storeOp
  | .reset => resetOp
  | .clearRetained => clearRetainedOp
  | .readStatus => readStatusOp
  | .other => otherOp code

/-- The answer, or BUSY where the results would carry the MREP body past 1,200 bytes with one result for each of the
`left` records that follow (R183); BUSY then stands for the records that follow too. -/
def fitted (req : Request) (s : State) (left : Nat) (a : Answer) : Answer :=
  if bodyLength req.results + (3 + a.data.length) + 3 * left ≤ Config.bodyCap then a
  else refuse { req with stopped := true } s .busy

/-- The head record of the open request is taken by an operation, in the event of the whole request (R183, log 13); its
result joins the results. -/
def takeHead (op : Operation) (s : State) : State :=
  match s.request with
  | none => s
  | some r =>
    match r.todo with
    | [] => s
    | x :: rest =>
      let req := { r with todo := rest }
      let a := if r.stopped then refuse req s .busy else fitted req s rest.length (op req x.data s)
      { a.s with request := some { a.req with
          results := a.req.results ++ [⟨0x90#8, a.code :: a.data⟩], moved := a.s.movedAreas } }

/-- The MREP of a request joins the plant port's OWN queue; `decides` marks the one a reset follows (R174, R189). -/
def sendMrep (r : Request) (s : State) : State :=
  s.sendEntry .plant
    { telegram := generated s Kind.mrep r.source.toNat 0 r.seq r.operator r.results, resets := r.decides }

/-- The MREP is held: it waits for its own STORE, or its RESET waits for a STORE (R188, R189). -/
def holdsMrep (r : Request) (s : State) : Bool := s.store.isSome && (r.storeAt.isSome || r.resets)

/-- The open request ends: its MREP is sent or held. -/
def closeRequest (s : State) : State :=
  match s.request with
  | none => s
  | some r =>
    let t : State := { s with request := none }
    if holdsMrep r t then { t with heldMreps := t.heldMreps ++ [r] } else sendMrep r t

/-- The head record is one that no command of the table takes, or one after the records that are taken. -/
def headUnowned (s : State) : Bool :=
  match s.request with
  | some r =>
    match r.todo with
    | x :: _ => r.stopped || rowOf r.selected x == .other
    | [] => false
  | none => false

/-- The code of the head record. -/
def headCode (s : State) : Byte :=
  match s.request with
  | some r => ((r.todo.head?).map (·.code)).getD 0
  | none => 0

/-- The next records that no command takes are answered. -/
def answerUnowned : Nat → State → State
  | 0, s => s
  | n + 1, s => if headUnowned s then answerUnowned n (takeHead (otherOp (headCode s)) s) else s

/-- After a record: unowned records are answered, and a request with none left ends. -/
def advance (s : State) : State :=
  let t := answerUnowned 16 s
  match t.request with
  | some r => if r.todo.isEmpty then closeRequest t else t
  | none => t

/-- A command of the table takes the head record of the open request, where that record is its own. -/
def takeRecord (row : MgmtRow) (op : Operation) (s : State) : State :=
  match s.request with
  | some r =>
    match r.todo with
    | x :: _ => if !r.stopped && rowOf r.selected x == row then advance (takeHead op s) else s
    | [] => s
  | none => s

/-- The row of the head record, and its operation. -/
def headOp (s : State) : Operation :=
  match s.request with
  | some r =>
    match r.todo with
    | x :: _ => (rowOf r.selected x).op x.code
    | [] => otherOp 0
  | none => otherOp 0

/-- All remaining records of the open request are taken, and it ends (R183: a request is one event). -/
def finishOpen : Nat → State → State
  | 0, s => closeRequest s
  | n + 1, s =>
    match s.request with
    | some r => if r.todo.isEmpty then closeRequest s else finishOpen n (takeHead (headOp s) s)
    | none => s

/-! ## Authorisation (R183) -/

/-- The credential of an MREQ's first record authorises it; a first CREDENTIAL record of another length does not (log 71). -/
def authorised (s : State) (recs : List Rec) : Bool :=
  match recs with
  | r :: _ =>
    r.code == 0x80#8 && r.data.length == 6
      && ((s.tables.roster.any fun e =>
            e.2.id == field2 r.data 0 && e.2.enabled && e.2.role == .engineer && e.2.code == field4 r.data 2)
          || (field2 r.data 0 == 0 && !(s.tables.roster.any fun e => e.2.enabled && e.2.role == .engineer)))
  | [] => false

/-- An MREQ taken by the management responder: refused whole, or opened for its further records. -/
def openRequest (f : Frame) (s : State) : State :=
  if authorised s f.recs then
    let r : Request :=
      { source := f.source, seq := f.seq, operator := f.operator, todo := f.recs.drop 1
        results := [⟨0x90#8, [Result.ok.byte]⟩] }
    advance { s with request := some r }
  else
    sendMrep
      { source := f.source, seq := f.seq, operator := f.operator
        results := f.recs.map fun _ => ⟨0x90#8, [Result.deniedCredential.byte]⟩ } s

/-- The source of an MREQ addressed to the part is one the responder takes it from (R172, R183). -/
def mreqTaken (s : State) (source : Nat) : Bool :=
  s.engineering.contains source || !(s.tables.stations.any fun e => e.2.kind == .engineering)

/-! ## The end of a STORE (R188) -/

/-- The result of a request's STORE takes the outcome of the writing. -/
def Request.stored (r : Request) (code : Byte) : Request :=
  match r.storeAt with
  | some i => { r with results := r.results.set i ⟨0x90#8, [code]⟩ }
  | none => r

/-- The completion event of the configuration memory: without a STORE in progress it has no effect. -/
def completeStore (good : Bool) (s : State) : State :=
  match s.store with
  | none => s
  | some j =>
    let code := (if good then Result.ok else Result.nvStoreFail).byte
    let t : State :=
      if good then { s with store := none, memory := { copy := j.copy, valid := true } }
      else ({ s with store := none } : State).latch .nvStoreFail
    (s.heldMreps.map (·.stored code)).foldl (fun acc r => sendMrep r acc) { t with heldMreps := [] }

end Sys2Proof.Machine
end

