-- ==== Sys2Proof/Machine/Startup.lean ====
section
/-! DEFINITION. Start-up: power-on, the reset line, and the reset a management RESET makes (R6, R24, R30, R42, R81, R107,
R145, R160, R162, R175, R187, R189, R192, R193). -/

namespace Sys2Proof.Machine

/-- The retained store at power-on: kept, or cleared with its lost mark set (R192). -/
def checkedRetained (holds : Bool) (r : Retained) : Retained :=
  if holds then r else { lost := true, cause := r.cause }

/-- The tables after start-up: the configuration memory's copy, or the defaults (R187). -/
def loadedTables (m : ConfigMemory) : Tables := if m.valid then m.copy else {}

/-- An area formed from its retained entry (R107). -/
def formedArea (t : Tables) (r : Retained) (a : Nat) : Area :=
  let e := (lookup r.areas a).getD {}
  match e.holder with
  | some h =>
    { authority := .grace, holder := some h, graceLeft := ((lookup t.areaParams a).getD {}).grace, relief := e.relief }
  | none => { relief := e.relief }

/-- The sixteen areas formed from their retained entries. -/
def formedAreas (t : Tables) (r : Retained) : List (Nat × Area) :=
  allAreas.foldl (fun acc a => writeAt {} acc a (formedArea t r a)) []

/-- A record in the state after reset for each station that `q` picks (R30, R81, R146). -/
def freshRecords {α : Type} (q : Station → Bool) (new : α) (t : List (Nat × Station)) : List (Nat × α) :=
  (t.filter fun e => q e.2).foldl (fun acc e => insertAt acc e.2.address new) []

/-- A RESET_ABORT entry for one summary (R144, R145). -/
def abortSummary (s : State) (x : Summary) : State :=
  s.writeJournal
    { kind := .resetAbort, areas := x.areas, number := some x.number, recordKind := some x.kind
      outgoing := some x.outOp, incoming := some x.inOp, reached := some x.state }

/-- The state of every block after the configuration and the retained store stand, steps 4 to 6 of R193. The queue of
waiting commands and the counter of free values are the model's and stay. -/
def blocksReset (r : Retained) (plantUp consoleUp : Bool) (s : State) : State :=
  let t := loadedTables s.memory
  { State.reset with
    tables := t, memory := s.memory, retained := r, areas := formedAreas t r
    consoles := freshRecords Station.isConsole {} t.stations
    controllers := freshRecords Station.isController {} t.stations
    plant := { up := plantUp }, console := { up := consoleUp }, latched := 0
    freeCount := s.freeCount, pending := s.pending }

/-- RESET_ABORT entries, and the summaries cleared (R145). -/
def abortSummaries (s : State) : State :=
  let t := s.retained.summaries.foldl abortSummary s
  { t with retained := { t.retained with summaries := [] } }

/-- Step 7 of R193: CONFIG_INVALID and RETAINED_LOST latch where their conditions are yes. A STAT dropped here latches
EGRESS_DROP, as any other (log 74). -/
def latchAtStart (s : State) : State :=
  let t := if s.condition .configInvalid then s.latch .configInvalid else s
  if t.condition .retainedLost then t.latch .retainedLost else t

/-- One start-up event (R193). -/
def startUp (cause : ResetCause) (kept : Retained) (plantUp consoleUp : Bool) (s : State) : State :=
  latchAtStart (abortSummaries
    (blocksReset { kept with cause := cause, count := countUp kept.count } plantUp consoleUp s))

/-- A system reset: the retained store is kept, and each port takes the state of its physical link, which its link state
has followed (R169, R189). -/
def systemReset (cause : ResetCause) (s : State) : State := startUp cause s.retained s.plant.up s.console.up s

/-- Some telegram of the plant port is the MREP whose transmission a reset follows. -/
def decidingWaits (q : Port) : Bool :=
  (q.own.any fun e => e.resets) || match q.sending with | some (.own e) => e.resets | _ => false

/-- The moment of the waiting reset has come: no STORE is in progress and its MREP has been sent or lost (R189). A STORE
that a later telegram started while the reset waited is waited for as well, to its completion event; the reset then stands
before the transmission of the STORE's own MREP, which it discards (log 63). -/
def resetDue (s : State) : Bool :=
  s.resetWaits && s.store.isNone && s.request.isNone && !(s.heldMreps.any (·.decides)) && !decidingWaits s.plant

/-- A reset that is due takes place. -/
def takeDueReset (s : State) : State := if resetDue s then systemReset .systemCommand s else s

/-- What stands before every command but the records of an MREQ: the open request is finished, and a reset that is due
takes place. -/
def settle (s : State) : State := takeDueReset (finishOpen 16 s)

/-- A command that is an event of its own begins. -/
def enter (s : State) : State := (settle s).beginEvent

/-- POWER_ON (R193): everything but the configuration memory and the retained store is lost before it, and a STORE in
progress leaves the valid mark invalid (R188). A management reset that is due has taken place before it (R189). -/
def execPowerOn (retainedHolds plantUp consoleUp : Bool) (s : State) : Out :=
  let t := settle s
  .next (startUp .powerOn (checkedRetained retainedHolds t.retained) plantUp consoleUp t)

/-- RESET_LINE: at once, also where a management reset waits or a STORE is in progress; one that is due has taken place
before it (R189). -/
def execResetLine (s : State) : Out := .next (systemReset .systemLine (settle s))

/-- SYSTEM_COMMAND_RESET (R189): the waiting reset takes place where its moment has come; else nothing does. -/
def execSystemCommandReset (s : State) : Out := .next (settle s)

end Sys2Proof.Machine
end

