-- ==== Sys2Proof/Machine/Line.lean ====
section
/-! DEFINITION. The time base's tick work, the arrival of telegrams and their classification, the link events, and the
commands that no block beyond the ports takes (R165 to R167, R169 to R175, R31, R32, R82, R86). -/

namespace Sys2Proof.Machine

/-! ## Tick work of the time base (R165 to R168) -/

/-- The candidate: the tick value plus one second (R165). -/
def TimeBase.candidate (b : TimeBase) : Nat × Nat := addMs (b.sec, b.ms) 1000

def TimeBase.setValue (b : TimeBase) (v : Nat × Nat) : TimeBase := { b with sec := v.1, ms := v.2 }

/-- The first time value exceeds the second by more than 2 seconds. -/
def stepped (v w : Nat × Nat) : Bool := inMs v > inMs w + 2000

/-- The later of the tick value and the high mark, in the order of R9 (R165). -/
def TimeBase.holdValue (b : TimeBase) : Nat × Nat :=
  let v : Stamp := ⟨b.state == .unset, b.sec, b.ms⟩
  if v.older b.high then (b.high.sec, b.high.ms) else (b.sec, b.ms)

/-- The adjustment against the candidate (R165); the second part says that TIME_STEP latches. -/
def TimeBase.adjust (b : TimeBase) (mark : Nat × Nat) : TimeBase × Bool :=
  if earlier mark b.candidate then
    ({ b.setValue b.holdValue with held := true, projection := some mark }, false)
  else (b.setValue mark, stepped mark b.candidate)

/-- A tick in LOCKED that counts no third silence: the adjustment, the candidate, or the continuation of a hold (R165,
R166). -/
def TimeBase.lockedTick (b : TimeBase) : TimeBase × Bool :=
  if b.held then
    let p := match b.pending, b.projection with
      | some m, _ => m
      | none, some j => addMs j 1000
      | none, none => (b.sec, b.ms)
    if earlier p (b.sec, b.ms) then ({ b with projection := some p }, false)
    else ({ b.setValue p with held := false, projection := none }, stepped p b.candidate)
  else
    match b.pending with
    | some m => b.adjust m
    | none => (b.setValue b.candidate, false)

/-- The silence count of a tick in LOCKED (R167). -/
def TimeBase.nextSilence (b : TimeBase) : Nat := if b.pending.isSome then 0 else b.silence + 1

/-- The time base's tick work (R165 to R167). In UNSET the milliseconds are 0 also where the seconds stand at their
largest value (log 57). -/
def TimeBase.tick (b : TimeBase) : TimeBase × Bool :=
  let r : TimeBase × Bool := match b.state with
    | .unset =>
      match b.pending with
      | some m => ({ b.setValue m with state := .locked, held := false }, false)
      | none => ({ b.setValue b.candidate with ms := 0 }, false)
    | .locked =>
      if b.nextSilence ≥ Config.timeMasterLimit then
        ({ b.setValue b.candidate with state := .holdover, held := false, projection := none, silence := 0 }, false)
      else
        let x := b.lockedTick
        ({ x.1 with silence := b.nextSilence }, x.2)
    | .holdover =>
      match b.pending with
      | some m => ({ b with state := .locked } : TimeBase).adjust m
      | none => (b.setValue b.candidate, false)
  ({ r.1 with pending := none, relock := false }, r.2)

/-- The tick work of the time base with its flags and its notice (R165, R167, R168). -/
def timeWork (s : State) : State :=
  let r := s.time.tick
  let t : State := { s with time := r.1 }
  let u := if r.2 then t.latch .timeStep else t
  if r.1.state = s.time.state then u
  else
    let v := if r.1.state = .holdover then u.latch .timeHoldover else u
    v.notifyAll (.timeState r.1.state)

/-! ## Arrival -/

/-- A telegram arrives `ms` milliseconds after the last tick: the time base's own work for that tick is taken before it,
as an event of its own, and the elapsed count stands at `ms`, never less than before (R161, R191). -/
def arriveAt (ms : Nat) (s : State) : State :=
  let t := if s.owed.contains .time then
      (timeWork { s with owed := s.owed.filter fun x => !(x == .time) }).beginEvent
    else s
  { t with time := { t.time with elapsed := max t.time.elapsed (min ms 999) } }

/-- A telegram arrives at port `p`. A DOWN port receives none; one that fails the line checks is counted; any other
first counts for the liveness of its source, and `k` takes it, told whether it started a resynchronisation
(R31, R34, R82, R169, R170). -/
def receive (p : PortId) (ms : Nat) (f : Frame) (k : Bool → State → State) (s : State) : State :=
  if (s.port p).up then
    let t := arriveAt ms (enter s)
    if lineOk t.ownAddress f then
      let r := liveness p f.source.toNat t
      k r.2 r.1.beginEvent
    else t.countMalformed p
  else s

/-- The destination is the part's own address. -/
def toOwn (s : State) (f : Frame) : Bool := f.dest.toNat == s.ownAddress

/-- The destination is the part's own address or 255. -/
def toOwnOrAll (s : State) (f : Frame) : Bool := toOwn s f || f.dest == 0xFF#8

/-- The classification of R172 for kinds with no command of their own: forwarded or discarded. -/
def classify (p : PortId) (kind : Byte) (f : Frame) (s : State) : State :=
  if !namedKind kind then s.forwardFrom p ⟨kind, f⟩
  else if kind == Kind.mreq then
    if p = .plant ∧ toOwn s f ∧ mreqTaken s f.source.toNat then s else s.forwardFrom p ⟨kind, f⟩
  else if p = .console ∧ consoleKind kind ∧ (lookup s.consoles f.source.toNat).isNone then
    s.forwardFrom p ⟨kind, f⟩
  else s

/-- A console kind arrives at the console port: from a configured console it is taken when its destination is own and
discarded otherwise; from any other source it is forwarded (R172). -/
def fromConsole (ms : Nat) (kind : Byte) (f : Frame) (take : State → State) (s : State) : State :=
  receive .console ms f (fun _ t =>
    if (lookup t.consoles f.source.toNat).isSome then (if toOwn t f then take t else t)
    else t.forwardFrom .console ⟨kind, f⟩) s

/-! ## Commands of the ports -/

/-- Every LIVE controller becomes STALE in one event, its commands with it, in ascending address (log 44), and every
resynchronisation is abandoned (R32, R40, R156). -/
def plantLoss (s : State) : State :=
  let live := keys (s.controllers.filter fun e => e.2.live)
  let t := handOn s (live.foldl (fun e a => staleEv a e) { s := s }) []
  { t with controllers := t.controllers.map fun e => (e.1, if e.2.phase = .idle then e.2 else e.2.abandon) }

/-- Every ATTACHED console detaches, all in one event (R86), one after another in ascending address (log 54). -/
def consoleLoss (s : State) : State := s.attachedConsoles.foldl (fun acc a => detachConsole .detach a acc) s

/-- LINK_DOWN (R169): the port's own changes, EGRESS_DROP where OWN lost a telegram, then the loss behind the port. -/
def execLinkDown (ms : Nat) (p : PortId) (s : State) : Out :=
  .next (if (s.port p).up then
    let t := arriveAt ms (enter s)
    let u := t.modPort p Port.goDown
    let v := if (t.port p).ownLost > 0 then u.latch .egressDrop else u
    match p with
    | .plant => plantLoss v
    | .console => consoleLoss v
  else s)

/-- LINK_UP (R169): the port receives and sends again, with both queues empty. -/
def execLinkUp (p : PortId) (s : State) : Out := .next ((enter s).modPort p fun q => { q with up := true })

/-- MALFORMED_TELEGRAM (R170): the line checks are applied to the payload; one that fails them is counted, one that
passes is no malformed telegram and is none of this command's. -/
def execMalformedTelegram (ms : Nat) (p : PortId) (payload : List Byte) (s : State) : Out :=
  .next (if (s.port p).up then
    let t := arriveAt ms (enter s)
    if (parseTelegram t.ownAddress payload).isNone then t.countMalformed p else t
  else s)

/-- PASS_THROUGH (R173). -/
def execPassThrough (ms : Nat) (p : PortId) (kind : Byte) (f : Frame) (s : State) : Out :=
  .next (receive p ms f (fun _ t => classify p kind f t) s)

/-- DISCARDED_TELEGRAM (R172). -/
def execDiscardedTelegram (ms : Nat) (p : PortId) (kind : Byte) (f : Frame) (s : State) : Out :=
  .next (receive p ms f (fun _ t => classify p kind f t) s)

/-- LIVE (R172): liveness alone. -/
def execLive (ms : Nat) (p : PortId) (f : Frame) (s : State) : Out := .next (receive p ms f (fun _ t => t) s)

/-! ## Time marks (R164) -/

/-- The time a TMARK carries in its first record; none where the record is missing, of the wrong length, or carries
milliseconds above 999. -/
def markTime (recs : List Rec) : Option (Nat × Nat) :=
  match recs with
  | r :: _ =>
    if r.code = 0x02#8 ∧ r.data.length = 6 ∧ field2 r.data 4 ≤ 999 then some (field4 r.data 0, field2 r.data 4)
    else none
  | [] => none

/-- The time base takes a mark (R164). -/
def takeMark (m : Nat × Nat) (s : State) : State :=
  let b := s.time
  { s with time :=
    { b with pending := some (addMs m (1000 - b.elapsed)), silence := 0
             relock := if b.state = .locked then b.relock else true } }

/-- TMARK (R164). -/
def execTmark (ms : Nat) (f : Frame) (s : State) : Out :=
  .next (receive .plant ms f (fun _ t =>
    if t.timeMaster = some f.source.toNat ∧ toOwnOrAll t f then
      match markTime f.recs with
      | some m => takeMark m t
      | none => t
    else t) s)

/-! ## Controllers' telegrams (R25, R36, R152) -/

/-- PREP (R25). -/
def execPrep (ms : Nat) (f : Frame) (s : State) : Out :=
  .next (receive .plant ms f (fun _ t =>
    if (lookup t.controllers f.source.toNat).isSome ∧ toOwnOrAll t f then applyPrep f.source.toNat f.recs t else t) s)

/-- The PSNAP is not discarded whole (R36). -/
def snapAccepted (c : Controller) (f : Frame) : Bool :=
  !c.live && c.phase != .idle && f.seq.toNat == c.snapNumber

/-- PSNAP (R36): an accepted one restarts the wait, and its records are taken in order. -/
def execPsnap (ms : Nat) (f : Frame) (s : State) : Out :=
  .next (receive .plant ms f (fun started t =>
    match lookup t.controllers f.source.toNat with
    | some c =>
      if toOwnOrAll t f && !started && snapAccepted c f then
        applyPsnap f.source.toNat f.recs
          (t.modController f.source.toNat fun k => { k with wait := Config.snapshotWait })
      else t
    | none => t) s)

/-- The confirmation a CCONF carries in its first record: tag, result and detail (R152, R180). -/
def confirmation (recs : List Rec) : Option (Nat × Result × List Byte) :=
  match recs with
  | r :: _ =>
    if r.code = 0x28#8 ∧ 3 ≤ r.data.length ∧ r.data.length ≤ 19 then
      match field1 r.data 2 with
      | 0x1C => some (field2 r.data 0, .accepted, r.data.drop 3)
      | 0x1D => some (field2 r.data 0, .rejected, r.data.drop 3)
      | 0x1E => some (field2 r.data 0, .fault, r.data.drop 3)
      | _ => none
    else none
  | [] => none

/-- A confirmation from a controller (R152 to R154). -/
def takeConfirmation (address tag : Nat) (r : Result) (detail : List Byte) (s : State) : State :=
  match s.commands.find? fun c => c.tag == tag && c.controller == address with
  | some c =>
    let t := endCommand r detail s c
    if r = .fault then setFaultLatch address t else t
  | none => s.modController address fun k => { k with late := countUp k.late }

/-- CCONF (R152). -/
def execCconf (ms : Nat) (f : Frame) (s : State) : Out :=
  .next (receive .plant ms f (fun _ t =>
    if (lookup t.controllers f.source.toNat).isSome ∧ toOwnOrAll t f then
      match confirmation f.recs with
      | some (tag, r, detail) => takeConfirmation f.source.toNat tag r detail t
      | none => t
    else t) s)

end Sys2Proof.Machine
end

