-- ==== Sys2Proof/Machine/Service.lean ====
section
/-! DEFINITION. The console port's service: standing-list pages, transfers, the notices that leave their queues in turn,
and the end of a transmission (R71 to R76, R102, R175). -/

namespace Sys2Proof.Machine

/-! ## Pages (R72, R73, R179) -/

/-- The state code of a standing-list entry; 4 is AWAITING_SLOT (R179). -/
def Standing.stateCode : Standing → Nat
  | .slot sl => sl.state.code
  | .queued _ => 4

/-- The flags of a page entry: the overlays, all no for AWAITING_SLOT, and UNSYNC of the onset time (R179). -/
def Standing.flags : Standing → Nat
  | .slot sl => flagByte sl.shelved + 2 * flagByte sl.chatter + 4 * flagByte sl.suppressed + 8 * flagByte sl.stale
      + 16 * flagByte sl.onset.unsync
  | .queued q => 16 * flagByte q.onset.unsync

/-- The acknowledging operator shown: 0 outside ACTIVE_ACKED (R179). -/
def Standing.ackOperator : Standing → Nat
  | .slot sl => if sl.state = .activeAcked then sl.ackOp.getD 0 else 0
  | .queued _ => 0

/-- One page entry record (R72, R179). -/
def pageEntry (s : State) (position : Nat) (e : Standing) : Rec :=
  ⟨0x61#8, b2 position ++ b2 e.point ++ b1 (s.pointDef e.point).priority.code ++ b1 e.stateCode ++ b2 e.occ
    ++ b1 e.flags ++ b4 e.onset.sec ++ b2 e.onset.ms ++ b2 e.ackOperator⟩

/-- Up to 16 entry records from a position on. -/
def pageEntries (s : State) (area start : Nat) : List Rec :=
  (((standingList s area).drop start).take 16).mapIdx fun i e => pageEntry s (start + i) e

/-- The page head record (R179): `marks` is 1 for END, 2 for CHANGED. -/
def pageHead (s : State) (area page marks : Nat) : Rec :=
  ⟨0x60#8, b1 area ++ b1 page ++ b2 (s.area area).generation ++ b2 (standingList s area).length ++ b1 marks⟩

/-- A PAGED telegram to a console (R174). -/
def pagedTelegram (s : State) (console seat : Nat) (seq : Half) (op : Nat) (recs : List Rec) : Telegram :=
  generated s Kind.paged console seat seq (BitVec.ofNat 16 op) recs

/-- The next PAGED of a transfer, as it is formed when it joins OWN, and the transfer after it (R75). The one marked END and
CHANGED carries the transfer's next page number (log 49). -/
def nextPaged (s : State) (console : Nat) (t : Transfer) : Telegram × Option Transfer :=
  let tel (marks : Nat) (entries : List Rec) : Telegram :=
    pagedTelegram s console t.seat t.seq t.operator (pageHead s t.area t.page marks :: entries)
  if (s.area t.area).generation ≠ t.generation then (tel 3 [], none)
  else if (standingList s t.area).length ≤ t.position + 16 then (tel 1 (pageEntries s t.area t.position), none)
  else (tel 0 (pageEntries s t.area t.position),
    some { t with position := t.position + 16, page := t.page + 1 })

/-- A running transfer places its next PAGED (R75). -/
def placePaged (address : Nat) (t : Transfer) (s : State) : State :=
  let x := nextPaged s address t
  (s.modConsole address fun c => { c with transfer := x.2 }).send .console x.1

/-! ## Notices (R102) -/

/-- The head notice of a console's queue leaves it as one NOTE. -/
def placeNote (address : Nat) (s : State) : State :=
  match lookup s.consoles address with
  | some c =>
    match c.notices with
    | n :: rest =>
      let seq := wrapUp c.noticeSeq
      (s.modConsole address fun c => { c with notices := rest, noticeSeq := seq }).send .console
        (generated s Kind.note address 0 (BitVec.ofNat 16 seq) 0 [n.record])
    | [] => s
  | none => s

/-- The console waits for room in OWN (R102). -/
def Console.waits (c : Console) : Bool := c.transfer.isSome || !c.notices.isEmpty

/-- The waiting console next in turn: the next in ascending address after the one served last (R102). -/
def nextWaiting (s : State) : Option Nat :=
  let w := keys (s.consoles.filter fun e => e.2.waits)
  match w.find? fun a => s.turn < a with
  | some a => some a
  | none => w.head?

/-- A waiting console places one telegram: its next PAGED if it has a transfer, its head notice otherwise (R102). -/
def serve (address : Nat) (s : State) : State :=
  let t : State := { s with turn := address }
  match (lookup s.consoles address).bind (·.transfer) with
  | some x => placePaged address x t
  | none => placeNote address t

/-- The waiting console next in turn places one telegram where OWN has room and `q` holds for what it places, a PAGED or
a notice. -/
def serveNext (q : Bool → Bool) (s : State) : State :=
  match nextWaiting s with
  | some a =>
    if s.console.ownRoom && q ((lookup s.consoles a).bind (·.transfer)).isSome then serve a s else s
  | none => s

/-- NOTICE_DEQUEUE (R102): the console next in turn waits with a notice. -/
def execNoticeDequeue (s : State) : Out := .next (serveNext (fun paged => !paged) (enter s))

/-- TRANSFER_PAGED (R75, R102): the console next in turn waits with a PAGED of its transfer. -/
def execTransferPaged (s : State) : Out := .next (serveNext (fun paged => paged) (enter s))

/-- TRANSMIT_END (R175): the transmission ends and the next is chosen. Room freed in a full OWN queue of the console port
goes at once to the next waiting console in turn. -/
def execTransmitEnd (p : PortId) (s : State) : Out :=
  .next (
    let t := enter s
    if (t.port p).sending.isSome then
      let u := t.modPort p Port.endTransmission
      if p = .console ∧ Config.ownCap ≤ t.console.own.length then serveNext (fun _ => true) u else u
    else t)

end Sys2Proof.Machine
end

