-- ==== Sys2Proof/Machine/Sessions.lean ====
section
/-! DEFINITION. HELLO, LOGIN and LOGOUT (R83, R84, R88, R94 to R98, R111, R141). -/

namespace Sys2Proof.Machine

/-! ## HELLO -/

/-- The classes and features of a HELLO's one capability record (R83, R180). -/
def capability (recs : List Rec) : Option (Classes × Features) :=
  match recs with
  | [r] =>
    if r.code = 0x30#8 ∧ r.data.length = 2 then
      some (classesOf (field1 r.data 0), featuresOf (field1 r.data 1))
    else none
  | _ => none

/-- The resolution record of a RESP (R180). -/
def resolutionRec (cls : ConsoleClass) (ft : Features) : Rec := ⟨0x73#8, b1 cls.code ++ b1 ft.code⟩

/-- The console's attach with a resolution: nothing where it already holds it, else a detach first where it is ATTACHED
(R83, R88). -/
def attachWith (address : Nat) (c : Console) (cls : ConsoleClass) (ft : Features) (s : State) : State :=
  if c.cls = some cls ∧ c.features = ft then s
  else (detachConsole .rehello address s).modConsole address fun k => k.attach cls ft

/-- A HELLO taken (R83, R88). -/
def takeHello (f : Frame) (s : State) : State :=
  let address := f.source.toNat
  match lookup s.consoles address, s.stationAt address with
  | some c, some st =>
    match capability f.recs with
    | none => s.answer f 0 .badRequest []
    | some (classes, features) =>
      let x := resolveAttach st classes features
      (attachWith address c x.1 x.2.1 s).answer f 0 (if x.2.2 then .classMismatch else .ok)
        [resolutionRec x.1 x.2.1]
  | _, _ => s

/-- HELLO (R83). -/
def execHello (ms : Nat) (f : Frame) (s : State) : Out := .next (fromConsole ms Kind.hello f (takeHello f) s)

/-! ## LOGIN -/

/-- The operator ID and credential code of a LOGIN's one record (R94, R180). -/
def loginRecord (recs : List Rec) : Option (Nat × Nat) :=
  match recs with
  | [r] => if r.code = 0x31#8 ∧ r.data.length = 6 then some (field2 r.data 0, field4 r.data 2) else none
  | _ => none

/-- The roster holds the operator, enabled, with the credential code (R94 check 4). -/
def credentialHolds (s : State) (op code : Nat) : Bool :=
  s.tables.roster.any fun e => e.2.id == op && e.2.enabled && e.2.code == code

/-- A LOGIN refused at the credential check is counted at its console; the third starts the login hold (R95). -/
def Console.countFailure (c : Console) : Console :=
  if c.failed + 1 ≥ Config.loginFailureLimit then { c with failed := 0, loginHold := Config.loginHold }
  else { c with failed := c.failed + 1 }

/-- The outgoing console and seat of the operator's records that contain an area become a new seat (R97, R141). -/
def moveOutgoing (a op address seat : Nat) (s : State) : State :=
  { s with records := s.records.map fun h =>
      if h.outOp == op && h.areas.contains a then { h with outConsole := address, outSeat := seat } else h }

/-- An area is the operator's in GRACE or ORPHANED (R111). -/
def awaits (s : State) (op a : Nat) : Bool :=
  ((s.area a).authority == .grace || (s.area a).authority == .orphaned)
    && (s.area a).holder.any fun h => h.operator == op

/-- The areas that a LOGIN of the operator finds in GRACE or ORPHANED, ascending. -/
def awaiting (s : State) (op : Nat) : List Nat := allAreas.filter (awaits s op)

/-- The areas return to HELD at the new seat (R97 step 2, R111). -/
def rehome (op address seat : Nat) (areas : List Nat) (s : State) : State :=
  areas.foldl (fun acc a => moveOutgoing a op address seat (acc.holdArea a ⟨op, address, seat⟩)) s

/-- The login record of a RESP (R180). -/
def loginRec (o : Operator) (rehomed left : List Nat) : Rec :=
  ⟨0x74#8, b1 o.role.code ++ (allAreas.flatMap fun a => b1 (o.effective a).rank) ++ b2 (areaSet rehomed)
    ++ b2 (areaSet left)⟩

/-- The old session of an operator who logs in elsewhere ends, with its notice (R96). -/
def moveSession (op address seat : Nat) (s : State) : State :=
  match s.session op with
  | some (a, n) => (endSession a n .move s).notify a (.sessionMoved n op address seat)
  | none => s

/-- A LOGIN that passes R94 (R97). -/
def loginTaken (f : Frame) (o : Operator) (s : State) : State :=
  let address := f.source.toNat
  let seat := f.seat.toNat
  let s1 := (moveSession o.id address seat s).modConsole address fun c => c.setSeat seat (some o.id)
  let mine := awaiting s1 o.id
  let full := s1.consoleAtLeast address .full
  let s2 := if full then rehome o.id address seat mine s1 else s1
  (s2.hornStep2 address).answer f o.id (if !full && !mine.isEmpty then .classTooLow else .ok)
    [loginRec o (if full then mine else []) (if full then [] else mine)]

/-- The checks of R94, at a console that has passed checks 1 and 2 of R92. -/
def takeLogin (f : Frame) (c : Console) (s : State) : State :=
  let address := f.source.toNat
  let seated := c.seatOp f.seat.toNat
  match loginRecord f.recs with
  | none => s.answer f (seated.getD 0) .badRequest []
  | some (op, code) =>
    if seated.isSome then s.answer f (seated.getD 0) .seatBusy []
    else if c.loginHold > 0 then s.answer f 0 .onHold []
    else if credentialHolds s op code then
      let t := s.modConsole address fun k => { k with failed := 0 }
      if (t.session op).isSome && t.holdsAny op then t.answer f 0 .inUseElsewhere []
      else match t.operatorEntry op with
        | some o => loginTaken f o t
        | none => t
    else (s.modConsole address Console.countFailure).answer f 0 .deniedCredential []

/-- LOGIN (R94 to R97), after the silent attach of R84. -/
def execLogin (ms : Nat) (f : Frame) (s : State) : Out :=
  .next (fromConsole ms Kind.login f
    (fun t => intakeSeat f noView (fun c u => takeLogin f c u) (silentAttach f.source.toNat t)) s)

/-! ## LOGOUT -/

/-- A LOGOUT taken (R98). One that carries records is taken as one that carries none (log 53). -/
def takeLogout (f : Frame) (q : Requester) (s : State) : State :=
  if s.holdsAny q.operator then s.answer f q.operator .holdingAreas []
  else (endSession q.console q.seat .logout s).answer f q.operator .ok []

/-- LOGOUT (R98): it does not attach a DETACHED console (R84). -/
def execLogout (ms : Nat) (f : Frame) (s : State) : Out :=
  .next (fromConsole ms Kind.logout f (fun t => intakeLogged f noView (takeLogout f) t) s)

end Sys2Proof.Machine
end

