-- ==== Sys2Proof/Machine/Acknowledge.lean ====
section
/-! DEFINITION. The operator requests of the acknowledge unit and the authority table: ACK, GROUP_ACK, SHELVE, UNSHELVE,
SILENCE and CLAIM (R56 to R62, R66 to R68, R80, R113, R114, R177). -/

namespace Sys2Proof.Machine

/-- The data of an OREQ's one record, where its code is the request's and it has its length (R177). -/
def oreqData (code : Byte) (n : Nat) (f : Frame) : Option (List Byte) :=
  match f.recs with
  | [r] => if r.code = code ∧ r.data.length = n then some r.data else none
  | _ => none

/-- The answer to a request, at its seat, with the seat's operator. -/
def reply (f : Frame) (q : Requester) (r : Result) (data : List Rec) (s : State) : State :=
  s.answer f q.operator r data

def Requester.actor (q : Requester) : Actor := ⟨q.operator, q.console, q.seat⟩
def Requester.holder (q : Requester) : Holder := ⟨q.operator, q.console, q.seat⟩

/-- The point is known: its ID is in range and it is defined. -/
def known (s : State) (p : Nat) : Bool := p < Config.pointCount && (s.pointDef p).defined

/-- Occurrence and state code of the point's slot, in the form of R58. -/
def slotView (s : State) (p : Nat) : Nat × Nat :=
  match s.slotOf p with
  | some (_, sl) => (sl.occ, sl.state.code)
  | none => (0, if s.queued p then 4 else 0)

/-- The state record of a RESP (R177). -/
def stateRec (s : State) (p : Nat) : Rec := ⟨0x71#8, b2 p ++ b2 (slotView s p).1 ++ b1 (slotView s p).2⟩

/-- The point that an ACK, SHELVE or UNSHELVE record names, where the telegram carries that one record (R177). -/
def oreqPoint (f : Frame) : Option Nat :=
  match f.recs with
  | [r] =>
    if ((r.code = 0x21#8 ∨ r.code = 0x23#8) ∧ r.data.length = 4) ∨ (r.code = 0x24#8 ∧ r.data.length = 2) then
      some (field2 r.data 0)
    else none
  | _ => none

/-- What an OREQ refused at intake carries: the state record of an ACK, SHELVE or UNSHELVE (R177, log 20). -/
def oreqView (f : Frame) : View := fun s => ((oreqPoint f).map (stateRec s)).toList

/-- An OREQ arrives: the classification, the silent attach and the four intake checks (R84, R92, R172); `k` takes it. -/
def oreq (ms : Nat) (f : Frame) (k : Requester → State → State) (s : State) : State :=
  fromConsole ms Kind.oreq f (fun t => intakeCounted f (oreqView f) k (silentAttach f.source.toNat t)) s

/-! ## ACK -/

/-- The authority condition of an URGENT acknowledgement (R57). -/
def urgentAllowed (s : State) (op area : Nat) : Bool := s.holds op area || s.hasRole op .shiftLead

/-- The first of checks 2 to 5 of R56 that fails. -/
def ackRefusal (q : Requester) (p : Nat) (s : State) : Option Result :=
  let d := s.pointDef p
  if !s.consoleAtLeast q.console .ack then some .classTooLow
  else if !known s p then some .unknownPoint
  else if !s.hasRight q.operator d.area .ack then some .deniedRights
  else if d.priority == .urgent && !urgentAllowed s q.operator d.area then some .deniedAuthority
  else none

/-- A matched acknowledgement, as one event (R59): the alarm table's change, its handing on, the AREP ACK. -/
def acknowledge (q : Requester) (i : Nat) (sl : Slot) (s : State) : State :=
  let area := (s.pointDef sl.point).area
  (handOn s (applyAck i sl q.operator { s := s }) []).report
    { action := .ack, point := sl.point, area := area, occ := some sl.occ
      stateAfter := some (if sl.state = .activeUnack then AlarmState.activeAcked.code else 0), actor := some q.actor }

/-- The matching of R58, and the acknowledgement where it matches. -/
def matchAck (q : Requester) (p occ : Nat) (s : State) : Result × State :=
  match s.slotOf p with
  | none => (.notPending, s)
  | some (i, sl) =>
    if sl.state = .activeAcked then (.notPending, s)
    else if sl.occ ≠ occ then (.staleAck, s)
    else (.ok, acknowledge q i sl s)

/-- An ACK that has passed the intake checks (R56, R58). -/
def takeAck (f : Frame) (q : Requester) (s : State) : State :=
  match oreqData 0x21#8 4 f with
  | none => reply f q .badRequest [] s
  | some d =>
    let p := field2 d 0
    match ackRefusal q p s with
    | some r => reply f q r [stateRec s p] s
    | none =>
      let x := matchAck q p (field2 d 2) s
      reply f q x.1 [stateRec x.2 p] x.2

/-- ACK (R56, R58). -/
def execAck (ms : Nat) (f : Frame) (s : State) : Out := .next (oreq ms f (takeAck f) s)

/-! ## GROUP_ACK -/

/-- The telegram carries 1 to 16 records, each a GROUP_ACK record of the ACK length (R61 check 1). -/
def groupBody (recs : List Rec) : Bool :=
  !recs.isEmpty && recs.length ≤ 16 && recs.all fun r => r.code == 0x22#8 && r.data.length == 4

/-- The first of checks 1 to 4 of R62 that a pair fails. -/
def pairRefusal (q : Requester) (p : Nat) (s : State) : Option Result :=
  let d := s.pointDef p
  if !known s p then some .unknownPoint
  else if d.priority == .urgent then some .groupRefused
  else if !s.hasRight q.operator d.area .ack then some .deniedRights
  else if s.hasRole q.operator .shiftLead
      || ((d.priority == .medium || d.priority == .low) && (s.area d.area).flood) then none
  else some .groupRefused

/-- One pair of a GROUP_ACK, as an event of its own (R62). -/
def takePair (q : Requester) (p occ : Nat) (s : State) : Result × State :=
  match pairRefusal q p s with
  | some r => (r, s)
  | none => matchAck q p occ s.beginEvent

/-- The pair result record (R177). -/
def pairRec (s : State) (p occ : Nat) (r : Result) : Rec :=
  ⟨0x72#8, b2 p ++ b2 occ ++ b1 r.code ++ b2 (slotView s p).1 ++ b1 (slotView s p).2⟩

/-- The pairs in order, each against the state the earlier ones left. -/
def takePairs (q : Requester) : List Rec → State → List Rec × State
  | [], s => ([], s)
  | r :: rest, s =>
    let p := field2 r.data 0
    let occ := field2 r.data 2
    let x := takePair q p occ s
    let y := takePairs q rest x.2
    (pairRec x.2 p occ x.1 :: y.1, y.2)

/-- A GROUP_ACK that has passed the intake checks (R61). -/
def takeGroupAck (f : Frame) (q : Requester) (s : State) : State :=
  if !groupBody f.recs then reply f q .badRequest [] s
  else if s.consoleAtLeast q.console .ack && (s.consoleFeatures q.console).groupAck then
    let x := takePairs q f.recs s
    reply f q .ok x.1 x.2
  else reply f q .classTooLow [] s

/-- GROUP_ACK (R61, R62). -/
def execGroupAck (ms : Nat) (f : Frame) (s : State) : Out := .next (oreq ms f (takeGroupAck f) s)

/-! ## SHELVE and UNSHELVE -/

/-- The first of checks 2 to 5 of R66 that fails, which UNSHELVE shares (R68). -/
def shelfRefusal (q : Requester) (p : Nat) (s : State) : Option Result :=
  let d := s.pointDef p
  if !s.consoleAtLeast q.console .full then some .classTooLow
  else if !known s p then some .unknownPoint
  else if !s.hasRight q.operator d.area .shelve then some .deniedRights
  else if !s.holds q.operator d.area then some .deniedAuthority
  else none

/-- Checks 6 and 7 of R66. -/
def shelveRefusal (p : Nat) (s : State) : Option Result :=
  if (s.pointDef p).shelveLimit = 0 then some .shelveNotAllowed
  else if s.shelved p || s.shelf.length < Config.shelfCap then none
  else some .shelfFull

/-- The entry a SHELVE places (R67). -/
def newShelfEntry (q : Requester) (p granted : Nat) (s : State) : ShelfEntry :=
  { point := p, operator := q.operator, start := s.stamp, ticks := 60 * granted
    relief := !(s.area (s.pointDef p).area).relief.isEmpty }

/-- The AREP of a SHELVE (R64). -/
def shelveReport (q : Requester) (p granted : Nat) (s : State) : Report :=
  let sl := (s.slotOf p).map Prod.snd
  { action := .shelve, point := p, area := (s.pointDef p).area, occ := sl.map (·.occ)
    stateAfter := sl.map (·.state.code), actor := some q.actor, minutes := granted }

/-- The overlay of a SHELVE on the point's slot (R67 step 2). -/
def markShelved (p : Nat) (e : Ev) : Ev :=
  match e.s.slotOf p with
  | some (i, sl) => if sl.shelved then e else moveSlot i sl { sl with shelved := true } .overlay (some .shelf) e
  | none => e

/-- A SHELVE that passes R66, new or restarted, as one event (R67). Tick work that an earlier entry of the point still
owed is dropped: the entry is first decremented together with the others, at the next tick (R69). -/
def shelvePoint (q : Requester) (p granted : Nat) (s : State) : State :=
  let placed : State :=
    { s.marked.dropOwed (.shelf p) with shelf := placeShelf (newShelfEntry q p granted s) (removeShelf p s.shelf) }
  let e := markShelved p { s := placed }
  handOn s { e with s := e.s.report (shelveReport q p granted e.s) } [.shelved p]

/-- A SHELVE that has passed the intake checks (R66). -/
def takeShelve (f : Frame) (q : Requester) (s : State) : State :=
  match oreqData 0x23#8 4 f with
  | none => reply f q .badRequest [] s
  | some d =>
    let p := field2 d 0
    let minutes := field2 d 2
    if minutes = 0 then reply f q .badRequest [stateRec s p] s
    else match shelfRefusal q p s with
      | some r => reply f q r [stateRec s p] s
      | none =>
        match shelveRefusal p s with
        | some r => reply f q r [stateRec s p] s
        | none =>
          let limit := (s.pointDef p).shelveLimit
          let granted := min minutes limit
          let t := shelvePoint q p granted s
          reply f q (if minutes > limit then .okClamped else .ok) [stateRec t p, ⟨0x77#8, b2 granted⟩] t

/-- SHELVE (R66, R67). -/
def execShelve (ms : Nat) (f : Frame) (s : State) : Out := .next (oreq ms f (takeShelve f) s)

/-- An UNSHELVE that has passed the intake checks (R68). -/
def takeUnshelve (f : Frame) (q : Requester) (s : State) : State :=
  match oreqData 0x24#8 2 f with
  | none => reply f q .badRequest [] s
  | some d =>
    let p := field2 d 0
    match shelfRefusal q p s with
    | some r => reply f q r [stateRec s p] s
    | none =>
      if s.shelved p then
        let t := unshelveEvent p .unshelve (some q.actor) s
        reply f q .ok [stateRec t p] t
      else reply f q .notPending [stateRec s p] s

/-- UNSHELVE (R68). -/
def execUnshelve (ms : Nat) (f : Frame) (s : State) : Out := .next (oreq ms f (takeUnshelve f) s)

/-! ## SILENCE -/

/-- The horn of a console. -/
def State.hornOf (s : State) (address : Nat) : Horn :=
  match lookup s.consoles address with
  | some c => c.horn
  | none => .quiet

/-- A SILENCE that has passed the intake checks (R80). A refused one carries no horn record (log 58). -/
def takeSilence (f : Frame) (q : Requester) (s : State) : State :=
  if !f.recs.isEmpty then reply f q .badRequest [] s
  else if !s.consoleAtLeast q.console .ack then reply f q .classTooLow [] s
  else
    let t := if s.hornOf q.console = .sounding then s.setHorn q.console .silenced else s
    reply f q .ok [⟨0x75#8, b1 (t.hornOf q.console).code⟩] t

/-- SILENCE (R80). -/
def execSilence (ms : Nat) (f : Frame) (s : State) : Out := .next (oreq ms f (takeSilence f) s)

/-! ## CLAIM -/

/-- The authority condition of a claim (R113). -/
def claimAllowed (s : State) (op area : Nat) : Bool :=
  match (s.area area).authority with
  | .unheld | .orphaned => true
  | .grace => s.hasRole op .shiftLead
  | .held => s.holds op area

/-- The first of checks 2 to 5 of R113 that fails. -/
def claimRefusal (q : Requester) (area : Nat) (s : State) : Option Result :=
  if !s.consoleAtLeast q.console .full then some .classTooLow
  else if !s.hasRight q.operator area .operate then some .deniedRights
  else if (s.area area).openRecord.isSome then some .busyArea
  else if !claimAllowed s q.operator area then some .deniedAuthority
  else none

/-- The claim record of a RESP: the previous authority and holder (R180). -/
def claimRec (s : State) (area : Nat) : Rec :=
  ⟨0x76#8, b1 area ++ b1 (s.area area).authority.code ++ b2 ((s.holderOp area).getD 0)⟩

/-- A CLAIM that has passed the intake checks (R113, R114). -/
def takeClaim (f : Frame) (q : Requester) (s : State) : State :=
  match oreqData 0x26#8 1 f with
  | none => reply f q .badRequest [] s
  | some d =>
    let area := natOf d
    if area > 15 then reply f q .badRequest [] s
    else match claimRefusal q area s with
      | some r => reply f q r [] s
      | none =>
        let t := if (s.area area).authority = .held then s else s.takeArea area q.holder .claim
        reply f q .ok [claimRec s area] t

/-- CLAIM (R113, R114). -/
def execClaim (ms : Nat) (f : Frame) (s : State) : Out := .next (oreq ms f (takeClaim f) s)

end Sys2Proof.Machine
end

