-- ==== Sys2Proof/Machine/Pages.lean ====
section
/-! DEFINITION. PAGE requests: single pages and the start of a full-list transfer (R73 to R75). -/

namespace Sys2Proof.Machine

/-- The area and page value of a PAGE's one record; none where R73 check 1 fails. 0xFF is ALL (R180). -/
def pageRecord (recs : List Rec) : Option (Nat × Nat) :=
  match recs with
  | [r] =>
    if r.code = 0x34#8 ∧ r.data.length = 2 ∧ field1 r.data 0 ≤ 15 ∧ (field1 r.data 1 ≤ 63 ∨ field1 r.data 1 = 0xFF) then
      some (field1 r.data 0, field1 r.data 1)
    else none
  | _ => none

/-- A PAGE that has passed the intake checks (R73); `k` takes one that passes its own. -/
def pageChecked (f : Frame) (k : Nat → Nat → Requester → State → State) (q : Requester) (s : State) : State :=
  match pageRecord f.recs with
  | none => reply f q .badRequest [] s
  | some (area, page) =>
    if s.hasRight q.operator area .view then k area page q s else reply f q .deniedRights [] s

/-- A single page (R73). Its marks byte is 0, also where the page reaches the end of the list (log 67). -/
def singlePage (f : Frame) (area page : Nat) (q : Requester) (s : State) : State :=
  s.send .console (pagedTelegram s q.console q.seat f.seq q.operator
    (pageHead s area page 0 :: pageEntries s area (16 * page)))

/-- A transfer starts, and places its first PAGED at once where OWN has room (R74, R75); that PAGED does not move the turn
of R102 (log 48). -/
def startTransfer (f : Frame) (area : Nat) (q : Requester) (s : State) : State :=
  if ((lookup s.consoles q.console).bind (·.transfer)).isSome then reply f q .busy [] s
  else
    let t : Transfer :=
      { area := area, seat := q.seat, operator := q.operator, seq := f.seq, generation := (s.area area).generation
        position := 0, page := 0 }
    let u := s.modConsole q.console fun c => { c with transfer := some t }
    if u.console.ownRoom then placePaged q.console t u else u

/-- A PAGE by its page value. -/
def takePage (f : Frame) (area page : Nat) (q : Requester) (s : State) : State :=
  if page = 0xFF then startTransfer f area q s else singlePage f area page q s

/-- A PAGE arrives: it attaches silently and is not counted (R84, R92, R93). -/
def pageArrives (ms : Nat) (f : Frame) (s : State) : State :=
  fromConsole ms Kind.page f
    (fun t => intakeLogged f noView (pageChecked f (takePage f)) (silentAttach f.source.toNat t)) s

/-- PAGE with a page number (R73). -/
def execPage (ms : Nat) (f : Frame) (s : State) : Out := .next (pageArrives ms f s)

/-- PAGE with the value ALL (R74). -/
def execPageAll (ms : Nat) (f : Frame) (s : State) : Out := .next (pageArrives ms f s)

end Sys2Proof.Machine
end

