-- ==== Sys2Proof/Machine/Handovers.lean ====
section
/-! DEFINITION. The handover steps: OFFER, ATTEND, REVIEWED, ACCEPT, DECLINE and WITHDRAW (R121 to R124, R133 to R136,
R145, R178, R180). -/

namespace Sys2Proof.Machine

/-- The console's class is FULL and its features include HANDOVER_DIALOG (R122 check 1, R123 check 5). -/
def dialogConsole (s : State) (address : Nat) : Bool :=
  s.consoleAtLeast address .full && (s.consoleFeatures address).handoverDialog

/-- A HOVR that has passed the intake checks: a record code that names another step is refused at the hand-off, then
checks 1 and 2 of R122; `k` takes the step's data. -/
def hovrStep (code : Byte) (lenOk : List Byte → Bool) (f : Frame) (k : List Byte → Requester → State → State)
    (q : Requester) (s : State) : State :=
  match f.recs with
  | [r] =>
    if r.code ≠ code then reply f q .badRequest [] s
    else if !dialogConsole s q.console then reply f q .classTooLow [] s
    else if !lenOk r.data then reply f q .badRequest [] s
    else k r.data q s
  | _ => if dialogConsole s q.console then reply f q .badRequest [] s else reply f q .classTooLow [] s

/-- A HOVR arrives (R84, R92, R172). -/
def hovr (ms : Nat) (code : Byte) (lenOk : List Byte → Bool) (f : Frame)
    (k : List Byte → Requester → State → State) (s : State) : State :=
  fromConsole ms Kind.hovr f
    (fun t => intakeCounted f noView (hovrStep code lenOk f k) (silentAttach f.source.toNat t)) s

/-- The handover record of a RESP (R180). -/
def handoverRec (h : Handover) (st : HandoverState) : Rec :=
  ⟨0x78#8, b2 h.number ++ b1 h.kind.code ++ b1 st.code ++ b2 (areaSet h.areas) ++ b2 h.list.length ++ b2 h.reviewed
    ++ b2 h.resolved ++ b2 h.unreviewed ++ b1 (flagByte h.incomplete)⟩

/-- The count record of a RESP (R180). -/
def countRec (n : Nat) : Rec := ⟨0x7C#8, b2 n⟩

/-- The retained summary of a record takes its present state (R145). -/
def State.writeSummary (s : State) (h : Handover) : State :=
  let x : Summary := ⟨h.number, h.kind, h.outOp, h.inOp, h.areas, h.state⟩
  let old := s.retained.summaries
  { s with retained := { s.retained with
      summaries := if old.any fun y => y.number == h.number then
          old.map fun y => if y.number == h.number then x else y
        else old ++ [x] } }

/-! ## OFFER -/

/-- What an OFFER record asks (R178). -/
structure Offer where
  kind  : Option HandoverKind
  inOp  : Nat
  areas : List Nat
  deriving DecidableEq, Repr

def offerOf (d : List Byte) : Offer := ⟨handoverKindOf (field1 d 0), field2 d 1, areasOf (field2 d 3)⟩

/-- The incoming operator's seat, where it is on a FULL console with HANDOVER_DIALOG (R123 check 5). -/
def incomingSeat (s : State) (op : Nat) : Option (Nat × Nat) :=
  (s.session op).filter fun x => dialogConsole s x.1

/-- Checks 1 to 7 of R123: the first that fails, in order. -/
def offerRefusal (s : State) (op : Nat) (o : Offer) : Option Result :=
  if o.kind.isNone || o.areas.isEmpty then some .badRequest
  else if o.inOp = op then some .badRequest
  else if !o.areas.all (fun a => s.holds op a) then some .deniedAuthority
  else if o.areas.any (fun a => (s.area a).openRecord.isSome) then some .busyArea
  else if (incomingSeat s o.inOp).isNone then some .incomingAbsent
  else if !o.areas.all (fun a => s.hasRight o.inOp a .operate) then some .deniedRights
  else if Config.recordCap ≤ s.records.length then some .tableFull
  else none

/-- Checks 8 to 11 of R123, by the kind. -/
def kindRefusal (s : State) (k : HandoverKind) (inOp : Nat) (areas : List Nat) : Option Result :=
  match k with
  | .shift => if areas.any fun a => (s.area a).flood then some .floodHold else none
  | .relief =>
    if areas.any fun a => Config.reliefCap ≤ (s.area a).relief.length then some .stackFull
    else if areas.any fun a => (s.area a).relief.any fun c => c.operator == inOp then some .onStack
    else none
  | .giveBack =>
    if areas.all fun a => ((s.area a).relief.head?).any fun c => c.operator == inOp then none else some .notOnStack

/-- The smallest of the limits `g` gives for the areas (R124 step 2). -/
def smallest (g : Nat → Nat) (areas : List Nat) : Nat :=
  match areas with
  | [] => 0
  | a :: rest => rest.foldl (fun m b => min m (g b)) (g a)

/-- The number of the next record (R121). -/
def nextNumber (s : State) : Nat :=
  nextFree (s.records.map (·.number)) (Config.recordCap + 1) (wrapUpToOne s.retained.counter)

/-- The record placed by ascending handover number, the order in which events reach the records (R127, R141). -/
def insertRecord (h : Handover) : List Handover → List Handover
  | [] => [h]
  | x :: t => if h.number < x.number then h :: x :: t else x :: insertRecord h t

/-- The record an accepted OFFER opens (R124 steps 1 and 2). -/
def openedRecord (s : State) (q : Requester) (k : HandoverKind) (inOp : Nat) (seat : Nat × Nat) (areas : List Nat)
    (list : List ReviewEntry) : Handover :=
  { number := nextNumber s, kind := k, outOp := q.operator, outConsole := q.console, outSeat := q.seat
    inOp := inOp, inConsole := seat.1, inSeat := seat.2, areas := areas, state := .offered
    attendLeft := smallest (fun a => (s.areaParams a).attend) areas
    left := smallest (fun a => (s.areaParams a).handover) areas, list := list, incomplete := false }

/-- An accepted OFFER (R124). -/
def openRecord (h : Handover) (s : State) : State :=
  let s1 : State := { s with
    records := insertRecord h s.records, retained := { s.retained with counter := h.number } }
  let s2 := h.areas.foldl (fun acc a => acc.modArea a fun r => { r with openRecord := some h.number }) s1
  (s2.writeSummary h).noteHandover h.inConsole h .offered none

/-- An OFFER that has passed checks 1 and 2 of R122 (R123, R124). -/
def takeOffer (f : Frame) (d : List Byte) (q : Requester) (s : State) : State :=
  let o := offerOf d
  match offerRefusal s q.operator o, o.kind, incomingSeat s o.inOp with
  | some r, _, _ => reply f q r [] s
  | none, some k, some seat =>
    match kindRefusal s k o.inOp o.areas with
    | some r => reply f q r [] s
    | none =>
      let list := buildReview s k o.areas
      if Config.reviewCap < list.length then reply f q .tooManyStanding [countRec list.length] s
      else
        let h := openedRecord s q k o.inOp seat o.areas list
        reply f q .ok [handoverRec h .offered] (openRecord h s)
  | none, _, _ => s

/-- OFFER (R123, R124). -/
def execOffer (ms : Nat) (f : Frame) (s : State) : Out :=
  .next (hovr ms 0x41#8 (fun d => d.length == 5) f (takeOffer f) s)

/-! ## The other steps -/

/-- Checks 3 to 5 of R122 for a step of the incoming or the outgoing party, taken in REVIEW only or in both states; `k`
takes the record. -/
def partyStep (f : Frame) (incoming reviewOnly : Bool) (k : Handover → List Byte → Requester → State → State)
    (d : List Byte) (q : Requester) (s : State) : State :=
  match s.record (field2 d 0) with
  | none => reply f q .notPending [] s
  | some h =>
    if (if incoming then h.inOp else h.outOp) ≠ q.operator then reply f q .deniedAuthority [] s
    else if reviewOnly && h.state != .review then reply f q .badRequest [] s
    else k h d q s

/-- An ATTEND taken (R133). -/
def takeAttend (f : Frame) (h : Handover) (_d : List Byte) (q : Requester) (s : State) : State :=
  if h.state = .offered then
    let n := { h with state := .review, attendLeft := 0 }
    reply f q .ok [handoverRec n .review]
      (((s.setRecord n).writeSummary n).noteHandover h.outConsole n .review none)
  else reply f q .ok [handoverRec h h.state] s

/-- ATTEND (R133). -/
def execAttend (ms : Nat) (f : Frame) (s : State) : Out :=
  .next (hovr ms 0x42#8 (fun d => d.length == 2) f (partyStep f true false (takeAttend f)) s)

/-- The pairs of a REVIEWED: list position and occurrence (R178). -/
def reviewPairs : Nat → List Byte → List (Nat × Nat)
  | 0, _ => []
  | n + 1, d =>
    match d with
    | a :: b :: c :: rest => (a.toNat, natOf [b, c]) :: reviewPairs n rest
    | _ => []

/-- One pair against the list: its result, and the list after it (R134). -/
def reviewPair (pos occ : Nat) (l : List ReviewEntry) : Result × List ReviewEntry :=
  match l[pos]? with
  | none => (.badRequest, l)
  | some e =>
    if e.state = .resolved then (.resolved, l)
    else if e.occ ≠ occ then (.mismatch, l)
    else (.ok, l.set pos { e with state := .reviewed })

/-- The review pair record, with the entry's current occurrence (R180). -/
def reviewPairRec (pos : Nat) (r : Result) (l : List ReviewEntry) : Rec :=
  ⟨0x79#8, b1 pos ++ b1 r.code ++ b2 ((l[pos]?.map (·.occ)).getD 0)⟩

/-- The pairs in order, each against the list the earlier ones left. -/
def reviewAll : List (Nat × Nat) → List ReviewEntry → List Rec × List ReviewEntry
  | [], l => ([], l)
  | p :: rest, l =>
    let x := reviewPair p.1 p.2 l
    let y := reviewAll rest x.2
    (reviewPairRec p.1 x.1 x.2 :: y.1, y.2)

/-- The review entry records of a page (R134, R180). -/
def reviewPage (page : Nat) (l : List ReviewEntry) : List Rec :=
  ((l.drop (16 * page)).take 16).mapIdx fun i e =>
    ⟨0x7A#8, b1 (16 * page + i) ++ b2 e.point ++ b1 e.priority.code ++ b2 e.occ ++ b1 e.state.code⟩

/-- A REVIEWED of the right length: 3 and 3 for each of 0 to 32 pairs, with a page 0 to 15 (R134, R178). -/
def reviewedLength (d : List Byte) : Bool :=
  3 ≤ d.length && d.length % 3 == 0 && d.length ≤ 99 && field1 d 2 ≤ 15

/-- A REVIEWED taken (R134). -/
def takeReviewed (f : Frame) (h : Handover) (d : List Byte) (q : Requester) (s : State) : State :=
  let x := reviewAll (reviewPairs 32 (d.drop 3)) h.list
  let n := { h with list := x.2 }
  reply f q .ok (handoverRec n n.state :: x.1 ++ reviewPage (field1 d 2) x.2) (s.setRecord n)

/-- REVIEWED (R134). -/
def execReviewed (ms : Nat) (f : Frame) (s : State) : Out :=
  .next (hovr ms 0x43#8 reviewedLength f (partyStep f true true (takeReviewed f)) s)

/-- An ACCEPT taken (R135, R138). -/
def takeAccept (f : Frame) (h : Handover) (_d : List Byte) (q : Requester) (s : State) : State :=
  if h.unreviewed ≠ 0 then reply f q .reviewOpen [countRec h.unreviewed] s
  else if h.incomplete then reply f q .incomplete [] s
  else if !h.areas.all (fun a => s.hasRight q.operator a .operate) then reply f q .deniedRights [] s
  else reply f q .ok [handoverRec h .complete] (s.complete h)

/-- ACCEPT (R135). -/
def execAccept (ms : Nat) (f : Frame) (s : State) : Out :=
  .next (hovr ms 0x44#8 (fun d => d.length == 2) f (partyStep f true true (takeAccept f)) s)

/-- A DECLINE or WITHDRAW taken: the record ends with a reason (R136). -/
def endRecord (reason : AbortReason) (f : Frame) (h : Handover) (_d : List Byte) (q : Requester) (s : State) : State :=
  reply f q .ok [handoverRec h .aborted] (s.abort h reason)

/-- DECLINE (R136). -/
def execDecline (ms : Nat) (f : Frame) (s : State) : Out :=
  .next (hovr ms 0x45#8 (fun d => d.length == 2) f (partyStep f true false (endRecord .declined f)) s)

/-- WITHDRAW (R136). -/
def execWithdraw (ms : Nat) (f : Frame) (s : State) : Out :=
  .next (hovr ms 0x46#8 (fun d => d.length == 2) f (partyStep f false false (endRecord .withdrawn f)) s)

end Sys2Proof.Machine
end

