-- ==== Sys2Proof/Machine/Operate.lean ====
section
/-! DEFINITION. The console's requests to the command gate: OPCMD and CLEAR_HOLD (R148 to R150, R157). -/

namespace Sys2Proof.Machine

/-! ## OPCMD -/

/-- The point ID an OPCMD's target point record carries. -/
def targetPoint (recs : List Rec) : Option Nat :=
  match recs with
  | r :: _ => if r.code = 0x29#8 ∧ r.data.length = 2 then some (natOf r.data) else none
  | [] => none

/-- After the target point record stands nothing, or one body record of at most 48 bytes (R149 check 1, R180). -/
def bodyOk (recs : List Rec) : Bool :=
  match recs with
  | [_] => true
  | [_, b] => b.code == 0x2A#8 && b.data.length ≤ 48
  | _ => false

/-- The first of checks 2 to 8 of R149 that fails. -/
def opcmdRefusal (q : Requester) (p : Nat) (s : State) : Option Result :=
  let d := s.pointDef p
  if !s.consoleAtLeast q.console .full then some .classTooLow
  else if !known s p then some .unknownPoint
  else if !s.holds q.operator d.area then some .deniedAuthority
  else if !s.hasRight q.operator d.area .operate then some .deniedRights
  else if !s.controllerLive d.controller then some .controllerStale
  else if (lookup s.controllers d.controller).any (·.faultHeld) then some .controllerHeld
  else if Config.commandCap ≤ s.commands.length then some .tableFull
  else none

/-- An OPCMD that has passed the intake checks (R149, R150). -/
def takeOpcmd (f : Frame) (q : Requester) (s : State) : State :=
  match targetPoint f.recs with
  | none => reply f q .badRequest [] s
  | some p =>
    if !bodyOk f.recs then reply f q .badRequest [commandRec 0 p 0 []] s
    else match opcmdRefusal q p s with
      | some r => reply f q r [commandRec 0 p 0 []] s
      | none => forwardCommand q f p s

/-- What every refusal of an OPCMD carries: the command record, where its target record carries a point ID (R180). -/
def opcmdView (f : Frame) : View := fun _ => ((targetPoint f.recs).map fun p => commandRec 0 p 0 []).toList

/-- OPCMD (R148, R149). -/
def execOpcmd (ms : Nat) (f : Frame) (s : State) : Out :=
  .next (fromConsole ms Kind.opcmd f
    (fun t => intakeCounted f (opcmdView f) (takeOpcmd f) (silentAttach f.source.toNat t)) s)

/-! ## CLEAR_HOLD -/

/-- The operator has OPERATE in an area the controller serves: one with a defined point naming it (R157 check 4). -/
def servesOperable (s : State) (op address : Nat) : Bool :=
  s.tables.points.any fun e => e.2.defined && e.2.controller == address && s.hasRight op e.2.area .operate

/-- The first of checks 2 to 5 of R157 that fails. -/
def clearRefusal (q : Requester) (address : Nat) (s : State) : Option Result :=
  if !s.consoleAtLeast q.console .full then some .classTooLow
  else if !s.hasRole q.operator .shiftLead then some .deniedAuthority
  else if !servesOperable s q.operator address then some .deniedRights
  else if !(lookup s.controllers address).any (·.faultHeld) then some .notPending
  else none

/-- A CLEAR_HOLD that has passed the intake checks (R157, R158). -/
def takeClearHold (f : Frame) (q : Requester) (s : State) : State :=
  match oreqData 0x27#8 1 f with
  | none => reply f q .badRequest [] s
  | some d =>
    let address := natOf d
    if (lookup s.controllers address).isNone then reply f q .badRequest [] s
    else match clearRefusal q address s with
      | some r => reply f q r [] s
      | none => reply f q .ok [⟨Config.clearHoldRecordCode, b1 address⟩] (clearFaultLatch address s)

/-- CLEAR_HOLD (R157). -/
def execClearHold (ms : Nat) (f : Frame) (s : State) : Out := .next (oreq ms f (takeClearHold f) s)

end Sys2Proof.Machine
end

