-- ==== Sys2Proof/Machine/Tick.lean ====
section
/-! DEFINITION. The tick: the work each block does at it, the work that expires something and is taken by an event of
its own, and the commands for those events (R31, R35, R47, R48, R52, R69, R86, R93, R95, R109, R137, R155, R161, R167,
R174, R188). -/

namespace Sys2Proof.Machine

/-! ## Tick work, block by block -/

/-- The slot change of a chatter release: CHATTER is cleared from the point's slot, an OVERLAY change marked as a chatter
release (R52). -/
def clearChatter (p : Nat) (e : Ev) : Ev :=
  match e.s.slotOf p with
  | some (i, sl) =>
    if sl.chatter then (moveSlot i sl { sl with chatter := false } .overlay none e).markChatterRelease else e
  | none => e

/-- A chatter-held point is released (R52). -/
def releaseChatter (p : Nat) (s : State) : State :=
  let s1 := s.setDyn p { s.dynOf p with held := false }
  let e := clearChatter p { s := s1 }
  let r : Report :=
    { action := .chatterRelease, point := p, area := (s1.pointDef p).area, occ := (s1.slotOf p).map (·.2.occ) }
  handOn s { e with s := e.s.report r } []

/-- The chatter decay of a point and its release test (R52). -/
def chatterWork (p : Nat) (s : State) : State :=
  let y := s.dynOf p
  let t := s.setDyn p { y with score := y.score - 1 }
  if y.held && y.score - 1 ≤ (s.pointDef p).chatterOff then releaseChatter p t else t

/-- The decrement of a shelf entry and its expiry (R69). -/
def shelfWork (p : Nat) (s : State) : State :=
  match s.shelfEntry p with
  | none => s
  | some e =>
    if e.ticks ≤ 1 then unshelveEvent p .shelfExpired none s
    else { s with shelf := placeShelf { e with ticks := e.ticks - 1 } (removeShelf p s.shelf) }

/-- An area leaves FLOOD (R48). -/
def leaveFlood (a : Nat) (s : State) : State :=
  let s1 := s.modArea a fun r => { r with flood := false }
  let e := overlayEach (fun sl => (s.pointDef sl.point).area == a && sl.suppressed)
    (fun sl => { sl with suppressed := false }) { s := s1 }
  handOn s { e with s := e.s.notifyArea a (.flood a false) } []

/-- The decay of an area's load and the exit test (R47). -/
def loadWork (a : Nat) (s : State) : State :=
  let l := decayed (s.area a).load
  let t := s.modArea a fun r => { r with load := l }
  if (s.area a).flood && l < (s.areaParams a).fOff then leaveFlood a t else t

/-- The silence count of a LIVE controller (R31). -/
def controllerSilenceWork (address : Nat) (s : State) : State :=
  match lookup s.controllers address with
  | some c =>
    if !c.live then s
    else if Config.stationLiveLimit ≤ c.silence + 1 then becomeStale address s
    else s.modController address fun k => { k with silence := k.silence + 1 }
  | none => s

/-- The wait of a resynchronisation (R35). -/
def resyncWaitWork (address : Nat) (s : State) : State :=
  match lookup s.controllers address with
  | some c =>
    if c.phase = .idle then s
    else if c.wait ≤ 1 then resyncExpired address s
    else s.modController address fun k => { k with wait := k.wait - 1 }
  | none => s

/-- The silence count of an ATTACHED console (R86). -/
def consoleSilenceWork (address : Nat) (s : State) : State :=
  match lookup s.consoles address with
  | some c =>
    if !c.attached then s
    else if Config.stationLiveLimit ≤ c.silence + 1 then detachConsole .detach address s
    else s.modConsole address fun k => { k with silence := k.silence + 1 }
  | none => s

/-- The rate hold of a console (R93). -/
def rateHoldWork (address : Nat) (s : State) : State :=
  s.modConsole address fun k => { k with rateHold := k.rateHold - 1 }

/-- The login hold of a console (R95). -/
def loginHoldWork (address : Nat) (s : State) : State :=
  s.modConsole address fun k => { k with loginHold := k.loginHold - 1 }

/-- The grace of an area, and its end in ORPHANED with a journal entry (R109). -/
def graceWork (a : Nat) (s : State) : State :=
  let r := s.area a
  if r.authority = .grace then
    if r.graceLeft ≤ 1 then
      (s.orphanArea a).writeJournal { kind := .orphaned, areas := [a], outgoing := s.holderOp a }
    else s.modArea a fun r => { r with graceLeft := r.graceLeft - 1 }
  else s

/-- The limits of an open handover record (R137). -/
def handoverWork (n : Nat) (s : State) : State :=
  match s.record n with
  | none => s
  | some h =>
    if h.left ≤ 1 then s.abort { h with left := 0 } .expired
    else if h.state = .offered then
      if h.attendLeft ≤ 1 then s.abort { h with left := h.left - 1, attendLeft := 0 } .notAttended
      else s.setRecord { h with left := h.left - 1, attendLeft := h.attendLeft - 1 }
    else s.setRecord { h with left := h.left - 1 }

/-- The ticks remaining of an outstanding command (R155). -/
def confirmWork (tag : Nat) (s : State) : State :=
  match s.commands.find? fun c => c.tag == tag with
  | none => s
  | some c =>
    if c.ticks ≤ 1 then endAtLimit s c
    else { s with commands := s.commands.map fun x => if x.tag == tag then { x with ticks := x.ticks - 1 } else x }

/-- One piece of tick work, as an event of its own. -/
def tickWork (x : TickItem) (s0 : State) : State :=
  let s := s0.beginEvent
  match x with
  | .chatter p => chatterWork p s
  | .shelf p => shelfWork p s
  | .load a => loadWork a s
  | .controllerSilence c => controllerSilenceWork c s
  | .resyncWait c => resyncWaitWork c s
  | .consoleSilence c => consoleSilenceWork c s
  | .rateHold c => rateHoldWork c s
  | .loginHold c => loginHoldWork c s
  | .grace a => graceWork a s
  | .handover n => handoverWork n s
  | .confirm t => confirmWork t s
  | .time => timeWork s

/-! ## What expires -/

/-- The area leaves FLOOD at its decay (R47, R48). -/
def floodEnds (a : Nat) (s : State) : Bool :=
  (s.area a).flood && decayed (s.area a).load < (s.areaParams a).fOff

/-- The point is released at its decay (R52). -/
def chatterEnds (p : Nat) (s : State) : Bool :=
  (s.dynOf p).held && (s.dynOf p).score - 1 ≤ (s.pointDef p).chatterOff

/-- The record ends with EXPIRED at its decrement (R137). -/
def handoverEnds (n : Nat) (s : State) : Bool := (s.record n).any fun h => h.left ≤ 1

/-- The record ends with NOT_ATTENDED at its decrement (R137). -/
def attendEnds (n : Nat) (s : State) : Bool :=
  (s.record n).any fun h => 1 < h.left && h.state == .offered && h.attendLeft ≤ 1

/-- A piece of tick work, taken now, ends what it counts: it belongs to a command of its own. -/
def expires (x : TickItem) (s : State) : Bool :=
  match x with
  | .chatter p => chatterEnds p s
  | .shelf p => (s.shelfEntry p).any fun e => e.ticks ≤ 1
  | .load a => floodEnds a s
  | .controllerSilence c =>
    (lookup s.controllers c).any fun k => k.live && Config.stationLiveLimit ≤ k.silence + 1
  | .resyncWait c => (lookup s.controllers c).any fun k => k.phase != .idle && k.wait ≤ 1
  | .consoleSilence c =>
    (lookup s.consoles c).any fun k => k.attached && Config.stationLiveLimit ≤ k.silence + 1
  | .rateHold c => (lookup s.consoles c).any fun k => k.rateHold == 1
  | .loginHold c => (lookup s.consoles c).any fun k => k.loginHold == 1
  | .grace a => (s.area a).authority == .grace && (s.area a).graceLeft ≤ 1
  | .handover n => handoverEnds n s || attendEnds n s
  | .confirm t => (s.commands.find? fun c => c.tag == t).any fun c => c.ticks ≤ 1
  | .time => s.time.state == .locked && Config.timeMasterLimit ≤ s.time.nextSilence

/-- The tick work of one tick, block by block (R161). -/
def tickItems (s : State) : List TickItem :=
  ((keys (s.dyn.filter fun e => 0 < e.2.score || e.2.held)).map TickItem.chatter)
    ++ (s.shelf.map fun e => TickItem.shelf e.point)
    ++ ((allAreas.filter fun a => 0 < (s.area a).load || (s.area a).flood).map TickItem.load)
    ++ ((keys (s.controllers.filter fun e => e.2.live)).map TickItem.controllerSilence)
    ++ ((keys (s.controllers.filter fun e => e.2.phase != .idle)).map TickItem.resyncWait)
    ++ ((keys (s.consoles.filter fun e => e.2.attached)).map TickItem.consoleSilence)
    ++ ((keys (s.consoles.filter fun e => 0 < e.2.rateHold)).map TickItem.rateHold)
    ++ ((keys (s.consoles.filter fun e => 0 < e.2.loginHold)).map TickItem.loginHold)
    ++ ((allAreas.filter fun a => (s.area a).authority == .grace).map TickItem.grace)
    ++ (s.records.map fun h => TickItem.handover h.number)
    ++ (s.commands.map fun c => TickItem.confirm c.tag)
    ++ [.time]

/-! ## TICK -/

/-- At most `n` pieces of the work owed are taken, from the head. -/
def completeFirst : Nat → State → State
  | 0, s => s
  | n + 1, s =>
    match s.owed with
    | [] => s
    | x :: rest => completeFirst n (tickWork x { s with owed := rest })

/-- The work still owed for the last tick is taken, in order. -/
def completeOwed (s : State) : State := completeFirst s.owed.length s

/-- One piece of this tick's work: taken at once, or left to its own command where it ends what it counts. -/
def tickOne (s : State) (x : TickItem) : State :=
  if expires x s then { s with owed := s.owed ++ [x] } else tickWork x s

/-- The part's own LIVE on a port whose link is UP (R174). -/
def sendLive (p : PortId) (s : State) : State :=
  if (s.port p).up then s.send p (generated s Kind.live 255 0 0 0 []) else s

/-- A STORE at its fourth tick that has had no completion event completes now, its outcome a free value (R188, log 10). -/
def overdueStore (s : State) : State :=
  if s.store.any fun j => Config.storeTicks ≤ j.age + 1 then
    let d := s.drawFree
    completeStore (Config.storeOutcome d.1) d.2
  else s

/-- What the tick itself does beside the blocks' work: the elapsed count (R161), the request counts (R93), the age of a
STORE (R188) and the LIVE telegrams (R174). -/
def tickStart (s : State) : State :=
  sendLive .console (sendLive .plant
    { s with
      time := { s.time with elapsed := 0 }
      consoles := s.consoles.map fun e => (e.1, { e.2 with requests := 0 })
      store := s.store.map fun j => { j with age := j.age + 1 } })

/-- TICK (R161). -/
def execTick (s : State) : Out :=
  .next (
    let t := tickStart (overdueStore (completeOwed (enter s)).beginEvent).beginEvent
    (tickItems t).foldl tickOne t)

/-! ## The events tick work ends in -/

/-- A piece of tick work owed for the last tick is taken where it ends what it counts; else nothing is. -/
def takeOwed (x : TickItem) (s : State) : State :=
  if s.owed.contains x && expires x s then
    tickWork x (s.dropOwed x)
  else s

/-- FLOOD_EXIT (R48). -/
def execFloodExit (area : Nat) (s : State) : Out := .next (takeOwed (.load area) (enter s))

/-- CHATTER_RELEASE (R52). -/
def execChatterRelease (point : Nat) (s : State) : Out := .next (takeOwed (.chatter point) (enter s))

/-- The first shelf entry whose expiry is owed (R69: from the head of the list). -/
def firstExpiring (s : State) : Option Nat :=
  (s.shelf.find? fun e => s.owed.contains (.shelf e.point) && e.ticks ≤ 1).map (·.point)

/-- SHELF_EXPIRED (R69). -/
def execShelfExpired (s : State) : Out :=
  .next (match firstExpiring (enter s) with
    | some p => takeOwed (.shelf p) (enter s)
    | none => enter s)

/-- CONTROLLER_SILENCE_EXPIRY (R31). -/
def execControllerSilenceExpiry (address : Nat) (s : State) : Out :=
  .next (takeOwed (.controllerSilence address) (enter s))

/-- RESYNC_WAIT_EXPIRY (R35). -/
def execResyncWaitExpiry (address : Nat) (s : State) : Out := .next (takeOwed (.resyncWait address) (enter s))

/-- CONSOLE_SILENCE_EXPIRY (R86). -/
def execConsoleSilenceExpiry (address : Nat) (s : State) : Out :=
  .next (takeOwed (.consoleSilence address) (enter s))

/-- RATE_HOLD_END (R93). -/
def execRateHoldEnd (address : Nat) (s : State) : Out := .next (takeOwed (.rateHold address) (enter s))

/-- LOGIN_HOLD_END (R95). -/
def execLoginHoldEnd (address : Nat) (s : State) : Out := .next (takeOwed (.loginHold address) (enter s))

/-- GRACE_EXPIRY (R109). -/
def execGraceExpiry (area : Nat) (s : State) : Out := .next (takeOwed (.grace area) (enter s))

/-- NOT_ATTENDED (R137). -/
def execNotAttended (number : Nat) (s : State) : Out :=
  .next (if attendEnds number (enter s) then takeOwed (.handover number) (enter s) else enter s)

/-- HANDOVER_EXPIRED (R137). -/
def execHandoverExpired (number : Nat) (s : State) : Out :=
  .next (if handoverEnds number (enter s) then takeOwed (.handover number) (enter s) else enter s)

/-- The first outstanding command, in table order, whose end at the limit is owed (R155). -/
def firstOverdue (s : State) : Option Nat :=
  (s.commands.find? fun c => s.owed.contains (.confirm c.tag) && c.ticks ≤ 1).map (·.tag)

/-- CONFIRM_LIMIT_EXPIRY (R155). -/
def execConfirmLimitExpiry (s : State) : Out :=
  .next (match firstOverdue (enter s) with
    | some t => takeOwed (.confirm t) (enter s)
    | none => enter s)

/-- MASTER_SILENCE_EXPIRY (R167). -/
def execMasterSilenceExpiry (s : State) : Out := .next (takeOwed .time (enter s))

end Sys2Proof.Machine
end

