-- ==== Sys2Proof/Machine/Management.lean ====
section
/-! DEFINITION. The management commands: the MREQ, and each of its records (R183 to R191). -/

namespace Sys2Proof.Machine

/-- MREQ_CREDENTIAL (R183): an MREQ arrives at the plant port; one the responder does not take is forwarded (R172). -/
def execMreqCredential (ms : Nat) (f : Frame) (s : State) : Out :=
  .next (receive .plant ms f (fun _ t =>
    if toOwn t f && mreqTaken t f.source.toNat then openRequest f t else t.forwardFrom .plant ⟨Kind.mreq, f⟩) s)

/-- MREQ_SELECT (R184). -/
def execMreqSelect (s : State) : Out := .next (takeRecord .select selectOp s)

/-- MREQ_READ (R184). -/
def execMreqRead (s : State) : Out := .next (takeRecord .read readOp s)

/-- WRITE_POINTS (R2 to R4). -/
def execWritePoints (s : State) : Out := .next (takeRecord .writePoints (writeOp .points writePoint) s)

/-- WRITE_ROSTER (R91). -/
def execWriteRoster (s : State) : Out := .next (takeRecord .writeRoster (writeOp .roster writeOperator) s)

/-- WRITE_STATIONS (R184, R185). -/
def execWriteStations (s : State) : Out := .next (takeRecord .writeStations (writeOp .stations writeStation) s)

/-- WRITE_AREAS (R49, R110, R137). -/
def execWriteAreas (s : State) : Out := .next (takeRecord .writeAreas (writeOp .areas writeArea) s)

/-- WRITE_PARAMS (R159, R184). -/
def execWriteParams (s : State) : Out := .next (takeRecord .writeParams (writeOp .params writePart) s)

/-- QUERY_SLOT (R186). -/
def execQuerySlot (s : State) : Out := .next (takeRecord .query queryOp s)

/-- DISCARD_SLOT (R22, R186). -/
def execDiscardSlot (s : State) : Out := .next (takeRecord .discard discardOp s)

/-- FORCE_AREA (R115, R116). -/
def execForceArea (s : State) : Out := .next (takeRecord .force forceOp s)

/-- MGMT_CLEAR_HOLD (R158, R186). -/
def execMgmtClearHold (s : State) : Out := .next (takeRecord .clearHold clearHoldOp s)

/-- STORE (R188). -/
def execStore (s : State) : Out := .next (takeRecord .store storeOp s)

/-- STORE_COMPLETION (R188). -/
def execStoreCompletion (good : Bool) (s : State) : Out := .next (completeStore good (enter s))

/-- RESET (R189). -/
def execReset (s : State) : Out := .next (takeRecord .reset resetOp s)

/-- CLEAR_RETAINED (R190). -/
def execClearRetained (s : State) : Out := .next (takeRecord .clearRetained clearRetainedOp s)

/-- READ_STATUS (R191). -/
def execReadStatus (s : State) : Out := .next (takeRecord .readStatus readStatusOp s)

end Sys2Proof.Machine
end

