-- ==== Sys2Proof/Machine/Dispatch.lean ====
section
/-! DEFINITION. The dispatch: one arm for each command, each one direct call of its meaning. -/

namespace Sys2Proof.Machine

def exec (i : Instr) (s : State) : Host.Outcome State Fault Refusal :=
  match i with
  | .powerOn retainedHolds plantUp consoleUp => Sys2Proof.Machine.execPowerOn retainedHolds plantUp consoleUp s
  | .resetLine => Sys2Proof.Machine.execResetLine s
  | .systemCommandReset => Sys2Proof.Machine.execSystemCommandReset s
  | .linkDown ms p => Sys2Proof.Machine.execLinkDown ms p s
  | .linkUp p => Sys2Proof.Machine.execLinkUp p s
  | .malformedTelegram ms p payload => Sys2Proof.Machine.execMalformedTelegram ms p payload s
  | .passThrough ms p kind f => Sys2Proof.Machine.execPassThrough ms p kind f s
  | .live ms p f => Sys2Proof.Machine.execLive ms p f s
  | .tmark ms f => Sys2Proof.Machine.execTmark ms f s
  | .prep ms f => Sys2Proof.Machine.execPrep ms f s
  | .psnap ms f => Sys2Proof.Machine.execPsnap ms f s
  | .cconf ms f => Sys2Proof.Machine.execCconf ms f s
  | .hello ms f => Sys2Proof.Machine.execHello ms f s
  | .login ms f => Sys2Proof.Machine.execLogin ms f s
  | .logout ms f => Sys2Proof.Machine.execLogout ms f s
  | .ack ms f => Sys2Proof.Machine.execAck ms f s
  | .groupAck ms f => Sys2Proof.Machine.execGroupAck ms f s
  | .shelve ms f => Sys2Proof.Machine.execShelve ms f s
  | .unshelve ms f => Sys2Proof.Machine.execUnshelve ms f s
  | .silence ms f => Sys2Proof.Machine.execSilence ms f s
  | .claim ms f => Sys2Proof.Machine.execClaim ms f s
  | .clearHold ms f => Sys2Proof.Machine.execClearHold ms f s
  | .page ms f => Sys2Proof.Machine.execPage ms f s
  | .pageAll ms f => Sys2Proof.Machine.execPageAll ms f s
  | .transferPaged => Sys2Proof.Machine.execTransferPaged s
  | .noticeDequeue => Sys2Proof.Machine.execNoticeDequeue s
  | .offer ms f => Sys2Proof.Machine.execOffer ms f s
  | .attend ms f => Sys2Proof.Machine.execAttend ms f s
  | .reviewed ms f => Sys2Proof.Machine.execReviewed ms f s
  | .accept ms f => Sys2Proof.Machine.execAccept ms f s
  | .decline ms f => Sys2Proof.Machine.execDecline ms f s
  | .withdraw ms f => Sys2Proof.Machine.execWithdraw ms f s
  | .opcmd ms f => Sys2Proof.Machine.execOpcmd ms f s
  | .mreqCredential ms f => Sys2Proof.Machine.execMreqCredential ms f s
  | .mreqSelect => Sys2Proof.Machine.execMreqSelect s
  | .mreqRead => Sys2Proof.Machine.execMreqRead s
  | .writePoints => Sys2Proof.Machine.execWritePoints s
  | .writeRoster => Sys2Proof.Machine.execWriteRoster s
  | .writeStations => Sys2Proof.Machine.execWriteStations s
  | .writeAreas => Sys2Proof.Machine.execWriteAreas s
  | .writeParams => Sys2Proof.Machine.execWriteParams s
  | .querySlot => Sys2Proof.Machine.execQuerySlot s
  | .discardSlot => Sys2Proof.Machine.execDiscardSlot s
  | .forceArea => Sys2Proof.Machine.execForceArea s
  | .mgmtClearHold => Sys2Proof.Machine.execMgmtClearHold s
  | .store => Sys2Proof.Machine.execStore s
  | .storeCompletion good => Sys2Proof.Machine.execStoreCompletion good s
  | .reset => Sys2Proof.Machine.execReset s
  | .clearRetained => Sys2Proof.Machine.execClearRetained s
  | .readStatus => Sys2Proof.Machine.execReadStatus s
  | .tick => Sys2Proof.Machine.execTick s
  | .floodExit area => Sys2Proof.Machine.execFloodExit area s
  | .chatterRelease point => Sys2Proof.Machine.execChatterRelease point s
  | .shelfExpired => Sys2Proof.Machine.execShelfExpired s
  | .controllerSilenceExpiry address => Sys2Proof.Machine.execControllerSilenceExpiry address s
  | .resyncWaitExpiry address => Sys2Proof.Machine.execResyncWaitExpiry address s
  | .consoleSilenceExpiry address => Sys2Proof.Machine.execConsoleSilenceExpiry address s
  | .rateHoldEnd address => Sys2Proof.Machine.execRateHoldEnd address s
  | .loginHoldEnd address => Sys2Proof.Machine.execLoginHoldEnd address s
  | .graceExpiry area => Sys2Proof.Machine.execGraceExpiry area s
  | .notAttended number => Sys2Proof.Machine.execNotAttended number s
  | .handoverExpired number => Sys2Proof.Machine.execHandoverExpired number s
  | .confirmLimitExpiry => Sys2Proof.Machine.execConfirmLimitExpiry s
  | .masterSilenceExpiry => Sys2Proof.Machine.execMasterSilenceExpiry s
  | .transmitEnd p => Sys2Proof.Machine.execTransmitEnd p s
  | .discardedTelegram ms p kind f => Sys2Proof.Machine.execDiscardedTelegram ms p kind f s

end Sys2Proof.Machine
end

