-- ==== Sys2Proof/WellFormed.lean ====
section
/-! DEFINITION. Well-formed commands: the ranges of their operands, the frames a telegram command may carry, and the body
by which the rows of one telegram kind differ (R170, R172, R176 to R178, R180). The machine gives every command a
meaning, well formed or not; a well-formed one is one the table's row describes. -/

namespace Sys2Proof

open Machine

/-- The elapsed milliseconds at an arrival (R161). -/
def msOk (ms : Nat) : Bool := ms ≤ 999

/-- A frame whose records fit a telegram and whose source is a station (R170, R176). -/
def frameOk (f : Frame) : Bool :=
  f.source != 0#8 && f.recs.length ≤ 16 && f.recs.all (fun r => r.data.length ≤ 255)
    && bodyLength f.recs ≤ Config.bodyCap

/-- A telegram command's operands. -/
def arrivalOk (ms : Nat) (f : Frame) : Bool := msOk ms && frameOk f

/-- The code all records of an OREQ carry, where they name one request: one record, or several of GROUP_ACK (R177). -/
def requestCode (recs : List Rec) : Option Byte :=
  match recs with
  | [] => none
  | r :: rest =>
    if [0x21#8, 0x22#8, 0x23#8, 0x24#8, 0x26#8, 0x27#8].contains r.code && rest.all (fun x => x.code == r.code)
        && (rest.isEmpty || r.code == 0x22#8) then some r.code
    else none

/-- The body of an OREQ row: records that name its request, or that name none and are answered BAD_REQUEST (R177). -/
def oreqOk (code : Byte) (f : Frame) : Bool :=
  !f.recs.isEmpty && (requestCode f.recs == some code || requestCode f.recs == none)

/-- The body of a HOVR row: one record of its step's code, or a body that names no step (R178). -/
def hovrOk (code : Byte) (f : Frame) : Bool :=
  match f.recs with
  | [r] => r.code == code || !(0x41 ≤ r.code.toNat && r.code.toNat ≤ 0x46)
  | _ => true

/-- The body asks for a full list: one PAGE record whose page value is ALL (R73, R180). -/
def asksAll (f : Frame) : Bool :=
  match f.recs with
  | [r] => r.code == 0x34#8 && r.data.length == 2 && field1 r.data 1 == 0xFF
  | _ => false

/-- A kind that some telegram of is forwarded (R172). -/
def forwardable (p : PortId) (k : Byte) : Bool :=
  !namedKind k || k == Kind.mreq || (p == .console && consoleKind k)

/-- A kind that some telegram of is discarded (R172). -/
def discardable (k : Byte) : Bool := namedKind k && k != Kind.live

def areaOk (a : Nat) : Bool := a ≤ 15
def pointOk (p : Nat) : Bool := p < Config.pointCount
def addressOk (a : Nat) : Bool := 1 ≤ a && a ≤ 254
def numberOk (n : Nat) : Bool := 1 ≤ n && n ≤ 65535

/-- The command is well formed. -/
def Instr.wf : Instr → Bool
  | .powerOn _ _ _ => true
  | .resetLine => true
  | .systemCommandReset => true
  | .linkDown ms _ => msOk ms
  | .linkUp _ => true
  | .malformedTelegram ms _ _ => msOk ms
  | .passThrough ms p k f => arrivalOk ms f && forwardable p k
  | .live ms _ f => arrivalOk ms f
  | .tmark ms f => arrivalOk ms f
  | .prep ms f => arrivalOk ms f
  | .psnap ms f => arrivalOk ms f
  | .cconf ms f => arrivalOk ms f
  | .hello ms f => arrivalOk ms f
  | .login ms f => arrivalOk ms f
  | .logout ms f => arrivalOk ms f
  | .ack ms f => arrivalOk ms f && oreqOk 0x21#8 f
  | .groupAck ms f => arrivalOk ms f && oreqOk 0x22#8 f
  | .shelve ms f => arrivalOk ms f && oreqOk 0x23#8 f
  | .unshelve ms f => arrivalOk ms f && oreqOk 0x24#8 f
  | .silence ms f => arrivalOk ms f && f.recs.isEmpty
  | .claim ms f => arrivalOk ms f && oreqOk 0x26#8 f
  | .clearHold ms f => arrivalOk ms f && oreqOk 0x27#8 f
  | .page ms f => arrivalOk ms f && !asksAll f
  | .pageAll ms f => arrivalOk ms f && asksAll f
  | .transferPaged => true
  | .noticeDequeue => true
  | .offer ms f => arrivalOk ms f && hovrOk 0x41#8 f
  | .attend ms f => arrivalOk ms f && hovrOk 0x42#8 f
  | .reviewed ms f => arrivalOk ms f && hovrOk 0x43#8 f
  | .accept ms f => arrivalOk ms f && hovrOk 0x44#8 f
  | .decline ms f => arrivalOk ms f && hovrOk 0x45#8 f
  | .withdraw ms f => arrivalOk ms f && hovrOk 0x46#8 f
  | .opcmd ms f => arrivalOk ms f
  | .mreqCredential ms f => arrivalOk ms f
  | .mreqSelect => true
  | .mreqRead => true
  | .writePoints => true
  | .writeRoster => true
  | .writeStations => true
  | .writeAreas => true
  | .writeParams => true
  | .querySlot => true
  | .discardSlot => true
  | .forceArea => true
  | .mgmtClearHold => true
  | .store => true
  | .storeCompletion _ => true
  | .reset => true
  | .clearRetained => true
  | .readStatus => true
  | .tick => true
  | .floodExit a => areaOk a
  | .chatterRelease p => pointOk p
  | .shelfExpired => true
  | .controllerSilenceExpiry a => addressOk a
  | .resyncWaitExpiry a => addressOk a
  | .consoleSilenceExpiry a => addressOk a
  | .rateHoldEnd a => addressOk a
  | .loginHoldEnd a => addressOk a
  | .graceExpiry a => areaOk a
  | .notAttended n => numberOk n
  | .handoverExpired n => numberOk n
  | .confirmLimitExpiry => true
  | .masterSilenceExpiry => true
  | .transmitEnd _ => true
  | .discardedTelegram ms _ k f => arrivalOk ms f && discardable k

end Sys2Proof
end

