-- ==== Sys2Proof/Safety.lean ====
section
/-! DEFINITION. What counts as a safe run, and the terms the statements use: the bounds that every state keeps, when a
command finds the machine at rest, what a telegram finds at its arrival, and what a start-up leaves. -/

namespace Sys2Proof.Machine

/-! ## The bounds of a safe state -/

/-- A line port as the spec has it (R169, R173 to R175): neither queue above its capacity, an OWN turn count of 0 to 2,
nothing waiting or being sent while the link is DOWN, and nothing waiting while nothing is being sent. -/
abbrev Port.Sound (q : Port) : Prop :=
  q.forward.length ≤ Config.forwardCap ∧ q.own.length ≤ Config.ownCap ∧ q.ownTurn ≤ 2
    ∧ (q.up = false → q.sending = none)
    ∧ (q.sending = none → q.forward = [] ∧ q.own = [])

/-- Both ports are sound. -/
abbrev State.PortsSound (s : State) : Prop := s.plant.Sound ∧ s.console.Sound

/-- No bounded list is above its capacity: the admission queue (R19), the shelf list (R65), the outstanding commands
(R147), the open records and their review lists (R120, R125), the journal (R143) and each console's notices (R99). -/
abbrev State.WithinCapacity (s : State) : Prop :=
  s.queue.length ≤ Config.queueCap ∧ s.shelf.length ≤ Config.shelfCap ∧ s.commands.length ≤ Config.commandCap
    ∧ s.records.length ≤ Config.recordCap ∧ (∀ h ∈ s.records, h.list.length ≤ Config.reviewCap)
    ∧ s.retained.journal.length ≤ Config.journalCap
    ∧ ∀ e ∈ s.consoles, e.2.notices.length ≤ Config.noticeCap

/-- The slots stand by rising index, and no two hold one point (R7). -/
abbrev State.SlotsDistinct (s : State) : Prop :=
  risingKeys s.slots = true ∧ (s.slots.map fun e => e.2.point).Nodup

/-! ## The canonical form of a state -/

/-- The keys of every table of the configuration rise. -/
abbrev Tables.KeysRise (t : Tables) : Prop :=
  risingKeys t.points = true ∧ risingKeys t.roster = true ∧ risingKeys t.stations = true
    ∧ risingKeys t.areaParams = true

/-- Every keyed table stands by rising keys, so that equal contents are equal data. -/
abbrev State.KeysRise (s : State) : Prop :=
  s.tables.KeysRise ∧ s.memory.copy.KeysRise ∧ (∀ j, s.store = some j → j.copy.KeysRise)
    ∧ risingKeys s.dyn = true ∧ risingKeys s.slots = true ∧ risingKeys s.areas = true
    ∧ risingKeys s.consoles = true ∧ risingKeys s.controllers = true ∧ risingKeys s.retained.areas = true

/-- No two open records share a number and none lists an area twice (R120, R121), no two outstanding commands share a
tag (R147), and no point is shelved twice (R65). -/
abbrev State.NumbersApart (s : State) : Prop :=
  (s.records.map fun h => h.number).Nodup ∧ (∀ h ∈ s.records, h.areas.Nodup)
    ∧ (s.commands.map fun c => c.tag).Nodup ∧ (s.shelf.map fun e => e.point).Nodup

/-- The shelf list stands in ascending order of ticks remaining (R65), and an entry whose work is owed is about to expire. -/
abbrev State.ShelfOrdered (s : State) : Prop :=
  s.shelf.Pairwise (fun x y => x.ticks ≤ y.ticks)
    ∧ ∀ x ∈ s.shelf, TickItem.shelf x.point ∈ s.owed → x.ticks ≤ 1

/-- The alarm table as R7 and R10 have it: slot indices below 1024 and rising, no point in two slots, twice in the queue
or in both, and no TRACKING alarm in RETURNED_UNACK. -/
abbrev State.AlarmTableSound (s : State) : Prop :=
  risingKeys s.slots = true ∧ (∀ e ∈ s.slots, e.1 < Config.slotCount)
    ∧ ((s.slots.map fun e => e.2.point) ++ s.queue.map fun q => q.point).Nodup
    ∧ (∀ e ∈ s.slots, (s.pointDef e.2.point).latch = .tracking → e.2.state ≠ .returnedUnack)
    ∧ (∀ q ∈ s.queue, (s.pointDef q.point).latch = .tracking → q.returned = false)

/-- A time value within its range (R162). -/
abbrev timeInRange (v : Nat × Nat) : Prop := v.1 ≤ Config.maxSeconds ∧ v.2 ≤ 999

/-- The time base within its ranges (R161, R162): time values, the elapsed milliseconds, and a high mark that carries
UNSYNC in UNSET (R163). -/
abbrev TimeBase.Sound (b : TimeBase) : Prop :=
  timeInRange (b.sec, b.ms) ∧ (∀ v, b.pending = some v → timeInRange v) ∧ (∀ v, b.projection = some v → timeInRange v)
    ∧ timeInRange (b.high.sec, b.high.ms) ∧ b.elapsed ≤ 999 ∧ (b.state = .unset → b.high.unsync = true)

/-! ## The tick of the time base (R165, R166) -/

/-- The largest time value, in milliseconds (R162). -/
def lastMs : Nat := 4294967295 * 1000 + 999

/-- The candidate of a tick in milliseconds: the tick value plus one second (R165). -/
def TimeBase.nextMs (b : TimeBase) : Nat := min lastMs (inMs (b.sec, b.ms) + 1000)

/-- The time base holds its value (R166). -/
def TimeBase.holding (b : TimeBase) : Bool := b.state == .locked && b.held

/-- The master's time at a tick in milliseconds: the pending mark, or in a hold without one the projection plus one second
(R165, R166). -/
def TimeBase.masterMs (b : TimeBase) : Option Nat :=
  match b.pending with
  | some m => some (inMs m)
  | none => if b.holding then b.projection.map fun j => min lastMs (inMs j + 1000) else none

/-- TIME_STEP latches at a tick that counts no third silence: the master's time exceeds the tick value plus one second by
more than 2 seconds, and the part has locked before (R165, R166). -/
def TimeBase.steps (b : TimeBase) : Bool := b.state != .unset && b.masterMs.any fun m => b.nextMs + 2000 < m

/-- A tick that counts no third silence takes the time base from `b` to `c`, by R165's table: without a master's time the
value is one second on, in UNSET with milliseconds 0 (log 57); the first lock takes the mark; an adjustment takes a mark
that is not behind the candidate, and else holds the later of the tick value and the high mark; a hold stands until the
master's time reaches the tick value (R166). -/
abbrev TimeTicked (b c : TimeBase) : Prop :=
  let value := inMs (b.sec, b.ms)
  let new := inMs (c.sec, c.ms)
  c.Sound
    ∧ c = { b with
        state := c.state, sec := c.sec, ms := c.ms, held := c.held, projection := c.projection, silence := c.silence
        pending := none, relock := false }
    ∧ (c.silence = if b.state = .locked then (if b.pending = none then b.silence + 1 else 0) else b.silence)
    ∧ (b.masterMs = none → b.holding = false → c.state = b.state ∧ c.held = b.held ∧ c.projection = b.projection
        ∧ if b.state = .unset then c.sec = min 4294967295 (b.sec + 1) ∧ c.ms = 0 else new = b.nextMs)
    ∧ ∀ m ∈ b.masterMs, c.state = .locked
        ∧ (b.state = .unset → new = m ∧ c.held = false ∧ c.projection = b.projection)
        ∧ (b.state ≠ .unset → b.holding = false →
            (b.nextMs ≤ m → new = m ∧ c.held = b.held ∧ c.projection = b.projection)
            ∧ (m < b.nextMs → c.held = true ∧ c.projection.map inMs = some m
                ∧ new = if b.high.unsync then value else max value (inMs (b.high.sec, b.high.ms))))
        ∧ (b.holding = true →
            (value ≤ m → new = m ∧ c.held = false ∧ c.projection = none)
            ∧ (m < value → new = value ∧ c.held = true ∧ c.projection.map inMs = some m))

/-! ## Authority and sessions -/

/-- The table lists a station of a kind, on a side, at an address (R185). -/
def Tables.lists (t : Tables) (k : StationKind) (side : PortId) (address : Nat) : Bool :=
  t.stations.any fun e => e.2.kind == k && e.2.side == some side && e.2.address == address

/-- Some operator sits at a seat of a console of class FULL, which is therefore ATTACHED (R104). -/
def State.seatedFull (s : State) (h : Holder) : Prop :=
  ∃ c, lookup s.consoles h.console = some c ∧ c.cls = some .full ∧ c.seatOp h.seat = some h.operator

/-- Authority, sessions and open records agree: the holder of an area in HELD sits at the holder seat of a FULL console
(R104); no operator sits at two seats (R96); the incoming operator of an open record sits at its seat of a FULL console
(R141); an area carries a number exactly where the open record of that number names it, so that none belongs to two
(R117, R120); and every console there is, is configured (R81, R89). -/
structure State.AuthoritySound (s : State) : Prop where
  holders  : ∀ a, a < 16 → (s.area a).authority = .held → ∃ h, (s.area a).holder = some h ∧ s.seatedFull h
  sessions : ∀ a b n m op c d, lookup s.consoles a = some c → lookup s.consoles b = some d → c.seatOp n = some op →
    d.seatOp m = some op → a = b ∧ n = m
  incoming : ∀ h ∈ s.records, s.seatedFull ⟨h.inOp, h.inConsole, h.inSeat⟩
  records  : ∀ a n, (s.area a).openRecord = some n ↔ ∃ h ∈ s.records, h.number = n ∧ a ∈ h.areas
  consoles : ∀ a, lookup s.consoles a ≠ none → s.tables.lists .console .console a = true

/-! ## URGENT alarms (R60) -/

/-- No URGENT definition of a table allows shelving or suppression (R3). -/
abbrev Tables.UrgentClamped (t : Tables) : Prop :=
  ∀ e ∈ t.points, e.2.priority = .urgent → e.2.shelveLimit = 0 ∧ e.2.suppressible = false

/-- No URGENT alarm is shelved or suppressed, and none of the tables it may be read from lets it be (R60). -/
structure State.UrgentSound (s : State) : Prop where
  tables : s.tables.UrgentClamped ∧ s.memory.copy.UrgentClamped ∧ ∀ j, s.store = some j → j.copy.UrgentClamped
  shelf  : ∀ x ∈ s.shelf, (s.pointDef x.point).priority ≠ .urgent
  slots  : ∀ e ∈ s.slots, (s.pointDef e.2.point).priority = .urgent → e.2.shelved = false ∧ e.2.suppressed = false

/-- The slot of point `p` has left ACTIVE_UNACK or RETURNED_UNACK for ACTIVE_ACKED or for no slot (R60). -/
def SlotSettled (p : Nat) (s t : State) : Prop :=
  (∃ i sl, s.slotOf p = some (i, sl) ∧ sl.state ≠ .activeAcked)
    ∧ ∀ i sl, t.slotOf p = some (i, sl) → sl.state = .activeAcked

/-! ## The machine at rest -/

/-- No MREQ is being taken and no reset waits (R183, R189): a command acts on the state as it stands. -/
def State.settled (s : State) : Bool := s.request.isNone && !s.resetWaits

/-- The moment of a waiting management reset has come (R189): no STORE is in progress, and no telegram held, waiting or
being sent is the MREP whose transmission the reset follows. -/
def State.resetMoment (s : State) : Prop :=
  s.resetWaits = true ∧ s.store = none ∧ (∀ r ∈ s.heldMreps, r.decides = false)
    ∧ (∀ e ∈ s.plant.own, e.resets = false) ∧ ∀ e, s.plant.sending = some (.own e) → e.resets = false

/-- Settled, and the time base owes no tick work, which an arriving telegram would take first. -/
def State.ready (s : State) : Bool := s.settled && !s.owed.contains .time

/-- The state a telegram finds that arrives `ms` milliseconds after the last tick: a new event, with the elapsed count at
the arrival (R161). -/
def State.atArrival (s : State) (ms : Nat) : State :=
  { s with statSent := false, time := { s.time with elapsed := max s.time.elapsed (min ms 999) } }

/-- The timestamp of a telegram's event (R163). -/
def State.stampAt (s : State) (ms : Nat) : Stamp := (s.atArrival ms).stamp

/-! ## Telegrams -/

/-- A telegram arrives at a port whose link is UP and passes the line checks (R170). -/
def arrives (p : PortId) (s : State) (f : Frame) : Bool := s.ready && (s.port p).up && lineOk s.ownAddress f

/-- Where record `n` of a payload begins, by the record lengths before it: each record is a code, a length and that many
bytes, after the ten-byte header (R170, R176). -/
def recordStart (payload : List Byte) : Nat → Nat
  | 0 => 10
  | n + 1 => recordStart payload n + 2 + ((payload[recordStart payload n + 1]?).getD 0#8).toNat

/-- The state after a telegram has counted for the liveness of its source (R31, R34, R82). -/
def State.heard (s : State) (ms : Nat) (p : PortId) (f : Frame) : State :=
  (liveness p f.source.toNat (s.atArrival ms)).1.beginEvent

/-- A telegram addressed to the part arrives at the console port from an ATTACHED console that `q` describes. -/
def fromAttached (s : State) (f : Frame) (q : Console → Bool) : Bool :=
  arrives .console s f && toOwn s f && (lookup s.consoles f.source.toNat).any fun c => c.attached && q c

/-- The console's seat in the telegram's header exists and is OCCUPIED by `op`, whom the header names
(R92 checks 1 to 3). -/
def seatedAs (f : Frame) (op : Nat) (c : Console) : Bool :=
  c.hasSeat f.seat.toNat && c.seatOp f.seat.toNat == some op && f.operator.toNat == op

/-- The request-rate check passes (R93). -/
def withinRate (s : State) (c : Console) : Bool := c.rateHold == 0 && c.requests < s.tables.params.rateLimit

/-- An uncounted request of operator `op` passes the intake checks (R92). -/
def requestFrom (s : State) (f : Frame) (op : Nat) : Bool := fromAttached s f (seatedAs f op)

/-- A counted request of operator `op` passes the intake checks (R92, R93). -/
def countedFrom (s : State) (f : Frame) (op : Nat) : Bool :=
  fromAttached s f fun c => seatedAs f op c && withinRate s c

/-- A request as its owner finds it: the console has been heard, and the request counted where `n` is 1 (R82, R93). -/
def State.taken (s : State) (ms n : Nat) (f : Frame) : State :=
  (s.atArrival ms).modConsole f.source.toNat fun c => { c with silence := 0, requests := c.requests + n }

/-- The sender of the request in `f` (R92). -/
def senderOf (f : Frame) (op : Nat) : Requester := ⟨op, f.source.toNat, f.seat.toNat⟩

/-- The console of the request has class `k` or above. -/
def classOf (s : State) (f : Frame) (k : ConsoleClass) : Bool := s.consoleAtLeast f.source.toNat k

/-- A RESP to the request in `f`, as an entry of OWN: the seat and sequence echoed, `op` in the operator field
(R92, R174). -/
def respTo (s : State) (f : Frame) (op : Nat) (r : Result) (data : List Rec) : OwnEntry :=
  ⟨generated s Kind.resp f.source.toNat f.seat.toNat f.seq (BitVec.ofNat 16 op) (resultRec r :: data), false⟩

/-- A PAGED to the request in `f`, as an entry of OWN (R72, R174). -/
def pagedTo (s : State) (f : Frame) (op : Nat) (recs : List Rec) : OwnEntry :=
  ⟨generated s Kind.paged f.source.toNat f.seat.toNat f.seq (BitVec.ofNat 16 op) recs, false⟩

/-- The MREP of an MREQ with the results given, as an entry of OWN (R174, R183). -/
def mrepTo (s : State) (r : Request) (results : List Rec) : OwnEntry :=
  ⟨generated s Kind.mrep r.source.toNat 0 r.seq r.operator results, r.decides⟩

/-- The open MREQ has one record left, `x`; its results so far leave room for one with `n` more bytes of data, and
neither a STORE nor a RESET holds its MREP (R183, R188, R189). -/
def lastRecord (s : State) (r : Request) (x : Rec) (n : Nat) : Bool :=
  s.request == some r && r.todo == [x] && !r.stopped && r.storeAt.isNone && !r.resets
    && bodyLength r.results + (3 + n) ≤ Config.bodyCap

/-- The open MREQ has one record left, a WRITE with data `d` to the selected table `t` (R181, R184). -/
def lastWrite (s : State) (r : Request) (t : TableId) (d : List Byte) : Bool :=
  lastRecord s r ⟨0x83#8, d⟩ 0 && r.selected == some t && 3 ≤ d.length

/-- The rows of an OREQ (R92, R177). -/
def oreqRows (ms : Nat) (f : Frame) : List Instr :=
  [.ack ms f, .groupAck ms f, .shelve ms f, .unshelve ms f, .silence ms f, .claim ms f, .clearHold ms f]

/-- The rows of a HOVR, each with its step's record code and the lengths its record may have (R178). -/
def hovrSteps (ms : Nat) (f : Frame) : List (Instr × Byte × (List Byte → Bool)) :=
  [(.offer ms f, 0x41#8, fun d => d.length == 5), (.attend ms f, 0x42#8, fun d => d.length == 2),
   (.reviewed ms f, 0x43#8, reviewedLength), (.accept ms f, 0x44#8, fun d => d.length == 2),
   (.decline ms f, 0x45#8, fun d => d.length == 2), (.withdraw ms f, 0x46#8, fun d => d.length == 2)]

/-- The steps of a party: row, record code, lengths, whether the incoming operator is the party, and whether the step is
taken in REVIEW alone (R122). -/
def partySteps (ms : Nat) (f : Frame) : List (Instr × Byte × (List Byte → Bool) × Bool × Bool) :=
  [(.attend ms f, 0x42#8, fun d => d.length == 2, true, false), (.reviewed ms f, 0x43#8, reviewedLength, true, true),
   (.accept ms f, 0x44#8, fun d => d.length == 2, true, true), (.decline ms f, 0x45#8, fun d => d.length == 2, true, false),
   (.withdraw ms f, 0x46#8, fun d => d.length == 2, false, false)]

/-- The rows whose requests are counted (R92 check 4). -/
def countedRows (ms : Nat) (f : Frame) : List Instr :=
  oreqRows ms f ++ (hovrSteps ms f).map (·.1) ++ [.opcmd ms f]

/-- Every row that is a console's request (R92). -/
def requestRows (ms : Nat) (f : Frame) : List Instr :=
  countedRows ms f ++ [.page ms f, .pageAll ms f, .login ms f, .logout ms f]

/-- What a request of a row that is refused at intake carries: the state record of the ACK, SHELVE or UNSHELVE, or the
command record of the OPCMD (R177, R180). -/
def refusalData (ms : Nat) (f : Frame) (c : Instr) (s : State) : List Rec :=
  if c ∈ oreqRows ms f then oreqView f s else if c = .opcmd ms f then opcmdView f s else []

/-- A console's record fields after it has attached at VIEW with no features (R83, R84). -/
def Console.viewing (c : Console) : Console :=
  { c with cls := some .view, features := {}, seat1 := none, seat2 := none, silence := 0, horn := .quiet, notices := []
           noticeSeq := 0, transfer := none, requests := 0 }

/-! ## Checks in their order -/

/-- The result of the first check that fails, in order. -/
def firstFailing : List (Bool × Result) → Option Result
  | [] => none
  | (ok, r) :: rest => if ok then firstFailing rest else some r

/-- Who may acknowledge an URGENT point of an area (R57). -/
def urgentPermitted (s : State) (op a : Nat) : Bool :=
  match (s.area a).authority, (s.area a).holder with
  | .held, some h => h.operator == op || s.hasRole op .shiftLead
  | _, _ => s.hasRole op .shiftLead

/-- Checks 2 to 5 of an ACK (R56). -/
def ackChecks (s : State) (f : Frame) (op p : Nat) : List (Bool × Result) :=
  let d := s.pointDef p
  [(classOf s f .ack, .classTooLow), (known s p, .unknownPoint), (s.hasRight op d.area .ack, .deniedRights),
   (d.priority != .urgent || urgentPermitted s op d.area, .deniedAuthority)]

/-- Checks 1 to 4 of a pair of a GROUP_ACK (R62). -/
def pairChecks (s : State) (op p : Nat) : List (Bool × Result) :=
  let d := s.pointDef p
  [(known s p, .unknownPoint), (d.priority != .urgent, .groupRefused), (s.hasRight op d.area .ack, .deniedRights),
   (s.hasRole op .shiftLead || ((d.priority == .medium || d.priority == .low) && (s.area d.area).flood),
    .groupRefused)]

/-- Checks 2 to 5 of a SHELVE and of an UNSHELVE (R66, R68). -/
def shelfChecks (s : State) (f : Frame) (op p : Nat) : List (Bool × Result) :=
  let d := s.pointDef p
  [(classOf s f .full, .classTooLow), (known s p, .unknownPoint), (s.hasRight op d.area .shelve, .deniedRights),
   (s.holds op d.area, .deniedAuthority)]

/-- Checks 2 to 7 of a SHELVE (R66). -/
def shelveChecks (s : State) (f : Frame) (op p : Nat) : List (Bool × Result) :=
  shelfChecks s f op p
    ++ ([(0 < (s.pointDef p).shelveLimit, .shelveNotAllowed),
      (s.shelved p || s.shelf.length < 128, .shelfFull)] : List (Bool × Result))

/-- Checks 2 to 5 of a CLAIM (R113). -/
def claimChecks (s : State) (f : Frame) (op a : Nat) : List (Bool × Result) :=
  [(classOf s f .full, .classTooLow), (s.hasRight op a .operate, .deniedRights),
   ((s.area a).openRecord.isNone, .busyArea),
   (match (s.area a).authority with
    | .unheld | .orphaned => true
    | .grace => s.hasRole op .shiftLead
    | .held => s.holds op a, .deniedAuthority)]

/-- Checks 2 to 5 of a CLEAR_HOLD (R157). -/
def clearHoldChecks (s : State) (f : Frame) (op address : Nat) : List (Bool × Result) :=
  [(classOf s f .full, .classTooLow), (s.hasRole op .shiftLead, .deniedAuthority),
   (s.tables.points.any fun e => e.2.defined && e.2.controller == address && s.hasRight op e.2.area .operate,
    .deniedRights),
   ((lookup s.controllers address).any fun c => c.faultHeld, .notPending)]

/-- Checks 2 to 8 of an OPCMD (R149). -/
def opcmdChecks (s : State) (f : Frame) (op p : Nat) : List (Bool × Result) :=
  let d := s.pointDef p
  [(classOf s f .full, .classTooLow), (known s p, .unknownPoint), (s.holds op d.area, .deniedAuthority),
   (s.hasRight op d.area .operate, .deniedRights), (s.controllerLive d.controller, .controllerStale),
   (!(lookup s.controllers d.controller).any fun c => c.faultHeld, .controllerHeld),
   (s.commands.length < 32, .tableFull)]

/-- Checks 1 to 11 of an OFFER (R123). -/
def offerChecks (s : State) (op : Nat) (o : Offer) : List (Bool × Result) :=
  [(o.kind.isSome && !o.areas.isEmpty, .badRequest), (o.inOp != op, .badRequest),
   (o.areas.all fun a => s.holds op a, .deniedAuthority),
   (o.areas.all fun a => (s.area a).openRecord.isNone, .busyArea),
   ((s.session o.inOp).any fun x => dialogConsole s x.1, .incomingAbsent),
   (o.areas.all fun a => s.hasRight o.inOp a .operate, .deniedRights), (s.records.length < 4, .tableFull),
   (o.kind != some .shift || o.areas.all fun a => !(s.area a).flood, .floodHold),
   (o.kind != some .relief || o.areas.all fun a => (s.area a).relief.length < 2, .stackFull),
   (o.kind != some .relief || o.areas.all fun a => (s.area a).relief.all fun c => c.operator != o.inOp, .onStack),
   (o.kind != some .giveBack || o.areas.all fun a => (s.area a).relief.head?.any fun c => c.operator == o.inOp,
    .notOnStack)]

/-- A counted step of a handover, from a FULL console with HANDOVER_DIALOG, that carries one record (R122). -/
def handoverStep (s : State) (f : Frame) (op : Nat) (code : Byte) (d : List Byte) : Bool :=
  countedFrom s f op && dialogConsole s f.source.toNat && f.recs == [⟨code, d⟩]

/-- The class is in a set of classes (R83). -/
def Classes.has (c : Classes) : ConsoleClass → Bool
  | .view => c.view | .ack => c.ack | .full => c.full

/-! ## Horns -/

/-- A slot is a qualifying alarm for the console `c` at an address (R78). -/
def QualifyingAlarm (s : State) (address : Nat) (c : Console) (sl : Slot) : Prop :=
  sl.state ≠ .activeAcked ∧ sl.shelved = false ∧ sl.chatter = false ∧ sl.suppressed = false
    ∧ (s.pointDef sl.point).priority.rank ≤ (s.hornLevel address).rank
    ∧ ∃ op ∈ c.operators, s.hasRight op (s.pointDef sl.point).area .ack = true

/-! ## What stays as it was -/

/-- A console but for its notices and its horn, which any event may change. -/
def Console.bare (c : Console) : Console := { c with notices := [], horn := .quiet }

/-- Every console as before, notices and horns apart. -/
def ConsolesKept (s t : State) : Prop :=
  ∀ a, (lookup t.consoles a).map Console.bare = (lookup s.consoles a).map Console.bare

/-- Every area as before, its generation apart. -/
def AreasKept (s t : State) : Prop := ∀ a, { t.area a with generation := (s.area a).generation } = s.area a

/-- Every slot but the one at index `i` as before. -/
def OtherSlotsKept (i : Nat) (s t : State) : Prop := ∀ j, j ≠ i → lookup t.slots j = lookup s.slots j

/-- The generation of area `a` advances once, from 65535 to 0, and no other (R16). -/
def OneGeneration (a : Nat) (s t : State) : Prop :=
  ∀ b, (t.area b).generation = if b = a then ((s.area b).generation + 1) % 65536 else (s.area b).generation

/-- Nothing but what an event at the alarm table may reach: slots, generations and loads, notices and horns, review
lists, reports and flags. -/
def AlarmEventFrame (s t : State) : Prop :=
  t = { s with
    slots := t.slots, areas := t.areas, consoles := t.consoles, records := t.records, arepSeq := t.arepSeq
    time := t.time, plant := t.plant, console := t.console, latched := t.latched, statSeq := t.statSeq
    statSent := t.statSent }

/-- Nothing but what an event of authority or of a handover may reach. -/
def AuthorityEventFrame (s t : State) : Prop :=
  t = { s with
    areas := t.areas, consoles := t.consoles, records := t.records, retained := t.retained, time := t.time
    owed := t.owed, plant := t.plant, console := t.console, latched := t.latched, statSeq := t.statSeq
    statSent := t.statSent }

/-! ## Notices -/

/-- The areas of the points, that of a point without a definition among them: those that slot changes may name. -/
def State.pointAreas (s : State) : List Nat := ascending (0 :: s.tables.points.map fun e => e.2.area)

/-- Each ATTACHED console that `q` picks holds the notice after an event with slot changes, where its queue has room for all
that such an event may queue beside it: a NOTE HANDOVER of each record, a NEW_ALARM of each area, a NOTE HORN (R99 to
R101). -/
def Told (n : Notice) (q : Console → Prop) (s t : State) : Prop :=
  risingKeys s.consoles = true → ∀ a c, lookup s.consoles a = some c → c.attached = true → q c →
    c.notices.length + s.records.length + s.pointAreas.length + 2 ≤ 32 →
    ∃ k, lookup t.consoles a = some k ∧ n ∈ k.notices

/-- An operator seated at the console has VIEW in an area (R100). -/
def viewsArea (s : State) (area : Nat) (c : Console) : Prop :=
  (c.operators.any fun op => s.hasRight op area .view) = true

/-- The counts of a review list: all entries, REVIEWED, RESOLVED and UNREVIEWED ones (R120). -/
def countsOf (l : List ReviewEntry) : ReviewCounts :=
  let number (st : ReviewState) : Nat := l.countP fun e => e.state == st
  ⟨l.length, number .reviewed, number .resolved, number .unreviewed⟩

/-- The consoles of a record's two parties take a NOTE HANDOVER with the counts of its list, one where they are the same,
and no other console changes (R120, R132). -/
def PartiesTold (h : Handover) (st : HandoverState) (r : Option AbortReason) (s t : State) : Prop :=
  ∀ a, lookup t.consoles a = (lookup s.consoles a).map fun c =>
    if a = h.outConsole ∨ a = h.inConsole then c.take (.handover h.number h.kind st r (countsOf h.list)) else c

/-! ## The tables of the alarm classes (R10 to R12) -/

/-- The state a report leaves a slot in, and whether the occurrence advances; none where the slot is freed. A TRACKING
slot is never in RETURNED_UNACK. -/
def reportTable : LatchClass → Condition → AlarmState → Option (AlarmState × Bool)
  | _, .active, .returnedUnack => some (.activeUnack, true)
  | _, .active, st => some (st, false)
  | .tracking, .normal, _ => none
  | _, .normal, .activeUnack => some (.returnedUnack, false)
  | .latched, .normal, .activeAcked => none
  | .ringback, .normal, .activeAcked => some (.returnedUnack, true)
  | _, .normal, .returnedUnack => some (.returnedUnack, false)

/-- The occurrence after an advance: from 65535 to 1 (R8). -/
def nextOccurrence (n : Nat) : Nat := if n ≥ 65535 then 1 else n + 1

/-- The slot a report leaves, by the table of its point's class, with the timestamps of R9; overlays as they were. -/
def slotAfterReport (k : LatchClass) (c : Condition) (now : Stamp) (sl : Slot) : Option Slot :=
  (reportTable k c sl.state).map fun r =>
    if r = (sl.state, false) then sl
    else
      { sl with
        state := r.1, occ := if r.2 then nextOccurrence sl.occ else sl.occ, last := now, ackOp := none
        onset := if r.1 = .activeUnack then now else sl.onset }

/-- A slot but for its overlays. -/
def Slot.bare (sl : Slot) : Slot := { sl with shelved := false, chatter := false, suppressed := false, stale := false }

/-- The dynamic state of a point after a report (R27 stage 1, R51). -/
def dynAfterReport (d : PointDef) (y : PointDyn) (c : Condition) : PointDyn :=
  if y.cond = c then y
  else { cond := c, score := min 255 (y.score + 16), held := y.held || decide (d.chatterOn ≤ min 255 (y.score + 16)) }

/-- One point record of a PREP that reports condition `c` of a defined point `p` from its controller (R25, R26). -/
abbrev PointReport (s : State) (f : Frame) (d : List Byte) (p : Nat) (c : Condition) : Prop :=
  arrives .plant s f = true ∧ lookup s.controllers f.source.toNat ≠ none ∧ toOwnOrAll s f = true
    ∧ f.recs = [⟨0x01#8, d⟩] ∧ (d.length = 3 ∨ d.length = 9) ∧ field2 d 0 = p ∧ field1 d 2 = c.code ∧ p < 8192
    ∧ (s.pointDef p).defined = true ∧ (s.pointDef p).controller = f.source.toNat ∧ s.time.Sound

/-- The queue entry a report leaves, by the table of its point's class; none where it leaves the queue (R19). -/
def entryAfterReport : LatchClass → Condition → QEntry → Option QEntry
  | .tracking, .normal, _ => none
  | .tracking, .active, q => some q
  | _, c, q => some { q with returned := c == .normal }

/-- A report of the point makes a counted onset (R44): the point is neither shelved nor held before the report. -/
def countsOnset (s : State) (p : Nat) : Bool := !s.shelved p && !(s.dynOf p).held

/-- One ACTIVE point record of a PREP, from the controller of a defined point that has no slot and is not queued, while slot
`i` is the free one of lowest index (R17, R25, R26). -/
abbrev OnsetReport (s : State) (f : Frame) (d : List Byte) (p i a : Nat) : Prop :=
  arrives .plant s f = true ∧ lookup s.controllers f.source.toNat ≠ none ∧ toOwnOrAll s f = true
    ∧ f.recs = [⟨0x01#8, d⟩] ∧ (d.length = 3 ∨ d.length = 9) ∧ field2 d 0 = p ∧ field1 d 2 = 1 ∧ p < 8192
    ∧ (s.pointDef p).defined = true ∧ (s.pointDef p).controller = f.source.toNat ∧ (s.pointDef p).area = a
    ∧ s.slotOf p = none ∧ s.queued p = false ∧ i < 1024 ∧ lookup s.slots i = none
    ∧ (∀ j, j < i → lookup s.slots j ≠ none) ∧ s.time.Sound

/-- The weight of a counted onset (R45). -/
def onsetWeight : Priority → Nat
  | .urgent => 64 | .high => 32 | .medium => 16 | .low => 8

/-- An area after an event that moves its generation where `moved` and adds an onset of priority `pr` to its load where
`counted` (R16, R44, R45). -/
def Area.afterReport (r : Area) (p : AreaParams) (moved counted : Bool) (pr : Priority) : Area :=
  let load := if counted then min 65535 (r.load + onsetWeight pr) else r.load
  { r with
    generation := if moved then (r.generation + 1) % 65536 else r.generation, load := load
    flood := r.flood || (counted && decide (p.fOn ≤ load)) }

/-- The AREP of an alarm action in an event with the timestamp `now`, as an entry of OWN (R63, R174). -/
def arepAt (s : State) (now : Stamp) (r : Report) : OwnEntry :=
  ⟨generated s Kind.arep 255 0 (BitVec.ofNat 16 ((s.arepSeq + 1) % 65536))
    (BitVec.ofNat 16 (match r.actor with | some a => a.operator | none => 0)) [r.record now], false⟩

/-- The AREP of an alarm action in the event of a telegram. -/
def arepOf (s : State) (ms : Nat) (r : Report) : OwnEntry := arepAt s (s.stampAt ms) r

/-- The report in `f` sends nothing but, where it starts a chatter hold, the AREP CHATTER_HOLD with the occurrence of the
point's slot after it: stated where OWN has room and the event sends no STAT of FLOOD_ANY (R51, R63, R64). -/
def HoldReported (ms : Nat) (f : Frame) (p : Nat) (s t : State) : Prop :=
  let a := (s.pointDef p).area
  let h := s.heard ms .plant f
  h.plant.ownRoom = true →
    s.engineering = [] ∨ s.isLatched .floodAny = true ∨ (t.area a).flood = (s.area a).flood →
    t.plant = if (t.dynOf p).held && !(s.dynOf p).held then
        h.plant.joinOwn (arepOf s ms
          { action := .chatterHold, point := p, area := a, occ := (t.slotOf p).map fun x => x.2.occ })
      else h.plant

/-- The snapshot set of a controller holds point `q` (R30). -/
def State.inSnapshot (s : State) (address q : Nat) : Bool :=
  (lookup s.controllers address).any fun k => k.snapSet.contains q

/-- The report of condition `c` for point `p` in `f` brings its controller's snapshot set up to date in RECEIVING, and in
no other phase; beside it and the liveness that every telegram counts for, no controller changes (R37). -/
def SnapshotFollows (ms : Nat) (f : Frame) (p : Nat) (c : Condition) (s t : State) : Prop :=
  let me := f.source.toNat
  let h := s.heard ms .plant f
  let bare (k : Controller) : Controller := { k with snapSet := [] }
  (∀ a, (lookup t.controllers a).map bare = (lookup h.controllers a).map bare)
    ∧ (∀ a, a ≠ me → lookup t.controllers a = lookup s.controllers a)
    ∧ ∀ q, t.inSnapshot me q =
        if (lookup h.controllers me).any (fun k => k.phase == .receiving) = true ∧ q = p then c == .active
        else h.inSnapshot me q

/-! ## Areas that change hands and records that end -/

/-- An area taken by `h`, by a claim or a forced assignment at `now` (R106, R107, R114, R116, R143, R144): it is HELD by
`h`, the contexts of that operator have left its relief stack, its retained entry stands, the journal ends in the entry
of kind `k`, and no other area has changed. -/
def AreaTaken (a : Nat) (h : Holder) (k : JournalKind) (now : Stamp) (s t : State) : Prop :=
  (∀ b, t.area b = if b = a then { s.area a with
        authority := .held, holder := some h, graceLeft := 0
        relief := (s.area a).relief.filter fun c => c.operator != h.operator }
      else s.area b)
    ∧ (lookup t.retained.areas a).getD {}
        = ⟨some h, (s.area a).relief.filter fun c => c.operator != h.operator⟩
    ∧ t.retained.journalSeq = (s.retained.journalSeq + 1) % 4294967296
    ∧ t.retained.journal.getLast? = some
        { kind := k, seq := (s.retained.journalSeq + 1) % 4294967296, time := now, areas := [a]
          outgoing := s.holderOp a, incoming := some h.operator
          contexts := ((s.area a).relief.filter fun c => c.operator == h.operator).map fun c => (a, c) }

/-- A handover record that has ended ABORTED with a reason at `now` (R140, R144): it and its summary are gone, its areas
have no open record and keep their authority, holder, grace and relief stack, the journal ends in its entry, and no
other record has changed. -/
def RecordAborted (h : Handover) (r : AbortReason) (now : Stamp) (s t : State) : Prop :=
  t.records = s.records.filter (fun g => !(g.number == h.number))
    ∧ (∀ x ∈ t.retained.summaries, x.number ≠ h.number)
    ∧ (∀ a, t.area a = if a ∈ h.areas then { s.area a with openRecord := none } else s.area a)
    ∧ t.retained.journalSeq = (s.retained.journalSeq + 1) % 4294967296
    ∧ t.retained.journal.getLast? = some
        { kind := .aborted, seq := (s.retained.journalSeq + 1) % 4294967296, time := now, areas := h.areas
          number := some h.number, recordKind := some h.kind, outgoing := some h.outOp, incoming := some h.inOp
          reason := some r, counts := some (h.list.length, h.reviewed, h.resolved) }

/-- The authority record of an area forced to `h`, or to no operator (R116). -/
def Area.forced (r : Area) : Option Holder → Area
  | some h =>
    { r with authority := .held, holder := some h, graceLeft := 0
             relief := r.relief.filter fun c => c.operator != h.operator }
  | none => { r with authority := .unheld, holder := none, graceLeft := 0 }

/-- Area `a`, named by the open record `g`, is forced to `h`, or to no operator, at `now` (R116, R140, R144): the record and
its summary are gone and its areas have no open record; the area's authority, holder, grace and relief stack are as the
assignment leaves them and its retained entry stands; every other area keeps its own; and the journal ends in ABORTED with
AUTHORITY_LOST and then FORCE. -/
def AreaForcedFrom (a : Nat) (g : Handover) (h : Option Holder) (now : Stamp) (s t : State) : Prop :=
  t.records = s.records.filter (fun x => !(x.number == g.number))
    ∧ (∀ x ∈ t.retained.summaries, x.number ≠ g.number)
    ∧ (∀ b, t.area b =
        if b = a then { (s.area a).forced h with openRecord := none }
        else if b ∈ g.areas then { s.area b with openRecord := none } else s.area b)
    ∧ (lookup t.retained.areas a).getD {} = ⟨h, ((s.area a).forced h).relief⟩
    ∧ t.retained.journalSeq = (s.retained.journalSeq + 2) % 4294967296
    ∧ t.retained.journal.drop (t.retained.journal.length - 2) =
        [{ kind := .aborted, seq := (s.retained.journalSeq + 1) % 4294967296, time := now, areas := g.areas
           number := some g.number, recordKind := some g.kind, outgoing := some g.outOp, incoming := some g.inOp
           reason := some .authorityLost, counts := some (g.list.length, g.reviewed, g.resolved) },
         { kind := .force, seq := (s.retained.journalSeq + 2) % 4294967296, time := now, areas := [a]
           outgoing := s.holderOp a, incoming := h.map Holder.operator
           contexts := (h.map fun x => ((s.area a).relief.filter fun c => c.operator == x.operator).map fun c =>
             (a, c)).getD [] }]

/-- The areas held from the seats of a lost console are in GRACE under their holder (R108). -/
def SeatsInGrace (address : Nat) (c : Console) (s t : State) : Prop :=
  ∀ a h, a < 16 → (s.area a).authority = .held → (s.area a).holder = some h → h.console = address →
    h.seat = 1 ∨ h.seat = 2 → c.seatOp h.seat = some h.operator →
    (t.area a).authority = .grace ∧ (t.area a).holder = some h ∧ (t.area a).graceLeft = (s.areaParams a).grace

/-- A controller's entry no longer configures it (R33, R41, R146, R156): its records are gone, and where it was LIVE the
commands to it have ended and its points' slots carry STALE. -/
def ControllerLeft (st : Station) (s t : State) : Prop :=
  ∀ a, controllerAddress (some st) = some a → lookup t.controllers a = none
    ∧ (s.controllerLive a = true → (∀ c ∈ t.commands, c.controller ≠ a)
      ∧ ∀ j sl, lookup t.slots j = some sl → (s.pointDef sl.point).controller = a → sl.stale = true)

/-- A console's entry no longer configures it (R87, R89, R108): its record is gone, and where it was ATTACHED the areas held
from its seats are in GRACE. -/
def ConsoleLeft (st : Station) (s t : State) : Prop :=
  ∀ a c, consoleAddress (some st) = some a → lookup s.consoles a = some c →
    lookup t.consoles a = none ∧ (c.attached = true → SeatsInGrace a c s t)

/-- A station entry has left the table. -/
def StationLeft (st : Station) (s t : State) : Prop := ControllerLeft st s t ∧ ConsoleLeft st s t

/-- What the removal of an operator in the roster leaves (R85, R91, R112, R142): his session is over, his areas in HELD
or GRACE are ORPHANED and no other authority has changed, and no open record names him. -/
def OperatorRemoved (op : Nat) (s t : State) : Prop :=
  (∀ c n, s.session op = some (c, n) → ((lookup t.consoles c).bind fun k => k.seatOp n) = none)
    ∧ (∀ a, a < 16 → { t.area a with openRecord := (s.area a).openRecord } =
        if ((s.area a).authority = .held ∨ (s.area a).authority = .grace)
            ∧ (s.area a).holder.any (fun h => h.operator == op) = true then
          { s.area a with authority := .orphaned, graceLeft := 0 }
        else s.area a)
    ∧ ∀ h ∈ t.records, h.outOp ≠ op ∧ h.inOp ≠ op

/-! ## Field items (R181) -/

/-- Field items in order: code, size and value of each. -/
def fieldItems (l : List (Nat × List Byte)) : List Byte := l.flatMap fun x => b1 x.1 ++ b1 x.2.length ++ x.2

/-- The item of a field that may be absent: left out when it is. -/
def ifPresent (code : Nat) (v : Option (List Byte)) : List (Nat × List Byte) := (v.map fun x => (code, x)).toList

/-! ## Slots freed by management -/

/-- The generation of an area that a record of the open MREQ names: it advances once in the request (R16, R183). -/
def nextGeneration (r : Request) (a : Nat) (s : State) : Nat :=
  if a ∈ r.moved then (s.area a).generation else ((s.area a).generation + 1) % 65536

/-- The queue entry `q` has been admitted into slot `i` at `now` (R20, R21). -/
def HeadAdmitted (i : Nat) (q : QEntry) (now : Stamp) (t : State) : Prop :=
  ∃ x, lookup t.slots i = some x ∧ x.point = q.point ∧ x.occ = 1 ∧ x.onset = q.onset ∧ x.last = now ∧ x.ackOp = none
    ∧ x.state = if q.returned then .returnedUnack else .activeUnack

/-! ## Rewriting a point -/

/-- The definition of point `p` is `new`, its chatter state is cleared, its condition stays, a shelf entry that cannot
stand beside the definition is gone, and no other point has changed (R4). -/
def PointRewritten (p : Nat) (new : PointDef) (s t : State) : Prop :=
  (∀ q, t.pointDef q = if q = p then new else s.pointDef q)
    ∧ t.tables = { s.tables with points := t.tables.points }
    ∧ (∀ q, t.dynOf q = if q = p then { s.dynOf p with score := 0, held := false } else s.dynOf q)
    ∧ t.shelf = if new.defined = false ∨ new.priority = .urgent ∨ new.shelveLimit = 0 then
        s.shelf.filter (fun x => !(x.point == p)) else s.shelf

/-! ## Unshelving -/

/-- What the removal of a point's shelf entry leaves, with `now` the timestamp of its event (R13, R14, R44 to R46, R68): the
point is on the shelf list no more; without a slot no slot and no area changes; with one, an alarm whose condition is
ACTIVE is ACTIVE_UNACK at the next occurrence, counted where the point is not held, and another keeps its state and both
its times (log 43). -/
def Unshelved (p : Nat) (now : Stamp) (s t : State) : Prop :=
  t.shelf = s.shelf.filter (fun x => !(x.point == p))
    ∧ (s.slotOf p = none → t.slots = s.slots ∧ ∀ a, t.area a = s.area a)
    ∧ ∀ i sl, s.slotOf p = some (i, sl) →
        let d := s.pointDef p
        let again := sl.state != .returnedUnack && (s.dynOf p).cond == .active
        let counted := again && !(s.dynOf p).held
        let kept : Slot := { sl with
          shelved := false
          suppressed := (sl.suppressed && (s.area d.area).flood)
            || (counted && (t.area d.area).flood && d.priority == .low && d.suppressible) }
        lookup t.slots i = some (if again then
            { kept with
              state := .activeUnack, occ := nextOccurrence sl.occ, onset := now, last := now, ackOp := none }
          else kept)
          ∧ OtherSlotsKept i s t
          ∧ ∀ b, t.area b =
              if b = d.area then (s.area b).afterReport (s.areaParams b) true counted d.priority else s.area b

/-- The AREP of the removal of a shelf entry, with the slot's occurrence and state after it, where no STAT stands before it
(R63, R64). -/
def UnshelvingReported (p : Nat) (now : Stamp) (act : Action) (who : Option Actor) (s t : State) : Prop :=
  s.time.Sound → s.engineering = [] ∨ s.isLatched .floodAny = true →
    t.plant = s.plant.joinOwn (arepAt s now
      { action := act, point := p, area := (s.pointDef p).area, occ := (t.slotOf p).map fun x => x.2.occ
        stateAfter := (t.slotOf p).map fun x => x.2.state.code, actor := who })

/-! ## Start-up -/

/-- The RESET_ABORT entries of a start-up, one for each retained summary (R144, R145). -/
def resetAborts (kept : Retained) : List JournalEntry :=
  kept.summaries.mapIdx fun i x =>
    { kind := .resetAbort, seq := (kept.journalSeq + i + 1) % 4294967296, time := ⟨true, 0, 0⟩, areas := x.areas
      number := some x.number, recordKind := some x.kind, outgoing := some x.outOp, incoming := some x.inOp
      reached := some x.state }

/-- A start-up sends STATs: a flag it latches is enabled, and some ENGINEERING station is configured (R191). -/
def startStats (t : State) (lost : Bool) : Bool :=
  !t.engineering.isEmpty && ((!t.memory.valid && t.tables.params.enables.getLsbD 9)
    || (lost && t.tables.params.enables.getLsbD 10))

/-- The STATs of a start-up (R191, R193): for each flag that it latches and whose notice enable is set, CONFIG_INVALID
before RETAINED_LOST, one to each configured ENGINEERING station. -/
def startTelegrams (t : State) (lost : Bool) : List OwnEntry :=
  let stat (x : StatusFlag) (latched a : Nat) : OwnEntry :=
    ⟨generated t 0x42#8 a 0 1 0 [⟨0x91#8, b1 x.position ++ b2 latched⟩], false⟩
  (if !t.memory.valid && t.tables.params.enables.getLsbD 9 then t.engineering.map (stat .configInvalid 512) else [])
    ++ (if lost && t.tables.params.enables.getLsbD 10 then
      t.engineering.map (stat .retainedLost (if t.memory.valid then 1024 else 1536)) else [])

/-- What a start-up leaves (R193): `kept` is the retained store after its check, `t` the state after. -/
structure StartedUp (cause : ResetCause) (kept : Retained) (plantUp consoleUp : Bool) (s t : State) : Prop where
  tables      : t.tables = if s.memory.valid then s.memory.copy else {}
  memory      : t.memory = s.memory
  alarms      : t.dyn = [] ∧ t.slots = [] ∧ t.queue = [] ∧ t.shelf = []
  areas       : ∀ a, a < 16 → t.area a =
    match (lookup kept.areas a).getD {} with
    | ⟨some h, relief⟩ =>
      { authority := .grace, holder := some h, graceLeft := (t.areaParams a).grace, relief := relief }
    | ⟨none, relief⟩ => { authority := .unheld, relief := relief }
  consoles    : ∀ a, lookup t.consoles a = if t.tables.lists .console .console a then some {} else none
  controllers : ∀ a, lookup t.controllers a = if t.tables.lists .controller .plant a then some {} else none
  gate        : t.commands = [] ∧ t.tagCounter = 0
  handover    : t.records = [] ∧ t.retained.counter = kept.counter ∧ t.retained.summaries = []
  retained    : t.retained.areas = kept.areas ∧ t.retained.cause = cause ∧ t.retained.lost = kept.lost
    ∧ t.retained.count = min 65535 (kept.count + 1)
  journal     : t.retained.journalSeq % 4294967296 = (kept.journalSeq + kept.summaries.length) % 4294967296
    ∧ t.retained.journal =
      if kept.summaries = [] then kept.journal
      else (kept.journal ++ resetAborts kept).drop ((kept.journal ++ resetAborts kept).length - 64)
  time        : t.time = {}
  ports       : t.console = { up := consoleUp } ∧ t.plant.up = plantUp ∧ t.plant.forward = []
    ∧ t.plant.malformed = 0 ∧ t.plant.dropped = 0 ∧ (plantUp = false → t.plant = { up := false })
    ∧ (plantUp = true → t.engineering.length ≤ 4 →
        t.plant = (startTelegrams t kept.lost).foldl Port.joinOwn { up := true })
  flags       : t.isLatched .configInvalid = !s.memory.valid ∧ t.isLatched .retainedLost = kept.lost
    ∧ (∀ x : StatusFlag, x ≠ .configInvalid → x ≠ .retainedLost → x ≠ .egressDrop → t.isLatched x = false)
    ∧ (t.engineering.length ≤ 4 → t.isLatched .egressDrop = (!plantUp && startStats t kept.lost))
    ∧ t.statSeq = if startStats t kept.lost then 1 else 0
  management  : t.request = none ∧ t.store = none ∧ t.heldMreps = [] ∧ t.resetWaits = false ∧ t.owed = []
  numbers     : t.arepSeq = 0 ∧ t.turn = 0
  commands    : t.pending = s.pending

end Sys2Proof.Machine
end

