-- ==== Sys2Proof/Certificates/Slice0/Obligations.lean ====
section
/-! DEFINITION. The statements for the provers. -/

open Sys2Proof Sys2Proof.Machine

/-! ## The machine as a whole -/

/-- A step takes the command at the front of the queue, and runs it with the queue's rest. -/
def Obligations.StepTakesTheFrontCommand : Prop :=
  ∀ (c : Instr) (s : State), step { s with pending := c :: s.pending } = exec c s

/-- `State.reset` is what a first power-on leaves: a lost retained store, a configuration memory never stored, and both
links UP (the choice of log 1). -/
def Obligations.ResetIsAFirstPowerOn : Prop :=
  exec (.powerOn false true true) State.reset = .next State.reset

/-- At reset every invariant stated below holds: both ports are sound, no list is above its capacity, the state is in its
canonical form, the alarm table, the time base and the authority records are sound, and no URGENT alarm is silenced. -/
def Obligations.ResetMeetsTheBounds : Prop :=
  State.reset.PortsSound ∧ State.reset.WithinCapacity ∧ State.reset.KeysRise ∧ State.reset.NumbersApart
    ∧ State.reset.ShelfOrdered ∧ State.reset.AlarmTableSound ∧ State.reset.time.Sound ∧ State.reset.AuthoritySound ∧ State.reset.UrgentSound

/-- Every step keeps both ports sound: FORWARD at most 64 and OWN at most 128 telegrams, an OWN turn count of 0 to 2,
nothing waiting on or sent from a DOWN port, and nothing waiting while the arbiter is free (R169, R173 to R175). -/
def Obligations.StepKeepsPortsSound : Prop :=
  ∀ s t : State, s.PortsSound → step s = .next t → t.PortsSound

/-- Every step keeps every bounded list within its capacity (R19, R65, R99, R120, R125, R143, R147). -/
def Obligations.StepKeepsCapacities : Prop :=
  ∀ s t : State, s.WithinCapacity → step s = .next t → t.WithinCapacity

/-- Every step keeps every keyed table by rising keys, the numbers of records, the tags of commands and the points of the
shelf list apart: the canonical form of the state. And every step keeps the shelf list in ascending order of ticks remaining
(R65). -/
def Obligations.StepKeepsCanonicalForm : Prop :=
  (∀ s t : State, s.KeysRise → s.NumbersApart → step s = .next t → t.KeysRise ∧ t.NumbersApart)
  ∧ ∀ s t : State, s.NumbersApart → s.ShelfOrdered → step s = .next t → t.ShelfOrdered

/-- Every step keeps the alarm table sound: at most one slot for each point, at most 1024 slots, no point both in a slot
and in the queue, and no TRACKING alarm in RETURNED_UNACK (R7, R10). -/
def Obligations.StepKeepsAlarmTableSound : Prop :=
  ∀ s t : State, s.AlarmTableSound → step s = .next t → t.AlarmTableSound

/-- Every step keeps the time base in its ranges, and in UNSET the high mark carries UNSYNC (R161, R162). Between two resets
the high mark, the latest timestamp given, never becomes older (R163). -/
def Obligations.StepKeepsTimeBaseSound : Prop :=
  (∀ s t : State, s.time.Sound → step s = .next t → t.time.Sound)
  ∧ ∀ (c : Instr) (s t : State), s.time.Sound → s.settled = true → (∀ k u v, c ≠ .powerOn k u v) → c ≠ .resetLine →
    exec c s = .next t → t.time.high.older s.time.high = false

/-- Every step keeps authority, sessions and open records in agreement: while an area is HELD its holder sits at the holder
seat of an ATTACHED console of class FULL (R104); no operator sits at two seats (R96); the incoming operator of an open
record sits at its incoming seat (R141); each area carries the number of the one open record that names it (R117, R120);
and every console there is, is configured (R81, R89). -/
def Obligations.StepKeepsAuthoritySound : Prop :=
  ∀ s t : State, s.KeysRise → s.NumbersApart → s.AuthoritySound → step s = .next t → t.AuthoritySound

/-- URGENT alarms stand out (R60). Every step keeps them unshelved and unsuppressed. And the slot of an URGENT point leaves
ACTIVE_UNACK or RETURNED_UNACK for ACTIVE_ACKED or no slot only by an ACK of its point from an operator whom R57 permits, by
a report or snapshot where its class is TRACKING, by a start-up, or by what an open MREQ still carries: a DISCARD_SLOT, a
WRITE or a RESET. -/
def Obligations.StepKeepsUrgentAlarms : Prop :=
  (∀ s t : State, s.KeysRise → s.AlarmTableSound → s.UrgentSound → step s = .next t → t.UrgentSound)
  ∧ ∀ (c : Instr) (p : Nat) (s t : State), s.AlarmTableSound → (s.pointDef p).priority = .urgent → exec c s = .next t →
    SlotSettled p s t →
    (∃ ms f, c = .ack ms f ∧ (s.settled = true →
        ∃ d, f.recs = [⟨0x21#8, d⟩] ∧ field2 d 0 = p ∧ urgentPermitted s f.operator.toNat (s.pointDef p).area = true))
    ∨ ((s.pointDef p).latch = .tracking ∧ ∃ ms f, c = .prep ms f ∨ c = .psnap ms f)
    ∨ (∃ k u v, c = .powerOn k u v) ∨ c = .resetLine ∨ s.resetWaits = true
    ∨ ∃ r, s.request = some r ∧ ∃ x ∈ r.todo, x.code = 0x85#8 ∨ x.code = 0x83#8 ∨ x.code = 0x89#8

/-- The copy that the configuration memory holds changes only where a STORE completes: to the copy of the tables that the
STORE in progress took, at a completion event that reports success, or at the fourth tick, by which it has completed at the
latest; and while an MREQ is open, at no other command (R187, R188). That the part itself completes an overdue STORE at a
TICK is the model's choice (log 10). -/
def Obligations.ConfigurationCopyChangesOnlyAtCompletion : Prop :=
  ∀ (c : Instr) (s t : State), exec c s = .next t → t.memory.copy ≠ s.memory.copy →
    (c = .tick ∨ ∃ good, c = .storeCompletion good)
    ∧ (s.settled = true → ∃ j, s.store = some j ∧ t.memory.copy = j.copy
        ∧ (c = .tick → 3 ≤ j.age) ∧ ∀ good, c = .storeCompletion good → good = true)

/-! ## Start-up (R6, R24, R30, R81, R107, R187, R192, R193) -/

/-- Power-on, the reset line and a management reset whose moment has come each leave what R193 gives: the retained store
is kept or cleared, with a RESET_ABORT entry for each summary, the configured consoles and controllers are fresh, the
latched flags are those of R191, each port has its link state, its counts 0 and its queues empty but for the STATs of
those flags (R169, R170), and the rest is as after reset. A management reset whose moment has come takes place before a
power-on or the reset line, which then acts on what it left (R189). When that moment has come is read as in log 14, and of
a STORE that a later telegram started as in log 63; the STATs of a start-up carry the advanced number, 1 (log 68), join in
station table order (log 73), and where the plant link is DOWN are dropped, use up the number (log 36) and latch
EGRESS_DROP (log 74); a system reset leaves each link state as it was (log 37); a SYSTEM_COMMAND_RESET that does not wait
changes nothing, which is the model's choice (log 39). -/
def Obligations.StartUpFormsTheState : Prop :=
  (∀ (keep plantUp consoleUp : Bool) (s : State), s.request = none → ¬ s.resetMoment →
    ∃ t, exec (.powerOn keep plantUp consoleUp) s = .next t
      ∧ StartedUp .powerOn (if keep then s.retained else { lost := true }) plantUp consoleUp s t)
  ∧ (∀ s : State, s.request = none → ¬ s.resetMoment →
    ∃ t, exec .resetLine s = .next t ∧ StartedUp .systemLine s.retained s.plant.up s.console.up s t)
  ∧ (∀ s : State, s.request = none → s.resetMoment →
    ∃ t, exec .systemCommandReset s = .next t
      ∧ StartedUp .systemCommand s.retained s.plant.up s.console.up s t
      ∧ (∃ u, exec .resetLine s = .next u
          ∧ StartedUp .systemLine t.retained s.plant.up s.console.up t u)
      ∧ ∀ keep plantUp consoleUp, ∃ u, exec (.powerOn keep plantUp consoleUp) s = .next u
          ∧ StartedUp .powerOn (if keep then t.retained else { lost := true }) plantUp consoleUp t u)
  ∧ (∀ s : State, s.request = none → ¬ s.resetMoment → exec .systemCommandReset s = .next s)

/-! ## The ports (R169 to R175) -/

/-- LINK_DOWN empties the port, counts what FORWARD lost, and latches EGRESS_DROP where OWN lost a telegram; behind the
plant port every controller is STALE in IDLE, the slots of those that were LIVE carry STALE, and their commands have
ended; behind the console port every console is DETACHED. LINK_UP opens the port and changes nothing else. -/
def Obligations.LinkStateFollowsTheLink : Prop :=
  (∀ (ms : Nat) (p : PortId) (s : State), s.ready = true → (s.port p).up = true →
    ∃ t, exec (.linkDown ms p) s = .next t
      ∧ t.port p = { s.port p with
          up := false, forward := [], own := [], sending := none
          dropped := min 65535 ((s.port p).dropped + (s.port p).forward.length
            + match (s.port p).sending with | some (.forward _) => 1 | _ => 0) }
      ∧ ((s.port p).own ≠ [] ∨ (∃ e, (s.port p).sending = some (.own e)) → t.isLatched .egressDrop = true)
      ∧ (p = .plant →
          (∀ a c, lookup t.controllers a = some c → c.live = false ∧ c.phase = .idle)
          ∧ (∀ i sl, lookup t.slots i = some sl → s.controllerLive (s.pointDef sl.point).controller = true →
              sl.stale = true)
          ∧ (∀ c ∈ t.commands, s.controllerLive c.controller = false))
      ∧ (p = .console → ∀ a c, lookup t.consoles a = some c → c.attached = false)
      ∧ t.tables = s.tables ∧ t.memory = s.memory ∧ t.dyn = s.dyn ∧ t.queue = s.queue ∧ t.shelf = s.shelf
      ∧ t.store = s.store ∧ t.pending = s.pending)
  ∧ (∀ (p : PortId) (s : State), s.settled = true →
    ∃ t, exec (.linkUp p) s = .next t ∧ t.port p = { s.port p with up := true }
      ∧ t.port (otherPort p) = s.port (otherPort p)
      ∧ t = { s with plant := t.plant, console := t.console, statSent := false })

/-- MALFORMED_TELEGRAM: exactly a payload shorter than the header, of another version, from address 0 or the part's own,
counting more than 16 records, whose counted records run past its end or occupy more than 1200 bytes fails the line checks;
a payload that fails them is counted at its port, up to 65535, and has no other effect (R170). -/
def Obligations.MalformedTelegramIsCounted : Prop :=
  (∀ (ms : Nat) (p : PortId) (payload : List Byte) (s : State), s.ready = true → (s.port p).up = true →
    parseTelegram s.ownAddress payload = none →
    exec (.malformedTelegram ms p payload) s
      = .next ((s.atArrival ms).setPort p
          { s.port p with malformed := min 65535 ((s.port p).malformed + 1) }))
  ∧ (∀ (own : Nat) (l : List Byte),
    (l.length < 10 ∨ l[2]? ≠ some 1#8 ∨ l[1]? = some 0#8 ∨ (∃ b, l[1]? = some b ∧ b.toNat = own)
      ∨ (∃ b, l[5]? = some b ∧ (16 < b.toNat ∨ l.length < recordStart l b.toNat ∨ 1210 < recordStart l b.toNat))) ↔
    parseTelegram own l = none)

/-- The bytes of a telegram that fits the line read back as that telegram, header, records and padding (R170, R176). -/
def Obligations.TelegramBytesReadBack : Prop :=
  ∀ (own : Nat) (t : Telegram), lineOk own t.frame = true → parseTelegram own t.bytes = some t

/-- PASS_THROUGH: a kind the part does not name, an MREQ the responder does not take, and a console kind from a station
that is no configured console join the FORWARD queue of the other port, whole and unchanged; a queue that is full and a
DOWN port drop and count it. -/
def Obligations.ForwardedTelegramJoinsTheOtherPort : Prop :=
  (∀ (ms : Nat) (p : PortId) (kind : Byte) (f : Frame) (s : State), arrives p s f = true →
    (namedKind kind = false
      ∨ (kind = 0x40#8 ∧ (p = .console ∨ toOwn s f = false ∨ mreqTaken s f.source.toNat = false))
      ∨ (p = .console ∧ consoleKind kind = true ∧ lookup s.consoles f.source.toNat = none)) →
    exec (.passThrough ms p kind f) s
      = .next ((s.heard ms p f).modPort (otherPort p) fun q => q.joinForward ⟨kind, f⟩))
  ∧ (∀ (q : Port) (t : Telegram), q.up = true → q.forward.length < 64 →
      q.joinForward t = ({ q with forward := q.forward ++ [t] } : Port).startNext)
  ∧ (∀ (q : Port) (t : Telegram), q.up = false ∨ 64 ≤ q.forward.length →
      q.joinForward t = { q with dropped := min 65535 (q.dropped + 1) })

/-- LIVE, and each kind that R172 discards, does nothing but count for the liveness of its source: at the console port
its console's silence count becomes 0; at the plant port its controller's does, and a STALE controller in IDLE starts a
resynchronisation, whose SREQ joins OWN (R31, R34, R82, R172). The statement also takes in DISCARDED_TELEGRAM commands with a
frame that R172 hands to a row of its own (a PREP from a configured controller, say); that such a command only counts for
liveness is the model's choice (log 39). -/
def Obligations.DiscardedTelegramCountsForLiveness : Prop :=
  (∀ (ms : Nat) (p : PortId) (f : Frame) (s : State), arrives p s f = true →
    exec (.live ms p f) s = .next (s.heard ms p f))
  ∧ (∀ (ms : Nat) (p : PortId) (kind : Byte) (f : Frame) (s : State), arrives p s f = true →
    namedKind kind = true → kind ≠ 0x40#8 →
    (p = .plant ∨ consoleKind kind = false ∨ lookup s.consoles f.source.toNat ≠ none) →
    exec (.discardedTelegram ms p kind f) s = .next (s.heard ms p f))
  ∧ (∀ (ms : Nat) (f : Frame) (s : State),
      s.heard ms .console f = (s.atArrival ms).modConsole f.source.toNat fun c => { c with silence := 0 })
  ∧ (∀ (ms : Nat) (f : Frame) (s : State),
      (lookup s.controllers f.source.toNat).all (fun c => c.live || c.phase != .idle) = true →
      s.heard ms .plant f = (s.atArrival ms).modController f.source.toNat fun c => { c with silence := 0 })
  ∧ (∀ (ms : Nat) (f : Frame) (s : State) (c : Controller), lookup s.controllers f.source.toNat = some c →
      c.live = false → c.phase = .idle →
      lookup (s.heard ms .plant f).controllers f.source.toNat = some { c with
          silence := 0, phase := .requested, snapNumber := (c.snapNumber + 1) % 65536, sent := 1, wait := 5 }
      ∧ (s.heard ms .plant f).plant = s.plant.joinOwn
          ⟨generated s 0x12#8 f.source.toNat 0 (BitVec.ofNat 16 ((c.snapNumber + 1) % 65536)) 0 [], false⟩)

/-- The arbiter (R175): free, it sends the head of the only queue that waits; of two, the head of OWN below two turns and
else the head of FORWARD; a telegram from OWN raises the turn count up to 2 and one from FORWARD sets it to 0. The end
of a transmission frees it and makes the next choice. That TRANSMIT_END serves a waiting console of R102 exactly where it
frees the 128th place of the console port's OWN is the model's choice (log 15). -/
def Obligations.ArbiterChoosesTheNextTelegram : Prop :=
  (∀ (q : Port) (e : OwnEntry) (own : List OwnEntry), q.up = true → q.sending = none → q.own = e :: own →
      q.forward = [] ∨ q.ownTurn < 2 →
      q.startNext = { q with own := own, sending := some (.own e), ownTurn := min 2 (q.ownTurn + 1) })
  ∧ (∀ (q : Port) (t : Telegram) (l : List Telegram), q.up = true → q.sending = none → q.forward = t :: l →
      q.own = [] ∨ 2 ≤ q.ownTurn →
      q.startNext = { q with forward := l, sending := some (.forward t), ownTurn := 0 })
  ∧ (∀ (p : PortId) (s : State) (x : Sending), s.settled = true → (s.port p).sending = some x →
      p = .plant ∨ s.console.own.length < 128 →
      exec (.transmitEnd p) s
        = .next (s.beginEvent.setPort p ({ s.port p with sending := none } : Port).startNext))
  ∧ (∀ (s : State) (x : Sending) (a : Nat), s.settled = true → s.console.sending = some x →
      128 ≤ s.console.own.length → nextWaiting s = some a →
      ({ s.console with sending := none } : Port).startNext.ownRoom = true →
      exec (.transmitEnd .console) s
        = .next (serve a (s.beginEvent.setPort .console ({ s.console with sending := none } : Port).startNext)))

/-! ## The time base (R161 to R168) -/

/-- TMARK: the master's mark, carried forward to the next tick, is pending; the master silence is 0, and a mark outside
LOCKED leaves relock pending. A mark from another station has no effect on the time base. -/
def Obligations.TimeMarkBecomesPending : Prop :=
  (∀ (ms sec m : Nat) (f : Frame) (rest : List Rec) (s : State), arrives .plant s f = true →
    s.timeMaster = some f.source.toNat → toOwnOrAll s f = true → f.recs = ⟨0x02#8, b4 sec ++ b2 m⟩ :: rest →
    sec ≤ 4294967295 → m ≤ 999 →
    ∃ v, exec (.tmark ms f) s = .next { s.heard ms .plant f with
        time := { (s.atArrival ms).time with
          pending := some v, silence := 0
          relock := s.time.relock || s.time.state != .locked } }
      ∧ inMs v = min (4294967295 * 1000 + 999) (sec * 1000 + m + (1000 - (s.atArrival ms).time.elapsed)))
  ∧ (∀ (ms : Nat) (f : Frame) (s : State), arrives .plant s f = true → s.timeMaster ≠ some f.source.toNat →
    exec (.tmark ms f) s = .next (s.heard ms .plant f))

/-- In LOCKED and HOLDOVER no tick lowers the time value, and the value stays within its range (R162, R166). A timestamp
carries UNSYNC in UNSET alone; it is the tick value with the elapsed milliseconds, without them in a hold, but never
earlier than the high mark, which takes it (R163). TICK, where it counts no third silence, moves the time value and the hold
by the table of R165 and by R166, and latches TIME_STEP on a step of more than 2 seconds (in UNSET at the end of the range
by log 57). -/
def Obligations.TimeValueNeverDecreases : Prop :=
  (∀ b : TimeBase, b.state ≠ .unset → b.sec ≤ 4294967295 → b.ms ≤ 999 →
    (∀ v, b.pending = some v → v.1 ≤ 4294967295 ∧ v.2 ≤ 999) →
    (∀ v, b.projection = some v → v.1 ≤ 4294967295 ∧ v.2 ≤ 999) →
    b.high.sec ≤ 4294967295 → b.high.ms ≤ 999 →
    inMs (b.sec, b.ms) ≤ inMs (b.tick.1.sec, b.tick.1.ms)
      ∧ b.tick.1.sec ≤ 4294967295 ∧ b.tick.1.ms ≤ 999 ∧ b.tick.1.state ≠ .unset)
  ∧ (∀ s : State, s.time.Sound →
    let b := s.time
    let v := min (4294967295 * 1000 + 999) (inMs (b.sec, b.ms) + if b.held then 0 else b.elapsed)
    s.stamp.unsync = (b.state == .unset)
    ∧ inMs (s.stamp.sec, s.stamp.ms) = (if b.high.unsync = s.stamp.unsync then max v (inMs (b.high.sec, b.high.ms)) else v)
    ∧ s.stamp.sec ≤ 4294967295 ∧ s.stamp.ms ≤ 999 ∧ s.stamp.older b.high = false
    ∧ s.marked = { s with time := { b with high := s.stamp } } ∧ s.marked.stamp = s.stamp)
  ∧ (∀ s : State, s.settled = true → s.owed = [] → s.store = none → s.time.Sound →
    s.time.state ≠ .locked ∨ s.time.pending ≠ none ∨ s.time.silence < 2 →
    ∃ t, exec .tick s = .next t ∧ TimeTicked { s.time with elapsed := 0 } t.time
      ∧ t.isLatched .timeStep = (s.isLatched .timeStep || s.time.steps))

/-! ## Reports and the alarm table (R7 to R27, R44, R45, R51) -/

/-- One point record of a PREP for a point that has a slot: the slot moves by the table of its latch class, the point's
dynamic state by R51, and no other slot or point moves; with nobody queued, a freed slot is free (R10 to R12, R26, R27). A
re-onset counts where the point is neither shelved nor held (R44, R45) and takes SUPPRESSED by R46, and outside FLOOD
loses it; a ringback counts nothing and leaves SUPPRESSED as it is, like every other report (R14).
One for a queued point moves its entry by the table of R19, which counts a QUEUE_REONSET, and no slot. A report that
starts a chatter hold sends the AREP CHATTER_HOLD (R51), and in RECEIVING the snapshot set follows every report (R37). -/
def Obligations.ReportMovesTheSlotByItsClass : Prop :=
  (∀ (ms p i : Nat) (f : Frame) (d : List Byte) (c : Condition) (sl : Slot) (s : State), PointReport s f d p c →
    s.SlotsDistinct → (i, sl) ∈ s.slots → sl.point = p → s.queue = [] →
    ((s.pointDef p).latch = .tracking → sl.state ≠ .returnedUnack) →
    let a := (s.pointDef p).area
    let after := slotAfterReport (s.pointDef p).latch c (s.stampAt ms) sl
    let started := (dynAfterReport (s.pointDef p) (s.dynOf p) c).held && !(s.dynOf p).held
    let counted := c == .active && sl.state == .returnedUnack && countsOnset s p
    ∃ t, exec (.prep ms f) s = .next t
      ∧ (lookup t.slots i).map Slot.bare = after.map Slot.bare
      ∧ (∀ x, lookup t.slots i = some x →
          x.shelved = sl.shelved ∧ x.stale = sl.stale ∧ x.chatter = (sl.chatter || started)
          ∧ x.suppressed =
            if c = .active ∧ sl.state = .returnedUnack then
              (sl.suppressed && (s.area a).flood)
                || (counted && (t.area a).flood && (s.pointDef p).priority == .low && (s.pointDef p).suppressible)
            else sl.suppressed)
      ∧ OtherSlotsKept i s t
      ∧ (∀ b, t.area b = if b = a then
            (s.area a).afterReport (s.areaParams a) (after != some sl || (started && !sl.chatter)) counted
              (s.pointDef p).priority
          else s.area b)
      ∧ (∀ q, t.dynOf q = if q = p then dynAfterReport (s.pointDef p) (s.dynOf p) c else s.dynOf q)
      ∧ HoldReported ms f p s t ∧ SnapshotFollows ms f p c s t
      ∧ t.queue = [] ∧ t.console = s.console
      ∧ AlarmEventFrame { s with dyn := t.dyn, controllers := t.controllers } t)
  ∧ (∀ (ms p : Nat) (f : Frame) (d : List Byte) (c : Condition) (q : QEntry) (s : State), PointReport s f d p c →
    s.AlarmTableSound → q ∈ s.queue → q.point = p →
    let a := (s.pointDef p).area
    let after := entryAfterReport (s.pointDef p).latch c q
    let counted := c == .active && after != some q && countsOnset s p
    ∃ t, exec (.prep ms f) s = .next t
      ∧ t.queue = s.queue.filterMap (fun x => if x.point = p then after else some x)
      ∧ t.slots = s.slots
      ∧ (∀ b, t.area b = if b = a then
            (s.area a).afterReport (s.areaParams a) (after != some q) counted (s.pointDef p).priority
          else s.area b)
      ∧ (∀ x, t.dynOf x = if x = p then dynAfterReport (s.pointDef p) (s.dynOf p) c else s.dynOf x)
      ∧ HoldReported ms f p s t ∧ SnapshotFollows ms f p c s t ∧ t.console = s.console
      ∧ AlarmEventFrame { s with dyn := t.dyn, controllers := t.controllers, queue := t.queue } t)

/-- One ACTIVE point record of a PREP for a point with no slot, while a slot is free: the onset takes the free slot of
lowest index at occurrence 1 with the timestamp of its event, which the high mark takes; its area's generation advances; and
where the point is neither shelved nor held already its weight is added to the load, which enters FLOOD at F_on with a NOTE
FLOOD to the consoles of the area, and in FLOOD a LOW and suppressible one takes SUPPRESSED (R14, R16, R17, R44 to R46,
R163). -/
def Obligations.OnsetTakesTheLowestFreeSlot : Prop :=
  ∀ (ms p i a : Nat) (f : Frame) (d : List Byte) (s : State), OnsetReport s f d p i a →
    let counted := countsOnset s p
    ∃ t, exec (.prep ms f) s = .next t
      ∧ (∃ x, lookup t.slots i = some x ∧ x.point = p ∧ x.state = .activeUnack ∧ x.occ = 1 ∧ x.ackOp = none
          ∧ x.onset = s.stampAt ms ∧ x.last = s.stampAt ms ∧ x.shelved = s.shelved p
          ∧ x.chatter = (dynAfterReport (s.pointDef p) (s.dynOf p) .active).held
          ∧ x.suppressed =
            (counted && (t.area a).flood && (s.pointDef p).priority == .low && (s.pointDef p).suppressible)
          ∧ x.stale = !s.controllerLive f.source.toNat)
      ∧ OtherSlotsKept i s t
      ∧ (∀ b, t.area b = if b = a then
            (s.area a).afterReport (s.areaParams a) true counted (s.pointDef p).priority else s.area b)
      ∧ ((s.area a).flood = false → (t.area a).flood = true → Told (.flood a true) (viewsArea s a) s t)
      ∧ (∀ q, t.dynOf q = if q = p then dynAfterReport (s.pointDef p) (s.dynOf p) .active else s.dynOf q)
      ∧ t.time = { (s.atArrival ms).time with high := s.stampAt ms }
      ∧ HoldReported ms f p s t ∧ SnapshotFollows ms f p .active s t ∧ t.console = s.console
      ∧ AlarmEventFrame { s with dyn := t.dyn, controllers := t.controllers } t

/-- The victim of an onset (R18): a RETURNED_UNACK slot, not URGENT, of a priority not above the onset's; none of them is
of lower priority, and of those of its priority none has an older last transition; without such a slot there is none. -/
def Obligations.VictimIsTheLeastAndOldest : Prop :=
  ∀ (s : State) (pr : Priority),
    (∀ v, victim s pr = some v → v ∈ s.slots ∧ victimCandidate s pr v = true
      ∧ ∀ w ∈ s.slots, victimCandidate s pr w = true →
          (s.pointDef w.2.point).priority.rank ≤ (s.pointDef v.2.point).priority.rank
          ∧ ((s.pointDef w.2.point).priority = (s.pointDef v.2.point).priority →
              w.2.last.older v.2.last = false
              ∧ (v.2.last.older w.2.last = false → v.1 ≤ w.1)))
    ∧ (victim s pr = none → ∀ w ∈ s.slots, victimCandidate s pr w = false)

/-- Where the table is full, an onset without a victim joins the tail of the admission queue below 256 entries, and is
lost and counted at 256 (R17, R19, R23); with a victim it takes the victim's slot: the eviction is counted, latches
SLOT_EVICTION and is reported by an AREP EVICTED with the victim's occurrence, and two slot changes are handed on, EVICT for
the victim and ONSET for the new point, both with the onset's origin (R15, R18, R63, R64). -/
def Obligations.FullTableEvictsOrQueues : Prop :=
  ∀ (s : State) (p : Nat) (o : Origin), s.lowestFree = none → s.time.Sound →
    (∀ v, victim s (s.pointDef p).priority = some v →
      let a := (s.pointDef v.2.point).area
      let t := (allocate p o { s := s }).s
      t.isLatched .slotEviction = true
      ∧ lookup t.slots v.1 = some (freshSlot t p .activeUnack s.stamp s.stamp false)
      ∧ OtherSlotsKept v.1 s t
      ∧ (∀ b, t.area b = if b = a then { s.area a with evictions := min 65535 ((s.area a).evictions + 1) } else s.area b)
      ∧ t.queue = s.queue
      ∧ (allocate p o { s := s }).changes.map (fun c => (c.kind, c.point, c.slot, c.origin))
          = [(.evict, v.2.point, some v.1, some o), (.onset, p, some v.1, some o)]
      ∧ t.arepSeq = (s.arepSeq + 1) % 65536
      ∧ (s.engineering = [] ∨ s.isLatched .slotEviction = true →
          t.plant = s.plant.joinOwn ⟨generated s 0x22#8 255 0 (BitVec.ofNat 16 ((s.arepSeq + 1) % 65536)) 0
            [Report.record { action := .evicted, point := v.2.point, area := a, occ := some v.2.occ
                             stateAfter := some 0 } s.stamp], false⟩))
    ∧ (victim s (s.pointDef p).priority = none → s.queue.length < 256 →
      (allocate p o { s := s }).s.queue = s.queue ++ [⟨p, s.stamp, false⟩]
      ∧ (allocate p o { s := s }).s.slots = s.slots)
    ∧ (victim s (s.pointDef p).priority = none → 256 ≤ s.queue.length →
      (allocate p o { s := s }).changes = []
      ∧ (allocate p o { s := s }).s
          = s.modArea (s.pointDef p).area fun r => { r with losts := min 65535 (r.losts + 1) })

/-- A freed slot is taken at once by the head of the admission queue, at occurrence 1, in ACTIVE_UNACK or, where it
returned while it waited, in RETURNED_UNACK, with its first onset time (R20, R21). -/
def Obligations.FreedSlotAdmitsTheHead : Prop :=
  ∀ (s : State) (i : Nat) (sl : Slot) (k : ChangeKind) (o : Origin) (q : QEntry) (rest : List QEntry),
    s.queue = q :: rest →
    ∃ x, lookup (freeAndAdmit i sl k o { s := s }).s.slots i = some x
      ∧ x.point = q.point ∧ x.occ = 1 ∧ x.onset = q.onset ∧ x.last = s.stamp ∧ x.ackOp = none
      ∧ x.state = (if q.returned then .returnedUnack else .activeUnack)
      ∧ (freeAndAdmit i sl k o { s := s }).s.queue = rest
      ∧ OtherSlotsKept i s (freeAndAdmit i sl k o { s := s }).s
      ∧ (freeAndAdmit i sl k o { s := s }).s.areas = s.areas

/-! ## Supervision (R31 to R39) -/

/-- One record of an accepted PSNAP (R36): FIRST empties the set and opens RECEIVING, MORE and LAST act in RECEIVING
alone, each adds its point where that is defined and names the controller, and the wait is 5 again. At the last record the
controller is LIVE, each point of the set is ACTIVE and every other of its points NORMAL, no other point's condition and
no chatter score moves, no area's load or flood state moves, no slot of its points is STALE, and every ATTACHED console is
told (R38, R39). Where nobody is queued and the table has room, the slots of the points outside the set move as by a
NORMAL report and then those of the set as by an ACTIVE one, an onset where there is none, and none takes SUPPRESSED. That
stage 2 takes every point of the set, also one whose definition no longer names the controller, is the model's reading of
R38 (log 17). -/
def Obligations.SnapshotRebuildsTheController : Prop :=
  ∀ (ms : Nat) (f : Frame) (d : List Byte) (c : Controller) (s : State), arrives .plant s f = true →
    toOwnOrAll s f = true → lookup s.controllers f.source.toNat = some c → c.live = false → c.phase ≠ .idle →
    f.seq.toNat = c.snapNumber → f.recs = [⟨0x11#8, d⟩] → d.length = 1 ∨ d.length = 3 →
    let me := f.source.toNat
    let marker := field1 d 0
    let p := field2 d 1
    let base := if marker = 1 ∨ marker = 3 then [] else c.snapSet
    let inSet (q : Nat) : Bool := base.contains q || (d.length == 3 && q == p && decide (p < 8192)
      && (s.pointDef p).defined && (s.pointDef p).controller == me)
    let mine (q : Nat) : Bool := (s.pointsOf me).contains q
    let taken (g : Controller → Controller) : State := (s.heard ms .plant f).modController me g
    (c.phase = .requested → marker = 0 ∨ marker = 2 →
      exec (.psnap ms f) s = .next (taken fun k => { k with wait := 5 }))
    ∧ (marker = 1 ∨ (marker = 0 ∧ c.phase = .receiving) → ∃ set,
      exec (.psnap ms f) s = .next (taken fun k => { k with wait := 5, phase := .receiving, snapSet := set })
      ∧ (∀ q, q ∈ set ↔ inSet q = true) ∧ (base.Pairwise (· < ·) → set.Pairwise (· < ·)))
    ∧ (marker = 3 ∨ (marker = 2 ∧ c.phase = .receiving) → risingKeys s.slots = true →
      ∃ t, exec (.psnap ms f) s = .next t
        ∧ lookup t.controllers me = some { c with
            live := true, silence := 0, phase := .idle, sent := 0, wait := 0, snapSet := [], snapFailed := false
            beenLive := true }
        ∧ (∀ q, t.dynOf q = if inSet q then { s.dynOf q with cond := .active }
            else if mine q then { s.dynOf q with cond := .normal } else s.dynOf q)
        ∧ (∀ a, (t.area a).load = (s.area a).load ∧ (t.area a).flood = (s.area a).flood)
        ∧ (∀ i sl, lookup t.slots i = some sl → (s.pointDef sl.point).controller = me → sl.stale = false)
        ∧ (s.queue = [] → s.AlarmTableSound → s.time.Sound → s.slots.length + base.length + 1 ≤ 1024 →
          (∀ q, (t.slotOf q).map (fun e => e.2.bare) = match s.slotOf q with
            | some (_, sl) =>
              (if inSet q then slotAfterReport (s.pointDef q).latch .active (s.stampAt ms) sl
                else if mine q then slotAfterReport (s.pointDef q).latch .normal (s.stampAt ms) sl
                else some sl).map Slot.bare
            | none =>
              if inSet q then some (freshSlot s q .activeUnack (s.stampAt ms) (s.stampAt ms) false).bare else none)
          ∧ (∀ q i j x y, s.slotOf q = some (i, x) → t.slotOf q = some (j, y) → j = i)
          ∧ (∀ j y, lookup t.slots j = some y → y.suppressed = true →
              ∃ x, lookup s.slots j = some x ∧ x.point = y.point ∧ x.suppressed = true)
          ∧ t.queue = [])
        ∧ Told (.stale me false) (fun _ => True) s t
        ∧ t.tables = s.tables ∧ t.memory = s.memory ∧ t.retained = s.retained ∧ t.shelf = s.shelf
        ∧ t.commands = s.commands ∧ t.console = s.console ∧ ConsolesKept s t)

/-- CONTROLLER_SILENCE_EXPIRY: at the third tick without a telegram a LIVE controller becomes STALE, its points' slots
carry STALE, every command to it has ended, STALE_ANY is latched, and every ATTACHED console is told (R31, R33, R156).
RESYNC_WAIT_EXPIRY: below four requests the SREQ is repeated under the next number with a new wait of 5; at four the
resynchronisation has failed (R35). -/
def Obligations.SilentControllerGoesStale : Prop :=
  (∀ (a : Nat) (c : Controller) (s : State), s.settled = true → TickItem.controllerSilence a ∈ s.owed →
    lookup s.controllers a = some c → c.live = true → 2 ≤ c.silence →
    ∃ t, exec (.controllerSilenceExpiry a) s = .next t
      ∧ lookup t.controllers a = some { c with
          live := false, silence := 0, phase := .idle, sent := 0, wait := 0, snapSet := [], snapFailed := false }
      ∧ (∀ b, b ≠ a → lookup t.controllers b = lookup s.controllers b)
      ∧ (∀ i sl, lookup t.slots i = some sl → (s.pointDef sl.point).controller = a → sl.stale = true)
      ∧ (∀ x ∈ t.commands, x.controller ≠ a)
      ∧ t.isLatched .staleAny = true ∧ ConsolesKept s t ∧ Told (.stale a true) (fun _ => True) s t
      ∧ AlarmEventFrame { s with controllers := t.controllers, commands := t.commands, owed := t.owed } t)
  ∧ (∀ (a : Nat) (c : Controller) (s : State), s.settled = true → TickItem.resyncWait a ∈ s.owed →
    lookup s.controllers a = some c → c.phase ≠ .idle → c.wait ≤ 1 →
    ∃ t, exec (.resyncWaitExpiry a) s = .next t
      ∧ (c.sent < 4 →
          lookup t.controllers a = some { c with
            snapSet := [], snapNumber := (c.snapNumber + 1) % 65536, sent := c.sent + 1, wait := 5
            phase := .requested }
          ∧ t.plant = s.plant.joinOwn
              ⟨generated s 0x12#8 a 0 (BitVec.ofNat 16 ((c.snapNumber + 1) % 65536)) 0 [], false⟩)
      ∧ (4 ≤ c.sent →
          lookup t.controllers a = some { c with
            phase := .idle, sent := 0, wait := 0, snapSet := [], snapFailed := true }
          ∧ t.plant = s.plant)
      ∧ t = { s with
          controllers := t.controllers, owed := t.owed, plant := t.plant, latched := t.latched
          statSeq := t.statSeq, statSent := t.statSent })

/-- CCONF: a confirmation that names an outstanding command of its source ends that command, answers its seat where the
console is ATTACHED, and where it is a FAULT holds the controller; one that names none is late and counted.
CONFIRM_LIMIT_EXPIRY: the first command in table order whose limit is owed ends with NO_CONFIRM, its controller's slow
count rises and CONFIRM_TIMEOUT latches (R152 to R155). -/
def Obligations.ConfirmationEndsItsCommand : Prop :=
  (∀ (ms : Nat) (f : Frame) (tag : Nat) (r : Result) (detail : List Byte) (x : Command) (k : Controller) (s : State),
    arrives .plant s f = true → toOwnOrAll s f = true → lookup s.controllers f.source.toNat = some k →
    confirmation f.recs = some (tag, r, detail) →
    s.commands.find? (fun c => c.tag == tag && c.controller == f.source.toNat) = some x →
    ∃ t, exec (.cconf ms f) s = .next t
      ∧ t.commands = s.commands.filter (fun c => !(c.tag == tag))
      ∧ (((lookup s.consoles x.console).any Console.attached) = true →
          t.console = s.console.joinOwn
            ⟨generated s 0x38#8 x.console x.seat x.seq (BitVec.ofNat 16 x.operator)
              [⟨0x70#8, b1 r.code⟩, ⟨0x7B#8, b2 tag ++ b2 x.point ++ b1 x.controller ++ detail⟩], false⟩)
      ∧ (((lookup s.consoles x.console).any Console.attached) = false → t.console = s.console)
      ∧ (∃ k', lookup t.controllers f.source.toNat = some k' ∧ k'.faultHeld = (k.faultHeld || r == .fault)
          ∧ k'.late = k.late ∧ k'.slow = k.slow)
      ∧ (r = .fault → k.faultHeld = false → t.isLatched .ctrlFault = true)
      ∧ t.slots = s.slots ∧ t.areas = s.areas ∧ t.tagCounter = s.tagCounter ∧ t.records = s.records
      ∧ ConsolesKept s t)
  ∧ (∀ (ms : Nat) (f : Frame) (tag : Nat) (r : Result) (detail : List Byte) (s : State),
    arrives .plant s f = true → toOwnOrAll s f = true → lookup s.controllers f.source.toNat ≠ none →
    confirmation f.recs = some (tag, r, detail) →
    (∀ c ∈ s.commands, c.tag = tag → c.controller ≠ f.source.toNat) →
    exec (.cconf ms f) s = .next ((s.heard ms .plant f).modController f.source.toNat fun k =>
      { k with late := min 65535 (k.late + 1) }))
  ∧ (∀ (l r : List Command) (c : Command) (s : State), s.settled = true → s.commands = l ++ c :: r → c.ticks ≤ 1 →
    TickItem.confirm c.tag ∈ s.owed → (∀ x ∈ l, TickItem.confirm x.tag ∉ s.owed) →
    ∃ t, exec .confirmLimitExpiry s = .next t
      ∧ t.commands = s.commands.filter (fun x => !(x.tag == c.tag))
      ∧ (((lookup s.consoles c.console).any Console.attached) = true →
          t.console = s.console.joinOwn
            ⟨generated s 0x38#8 c.console c.seat c.seq (BitVec.ofNat 16 c.operator)
              [⟨0x70#8, [0x1A#8]⟩, ⟨0x7B#8, b2 c.tag ++ b2 c.point ++ b1 c.controller⟩], false⟩)
      ∧ (((lookup s.consoles c.console).any Console.attached) = false → t.console = s.console)
      ∧ (∀ a, lookup t.controllers a = (lookup s.controllers a).map fun k =>
          if a = c.controller then { k with slow := min 65535 (k.slow + 1) } else k)
      ∧ t.isLatched .confirmTimeout = true
      ∧ (∀ x, x ∈ t.owed ↔ x ∈ s.owed ∧ x ≠ .confirm c.tag)
      ∧ t = { s with
          commands := t.commands, controllers := t.controllers, owed := t.owed, plant := t.plant, console := t.console
          latched := t.latched, statSeq := t.statSeq, statSent := t.statSent })

/-! ## Consoles and their notices (R81 to R101) -/

/-- HELLO: the class is the highest in both sets and the features are those in both; a DETACHED console attaches with
them, an ATTACHED one that holds them already changes nothing, and one whose resolution differs is detached and attached
again, the areas held from its seats in GRACE. A record that is no capability record is answered BAD_REQUEST
(R83, R87, R88, R108). -/
def Obligations.HelloAttachesTheConsole : Prop :=
  (∀ (st : Station) (cl : Classes) (ft : Features),
    (∀ k, cl.has k = true → st.classes.has k = true →
      cl.has (resolveAttach st cl ft).1 = true ∧ st.classes.has (resolveAttach st cl ft).1 = true
        ∧ k.rank ≤ (resolveAttach st cl ft).1.rank
        ∧ (resolveAttach st cl ft).2 = (⟨ft.groupAck && st.features.groupAck, ft.secondSeat && st.features.secondSeat,
            ft.handoverDialog && st.features.handoverDialog⟩, false))
    ∧ ((∀ k, cl.has k = true → st.classes.has k = false) → resolveAttach st cl ft = (.view, {}, true)))
  ∧ (∀ (ms : Nat) (f : Frame) (a b : Byte) (c : Console) (st : Station) (s : State), arrives .console s f = true →
    toOwn s f = true → lookup s.consoles f.source.toNat = some c → s.stationAt f.source.toNat = some st →
    f.recs = [⟨0x30#8, [a, b]⟩] →
    let x := resolveAttach st (classesOf a.toNat) (featuresOf b.toNat)
    let resp := respTo s f 0 (if x.2.2 then .classMismatch else .ok) [⟨0x73#8, b1 x.1.code ++ b1 x.2.1.code⟩]
    let attached : Console := { c with
      cls := some x.1, features := x.2.1, seat1 := none, seat2 := none, silence := 0, horn := .quiet
      notices := [], noticeSeq := 0, transfer := none, requests := 0 }
    (c.cls = none → exec (.hello ms f) s
        = .next (((s.atArrival ms).modConsole f.source.toNat fun _ => attached).sendEntry .console resp))
    ∧ (c.cls = some x.1 → c.features = x.2.1 →
        exec (.hello ms f) s = .next ((s.taken ms 0 f).sendEntry .console resp))
    ∧ (c.attached = true → (c.cls ≠ some x.1 ∨ c.features ≠ x.2.1) →
      ∃ t, exec (.hello ms f) s = .next t ∧ lookup t.consoles f.source.toNat = some attached
        ∧ (∀ d, d ≠ f.source.toNat → (lookup t.consoles d).map Console.bare = (lookup s.consoles d).map Console.bare)
        ∧ (∀ r h, r < 16 → (s.area r).authority = .held → (s.area r).holder = some h → h.console = f.source.toNat →
            h.seat = 1 ∨ h.seat = 2 → c.seatOp h.seat = some h.operator →
            (t.area r).authority = .grace ∧ (t.area r).holder = some h
              ∧ (t.area r).graceLeft = (s.areaParams r).grace)
        ∧ t.console = s.console.joinOwn resp ∧ AuthorityEventFrame s t))
  ∧ (∀ (ms : Nat) (f : Frame) (s : State), arrives .console s f = true → toOwn s f = true →
    lookup s.consoles f.source.toNat ≠ none → s.stationAt f.source.toNat ≠ none → capability f.recs = none →
    exec (.hello ms f) s = .next ((s.taken ms 0 f).sendEntry .console (respTo s f 0 .badRequest [])))

/-- The intake of every console request (R84, R92, R93): one that is not addressed to the part has no effect beyond liveness;
one from a DETACHED console is taken as from a console just attached at VIEW with no features, but a LOGOUT is NOT_ATTACHED;
a seat the console does not have is BAD_SEAT; a seat that is EMPTY, or OCCUPIED by another than the header names, is
NOT_LOGGED_IN, for all but LOGIN; a counted request during the rate hold is ON_HOLD and is not counted, and one above the
limit is counted, ON_HOLD, and sets the hold of 5. The state or command record of such a refusal is the model's reading of
R177 and R180 (log 20), the operator field of one that no operator sits behind is log 19. -/
def Obligations.RequestsPassTheIntake : Prop :=
  ∀ (ms : Nat) (f : Frame) (c : Instr) (k : Console) (s : State), c ∈ requestRows ms f → arrives .console s f = true →
    lookup s.consoles f.source.toNat = some k →
    let refused (n op : Nat) (r : Result) : State :=
      (s.taken ms n f).sendEntry .console (respTo s f op r (refusalData ms f c s))
    (toOwn s f = false → exec c s = .next (s.taken ms 0 f))
    ∧ (toOwn s f = true →
      (k.attached = false → c ≠ .logout ms f →
        exec c s = exec c (s.modConsole f.source.toNat Console.viewing))
      ∧ (k.attached = false → c = .logout ms f → exec c s = .next (refused 0 0 .notAttached))
      ∧ (k.attached = true → k.hasSeat f.seat.toNat = false → exec c s = .next (refused 0 0 .badSeat))
      ∧ (k.attached = true → k.hasSeat f.seat.toNat = true → c ≠ .login ms f →
        (k.seatOp f.seat.toNat = none → exec c s = .next (refused 0 0 .notLoggedIn))
        ∧ (∀ n, k.seatOp f.seat.toNat = some n → f.operator.toNat ≠ n → exec c s = .next (refused 0 n .notLoggedIn))
        ∧ (∀ n, k.seatOp f.seat.toNat = some n → f.operator.toNat = n → c ∈ countedRows ms f →
          (0 < k.rateHold → exec c s = .next (refused 0 n .onHold))
          ∧ (k.rateHold = 0 → s.tables.params.rateLimit ≤ k.requests →
              exec c s = .next (((s.taken ms 1 f).modConsole f.source.toNat fun x => { x with rateHold := 5 }).sendEntry
                .console (respTo s f n .onHold (refusalData ms f c s)))))))

/-- LOGIN at an empty seat of an ATTACHED console: a body without its record is BAD_REQUEST; during the login hold it is
refused ON_HOLD; a credential the roster does not hold is refused and counted, the third starting the hold of 60; the
holder of an area elsewhere is refused IN_USE_ELSEWHERE; else the operator sits there, his session elsewhere has ended,
with NOTE SESSION_MOVED to its console, and at a FULL console the areas that await him return to HELD at the seat. At an
OCCUPIED seat it is refused SEAT_BUSY (R94 to R97, R111). LOGOUT: the holder of an area with authority HELD is refused
HOLDING_AREAS and his session continues; else the session ends with cause logout, every area keeps its authority, holder,
grace and relief stack, and every record that names the operator as incoming has ended (R85, R98, R141); that the records
of a LOGOUT that carries some are ignored is the model's choice (log 53). The operator field of a RESP to an empty, newly
taken or newly emptied seat is the model's reading (log 19). -/
def Obligations.SessionsBeginAndEnd : Prop :=
  (∀ (ms : Nat) (o : Option Nat) (f : Frame) (s : State),
    fromAttached s f (fun c => c.hasSeat f.seat.toNat && c.seatOp f.seat.toNat == o) = true → loginRecord f.recs = none →
    exec (.login ms f) s = .next ((s.taken ms 0 f).sendEntry .console (respTo s f (o.getD 0) .badRequest [])))
  ∧ (∀ (ms n : Nat) (f : Frame) (d : List Byte) (s : State),
    fromAttached s f (fun c => c.hasSeat f.seat.toNat && c.seatOp f.seat.toNat == some n) = true →
    f.recs = [⟨0x31#8, d⟩] → d.length = 6 →
    exec (.login ms f) s = .next ((s.taken ms 0 f).sendEntry .console (respTo s f n .seatBusy [])))
  ∧ (∀ (ms op : Nat) (f : Frame) (d : List Byte) (c : Console) (s : State),
    fromAttached s f (fun c => c.hasSeat f.seat.toNat && (c.seatOp f.seat.toNat).isNone) = true →
    lookup s.consoles f.source.toNat = some c → f.recs = [⟨0x31#8, d⟩] → d.length = 6 → field2 d 0 = op →
    risingKeys s.consoles = true →
    (0 < c.loginHold → exec (.login ms f) s
        = .next ((s.taken ms 0 f).sendEntry .console (respTo s f 0 .onHold [])))
    ∧ (c.loginHold = 0 → credentialHolds s op (field4 d 2) = false → exec (.login ms f) s
        = .next (((s.taken ms 0 f).modConsole f.source.toNat fun k => { k with
            failed := if 3 ≤ c.failed + 1 then 0 else c.failed + 1
            loginHold := if 3 ≤ c.failed + 1 then 60 else 0 }).sendEntry .console
          (respTo s f 0 .deniedCredential [])))
    ∧ (c.loginHold = 0 → credentialHolds s op (field4 d 2) = true →
        (s.session op ≠ none → s.holdsAny op = true → exec (.login ms f) s
          = .next (((s.taken ms 0 f).modConsole f.source.toNat fun k => { k with failed := 0 }).sendEntry .console
            (respTo s f 0 .inUseElsewhere [])))
        ∧ (s.session op = none ∨ s.holdsAny op = false →
          ∃ t, exec (.login ms f) s = .next t
            ∧ ((lookup t.consoles f.source.toNat).bind fun k => k.seatOp f.seat.toNat) = some op
            ∧ (∀ a n, s.session op = some (a, n) → ((lookup t.consoles a).bind fun k => k.seatOp n) = none)
            ∧ (∀ a n k, s.session op = some (a, n) → lookup s.consoles a = some k → k.attached = true →
                k.notices.length + s.records.length + 18 ≤ 32 →
                ∃ x, lookup t.consoles a = some x
                  ∧ Notice.sessionMoved n op f.source.toNat f.seat.toNat ∈ x.notices)
            ∧ (s.session op = none → ∀ a, (lookup t.consoles a).map Console.bare =
                if a = f.source.toNat then
                  some (Console.bare { c.setSeat f.seat.toNat (some op) with silence := 0, failed := 0 })
                else (lookup s.consoles a).map Console.bare)
            ∧ (∀ a, { t.area a with openRecord := (s.area a).openRecord } =
                if classOf s f .full = true ∧ a ∈ awaiting s op then
                  { s.area a with
                    authority := .held, holder := some ⟨op, f.source.toNat, f.seat.toNat⟩, graceLeft := 0 }
                else s.area a)
            ∧ (∀ o, s.operatorEntry op = some o →
                t.console = s.console.joinOwn (respTo s f op
                  (if classOf s f .full = false ∧ awaiting s op ≠ [] then .classTooLow else .ok)
                  [loginRec o (if classOf s f .full then awaiting s op else [])
                    (if classOf s f .full then [] else awaiting s op)]))
            ∧ AuthorityEventFrame s t)))
  ∧ (∀ (ms op : Nat) (f : Frame) (s : State), requestFrom s f op = true → s.holdsAny op = true →
    exec (.logout ms f) s = .next ((s.taken ms 0 f).sendEntry .console (respTo s f op .holdingAreas [])))
  ∧ (∀ (ms op : Nat) (f : Frame) (c : Console) (s : State), requestFrom s f op = true → s.holdsAny op = false →
    lookup s.consoles f.source.toNat = some c →
    ∃ t, exec (.logout ms f) s = .next t
      ∧ (∀ a, (lookup t.consoles a).map Console.bare =
          if a = f.source.toNat then
            some (Console.bare { c.setSeat f.seat.toNat none with
              silence := 0, transfer := c.transfer.filter fun x => x.seat != f.seat.toNat })
          else (lookup s.consoles a).map Console.bare)
      ∧ (∀ a, { t.area a with openRecord := (s.area a).openRecord } = s.area a)
      ∧ (∀ h ∈ t.records, h ∈ s.records ∧ h.inOp ≠ op)
      ∧ (∀ h ∈ s.records, (∀ g ∈ s.records, g.inOp = op → g.number ≠ h.number) → h ∈ t.records)
      ∧ t.console = s.console.joinOwn (respTo s f op .ok []) ∧ AuthorityEventFrame s t)

/-- How a notice joins a console's queue (R101): in place of the pending one of its kind and subject, at the tail while
fewer than 32 are pending, and else by emptying the queue down to one RESYNC with the console's horn state. -/
def Obligations.NoticeJoinsTheQueue : Prop :=
  ∀ (c : Console) (n : Notice), c.attached = true →
    ((∃ m ∈ c.notices, m.kindCode = n.kindCode ∧ m.subject = n.subject) →
      (c.take n).notices.length = c.notices.length
      ∧ ∀ (i : Nat) (m : Notice), c.notices[i]? = some m →
          (c.take n).notices[i]? = some (if m.kindCode = n.kindCode ∧ m.subject = n.subject then n else m))
    ∧ ((∀ m ∈ c.notices, m.kindCode = n.kindCode → m.subject ≠ n.subject) →
      (c.notices.length < 32 → (c.take n).notices = c.notices ++ [n])
      ∧ (32 ≤ c.notices.length → (c.take n).notices = [.resync c.horn]))
    ∧ c.take n = { c with notices := (c.take n).notices }

/-- What an event that hands on slot changes tells an ATTACHED console (R78, R100, R101). Its horn becomes SOUNDING
where a slot of the event qualifies after it and did not before, or advanced its occurrence; else QUIET where no slot
qualifies; else it stays. Where its queue has room it holds a NOTE HORN of a changed horn, and one NEW_ALARM with the
counts after the event for each area named, unless each change of the area concerns a slot that carries SHELVED,
CHATTER or SUPPRESSED after the event, or nobody seated there has VIEW. A change with no slot, or that leaves none,
always tells: R100 says so in words, which the model reads R51, R53 and R70 by (log 47). A ringback in FLOOD is told
and sounds the horn where its slot carries none of the three (R46); that one of a slot SUPPRESSED since its onset is
silent is the model's choice (log 45), and that the areas of ACTIVE_ACKED slots alone are told is log 46. A notice of
an area goes to the consoles with VIEW there, one of the part's to every ATTACHED one. So the onset of a PREP that
qualifies sounds the horn, and a CLAIM queues NOTE AUTHORITY to the consoles of its area (R105). -/
def Obligations.HornsAndNoticesFollowTheEvent : Prop :=
  (∀ (s : State) (a d : Nat) (n : Notice), risingKeys s.consoles = true →
    lookup (s.notifyArea a n).consoles d = (lookup s.consoles d).map (fun c =>
      if (c.attached && c.operators.any fun op => s.hasRight op a .view) = true then c.take n else c)
    ∧ lookup (s.notifyAll n).consoles d = (lookup s.consoles d).map fun c => if c.attached = true then c.take n else c)
  ∧ (∀ (s : State) (a : Nat),
    let count (pr : Priority) : Nat := (s.slots.filter fun e =>
      (s.pointDef e.2.point).area == a && (s.pointDef e.2.point).priority == pr && e.2.state != .activeAcked
        && !e.2.shelved && !e.2.chatter && !e.2.suppressed).length
    newAlarmNotice s a = .newAlarm a (s.area a).generation (count .urgent) (count .high) (count .medium) (count .low)
      (s.queue.filter fun q => (s.pointDef q.point).area == a).length)
  ∧ (∀ (before : State) (e : Ev) (xs : List ShelfEvent) (d : Nat) (c : Console), e.changes ≠ [] →
    risingKeys e.s.consoles = true → lookup e.s.consoles d = some c → c.attached = true →
    let t := handOn before e xs
    let known (i : Nat) : Prop := (∀ y ∈ e.changes, y.slot = some i → y.kind ≠ .onset ∧ y.kind ≠ .admission)
      ∧ ∃ c0 x0, lookup before.consoles d = some c0 ∧ lookup before.slots i = some x0 ∧ QualifyingAlarm before d c0 x0
    let sounds : Prop := ∃ x ∈ e.changes, ∃ i sl, x.slot = some i ∧ lookup t.slots i = some sl
      ∧ QualifyingAlarm t d c sl ∧ (¬ known i ∨ ∃ y ∈ e.changes, y.slot = some i ∧ y.advanced = true)
    let silenced (x : SlotChange) : Prop := x.kind ≠ .free ∧ x.kind ≠ .evict ∧ x.kind ≠ .discard
      ∧ ∃ i sl, x.slot = some i ∧ lookup t.slots i = some sl ∧ sl.point = x.point
        ∧ (sl.shelved = true ∨ sl.chatter = true ∨ sl.suppressed = true)
    let told (a : Nat) : Prop := (∃ x ∈ e.changes, x.area = a ∧ ¬ silenced x)
      ∧ (c.operators.any fun op => e.s.hasRight op a .view) = true
    ∃ k, lookup t.consoles d = some k ∧ { k with horn := c.horn, notices := c.notices } = c
      ∧ (sounds → k.horn = .sounding)
      ∧ (¬ sounds → (∀ x ∈ t.slots, ¬ QualifyingAlarm t d c x.2) → k.horn = .quiet)
      ∧ (¬ sounds → (∃ x ∈ t.slots, QualifyingAlarm t d c x.2) → k.horn = c.horn)
      ∧ (∀ a, ¬ told a → ∀ n ∈ k.notices, n.kindCode = 1 → n.subject = a → n ∈ c.notices)
      ∧ (c.notices.length + e.s.records.length + (namedAreas e.changes).length + 1 ≤ 32 →
          (k.horn ≠ c.horn → Notice.horn k.horn ∈ k.notices) ∧ ∀ a, told a → newAlarmNotice t a ∈ k.notices))
  ∧ (∀ (ms p i a d : Nat) (f : Frame) (data : List Byte) (c : Console) (s : State), OnsetReport s f data p i a →
    risingKeys s.consoles = true → lookup s.consoles d = some c → c.attached = true →
    ∃ t, exec (.prep ms f) s = .next t
      ∧ ∀ x, lookup t.slots i = some x → QualifyingAlarm t d c x →
        ∃ k, lookup t.consoles d = some k ∧ k.horn = .sounding
          ∧ (c.notices.length + s.records.length + 3 ≤ 32 → newAlarmNotice t a ∈ k.notices
              ∧ (c.horn ≠ .sounding → Notice.horn .sounding ∈ k.notices)))
  ∧ (∀ (ms op a d : Nat) (f : Frame) (s : State), countedFrom s f op = true → f.recs = [⟨0x26#8, b1 a⟩] → a < 16 →
    firstFailing (claimChecks s f op a) = none → (s.area a).authority ≠ .held → risingKeys s.consoles = true →
    ∃ t, exec (.claim ms f) s = .next t
      ∧ lookup t.consoles d = (lookup (s.taken ms 1 f).consoles d).map fun c =>
          if (c.attached && c.operators.any fun x => s.hasRight x a .view) = true then
            c.take (.authority a .held (some op))
          else c)

/-! ## Acknowledgement, shelving and silencing (R56 to R70, R80) -/

/-- ACK: the first failing check answers and nothing else happens; past them, a point with no slot or an acknowledged one
is NOT_PENDING, another occurrence is STALE_ACK, and the occurrence shown is acknowledged: an active alarm becomes
ACTIVE_ACKED and a returned one leaves its slot to the head of the admission queue, if any, with one AREP and one RESP
(R56, R58, R59, R63). An URGENT point past its other checks is refused DENIED_AUTHORITY unless its area is HELD and the
operator, compared by ID, its holder, or his role is SHIFT_LEAD; so in every authority state; a point of another priority
needs no authority (R57). That a refused ACK carries the state record is the model's reading of R177 (log 20). -/
def Obligations.AcknowledgementIsMatched : Prop :=
  ∀ (ms op p n : Nat) (f : Frame) (s : State), countedFrom s f op = true →
    f.recs = [⟨0x21#8, b2 p ++ b2 n⟩] → p < 65536 → n < 65536 →
    (p < 8192 → (s.pointDef p).defined = true → classOf s f .ack = true →
      s.hasRight op (s.pointDef p).area .ack = true →
      let r := s.area (s.pointDef p).area
      let matched := matchAck (senderOf f op) p n (s.taken ms 1 f)
      ((s.pointDef p).priority = .urgent → s.hasRole op .shiftLead = false →
        (r.authority ≠ .held ∨ (∀ h, r.holder = some h → h.operator ≠ op)) →
        exec (.ack ms f) s
          = .next ((s.taken ms 1 f).sendEntry .console (respTo s f op .deniedAuthority [stateRec s p])))
      ∧ ((s.pointDef p).priority ≠ .urgent ∨ s.hasRole op .shiftLead = true
          ∨ (r.authority = .held ∧ ∃ h, r.holder = some h ∧ h.operator = op) →
        exec (.ack ms f) s
          = .next (matched.2.sendEntry .console (respTo s f op matched.1 [stateRec matched.2 p]))))
    ∧ (∀ r, firstFailing (ackChecks s f op p) = some r → exec (.ack ms f) s
        = .next ((s.taken ms 1 f).sendEntry .console (respTo s f op r [stateRec s p])))
    ∧ (firstFailing (ackChecks s f op p) = none →
      (s.slotOf p = none → exec (.ack ms f) s
        = .next ((s.taken ms 1 f).sendEntry .console (respTo s f op .notPending
            [⟨0x71#8, b2 p ++ b2 0 ++ b1 (if s.queued p then 4 else 0)⟩])))
      ∧ (∀ i sl, s.slotOf p = some (i, sl) →
        (sl.state = .activeAcked → exec (.ack ms f) s
          = .next ((s.taken ms 1 f).sendEntry .console (respTo s f op .notPending
              [⟨0x71#8, b2 p ++ b2 sl.occ ++ b1 2⟩])))
        ∧ (sl.state ≠ .activeAcked → sl.occ ≠ n → exec (.ack ms f) s
          = .next ((s.taken ms 1 f).sendEntry .console (respTo s f op .staleAck
              [⟨0x71#8, b2 p ++ b2 sl.occ ++ b1 sl.state.code⟩])))
        ∧ (sl.state = .activeUnack → sl.occ = n →
          ∃ t, exec (.ack ms f) s = .next t
            ∧ lookup t.slots i
                = some { sl with state := .activeAcked, last := s.stampAt ms, ackOp := some op }
            ∧ OtherSlotsKept i s t ∧ OneGeneration (s.pointDef p).area s t ∧ AreasKept s t
            ∧ ConsolesKept (s.taken ms 1 f) t
            ∧ t.console = s.console.joinOwn (respTo s f op .ok [⟨0x71#8, b2 p ++ b2 n ++ b1 2⟩])
            ∧ (s.time.Sound → s.console.ownRoom = true →
                t.plant = s.plant.joinOwn (arepOf s ms
                  { action := .ack, point := p, area := (s.pointDef p).area, occ := some n, stateAfter := some 2
                    actor := some ⟨op, f.source.toNat, f.seat.toNat⟩ }))
            ∧ ((s.records.map fun h => h.number).Nodup → t.records = s.records)
            ∧ AlarmEventFrame s t)
        ∧ (sl.state = .returnedUnack → sl.occ = n → s.queue = [] → s.AlarmTableSound →
          ∃ t, exec (.ack ms f) s = .next t
            ∧ lookup t.slots i = none
            ∧ OtherSlotsKept i s t ∧ OneGeneration (s.pointDef p).area s t ∧ AreasKept s t
            ∧ ConsolesKept (s.taken ms 1 f) t
            ∧ t.console = s.console.joinOwn (respTo s f op .ok [⟨0x71#8, b2 p ++ b2 0 ++ b1 0⟩])
            ∧ (s.time.Sound → s.console.ownRoom = true →
                t.plant = s.plant.joinOwn (arepOf s ms
                  { action := .ack, point := p, area := (s.pointDef p).area, occ := some n, stateAfter := some 0
                    actor := some ⟨op, f.source.toNat, f.seat.toNat⟩ }))
            ∧ AlarmEventFrame s t)
        ∧ (∀ q rest, sl.state = .returnedUnack → sl.occ = n → s.queue = q :: rest → s.AlarmTableSound →
          ∃ t, exec (.ack ms f) s = .next t
            ∧ HeadAdmitted i q (s.stampAt ms) t ∧ t.queue = rest ∧ OtherSlotsKept i s t ∧ AreasKept s t
            ∧ ConsolesKept (s.taken ms 1 f) t
            ∧ t.console = s.console.joinOwn (respTo s f op .ok [⟨0x71#8, b2 p ++ b2 0 ++ b1 0⟩])
            ∧ AlarmEventFrame { s with queue := rest } t)))

/-- GROUP_ACK: a body that is not 1 to 16 pairs is BAD_REQUEST, a console without the class or the feature CLASS_TOO_LOW;
else the pairs are taken in order, each against the state the earlier ones left, and the RESP carries one result for each,
with the point's occurrence and state after it; no URGENT alarm and no alarm the telegram does not name changes; a pair's
first failing check is its result, and a pair past them is matched as an ACK is (R58, R61, R62). -/
def Obligations.GroupAcknowledgementTakesPairs : Prop :=
  (∀ (ms op : Nat) (f : Frame) (s : State), countedFrom s f op = true →
    (groupBody f.recs = false → exec (.groupAck ms f) s
      = .next ((s.taken ms 1 f).sendEntry .console (respTo s f op .badRequest [])))
    ∧ (groupBody f.recs = true → (classOf s f .ack && (s.consoleFeatures f.source.toNat).groupAck) = false →
      exec (.groupAck ms f) s
        = .next ((s.taken ms 1 f).sendEntry .console (respTo s f op .classTooLow [])))
    ∧ (groupBody f.recs = true → (classOf s f .ack && (s.consoleFeatures f.source.toNat).groupAck) = true →
      let x := takePairs (senderOf f op) f.recs (s.taken ms 1 f)
      exec (.groupAck ms f) s = .next (x.2.sendEntry .console (respTo s f op .ok x.1))
      ∧ x.1.length = f.recs.length ∧ x.2.console = s.console
      ∧ (s.queue = [] → s.AlarmTableSound →
        (∀ i sl, lookup s.slots i = some sl →
          (s.pointDef sl.point).priority = .urgent ∨ (∀ r ∈ f.recs, field2 r.data 0 ≠ sl.point) →
          lookup x.2.slots i = some sl)
        ∧ (∀ i, lookup s.slots i = none → lookup x.2.slots i = none) ∧ x.2.queue = []
        ∧ AreasKept s x.2 ∧ ConsolesKept (s.taken ms 1 f) x.2 ∧ AlarmEventFrame s x.2)))
  ∧ (∀ (q : Requester) (r : Rec) (rest : List Rec) (s : State),
    let p := field2 r.data 0
    let n := field2 r.data 2
    let one := takePair q p n s
    let more := takePairs q rest one.2
    takePairs q [] s = ([], s)
    ∧ takePairs q (r :: rest) s =
        (⟨0x72#8, b2 p ++ b2 n ++ b1 one.1.code ++ b2 (slotView one.2 p).1 ++ b1 (slotView one.2 p).2⟩ :: more.1, more.2))
  ∧ (∀ (q : Requester) (p occ : Nat) (s : State),
    (∀ r, firstFailing (pairChecks s q.operator p) = some r → takePair q p occ s = (r, s))
    ∧ (firstFailing (pairChecks s q.operator p) = none → takePair q p occ s = matchAck q p occ s.beginEvent))
  ∧ (∀ (q : Requester) (p n : Nat) (s : State),
    (s.slotOf p = none → matchAck q p n s = (.notPending, s))
    ∧ ∀ i sl, s.slotOf p = some (i, sl) →
      (sl.state = .activeAcked → matchAck q p n s = (.notPending, s))
      ∧ (sl.state ≠ .activeAcked → sl.occ ≠ n → matchAck q p n s = (.staleAck, s))
      ∧ (sl.state ≠ .activeAcked → sl.occ = n →
        (matchAck q p n s).1 = .ok
        ∧ (sl.state = .activeUnack → lookup (matchAck q p n s).2.slots i
            = some { sl with state := .activeAcked, last := s.stamp, ackOp := some q.operator })
        ∧ (sl.state = .returnedUnack → s.queue = [] → lookup (matchAck q p n s).2.slots i = none)
        ∧ OtherSlotsKept i s (matchAck q p n s).2))

/-- SHELVE: for 0 minutes BAD_REQUEST; the first failing check answers and nothing else happens; past them, the point has one
entry, of this operator, for the minutes asked or the point's limit if that is smaller, placed by its ticks behind those with
as many (R65), its slot carries SHELVED and keeps its
state and occurrence, an AREP reports it, the RESP tells the granted minutes (R64, R66, R67), and it owes no decrement of a
tick before it (R69). UNSHELVE, and SHELF_EXPIRED
for the first entry in list order whose expiry is owed: the entry leaves the list and the point is re-annunciated: an alarm
whose condition is ACTIVE becomes ACTIVE_UNACK at the next occurrence, another keeps its state, and neither carries SHELVED.
An AREP reports it with the slot's occurrence and state after it, stated where no STAT of FLOOD_ANY stands before it (R64).
The UNSHELVE of a point that is not shelved is NOT_PENDING (R13, R68, R69). That the refused and the NOT_PENDING ones carry
the state record is the model's reading of R177 (log 20); that a slot in RETURNED_UNACK keeps both its times in a
re-annunciation is the model's choice between R9 and R13 (log 43). -/
def Obligations.ShelvingActsOnThePoint : Prop :=
  (∀ (ms op p : Nat) (f : Frame) (s : State), countedFrom s f op = true → f.recs = [⟨0x23#8, b2 p ++ b2 0⟩] → p < 65536 →
    exec (.shelve ms f) s
      = .next ((s.taken ms 1 f).sendEntry .console (respTo s f op .badRequest [stateRec s p])))
  ∧ (∀ (ms op p m : Nat) (f : Frame) (s : State), countedFrom s f op = true →
    f.recs = [⟨0x23#8, b2 p ++ b2 m⟩] → p < 65536 → 1 ≤ m → m < 65536 → risingKeys s.slots = true →
    (∀ r, firstFailing (shelveChecks s f op p) = some r → exec (.shelve ms f) s
        = .next ((s.taken ms 1 f).sendEntry .console (respTo s f op r [stateRec s p])))
    ∧ (firstFailing (shelveChecks s f op p) = none →
      let granted := min m (s.pointDef p).shelveLimit
      let e : ShelfEntry := ⟨p, op, s.stampAt ms, 60 * granted, !(s.area (s.pointDef p).area).relief.isEmpty⟩
      ∃ t, exec (.shelve ms f) s = .next t
        ∧ (∀ x, x ∈ t.shelf ↔ x = e ∨ (x ∈ s.shelf ∧ x.point ≠ p))
        ∧ (s.shelf.Pairwise (fun x y => x.ticks ≤ y.ticks) →
          t.shelf = s.shelf.filter (fun x => !(x.point == p) && decide (x.ticks ≤ e.ticks))
            ++ e :: s.shelf.filter (fun x => !(x.point == p) && decide (e.ticks < x.ticks)))
        ∧ (s.slotOf p = none → t.slots = s.slots ∧ ∀ a, t.area a = s.area a)
        ∧ (∀ i sl, s.slotOf p = some (i, sl) →
            lookup t.slots i = some { sl with shelved := true } ∧ OtherSlotsKept i s t ∧ AreasKept s t
            ∧ (sl.shelved = false → OneGeneration (s.pointDef p).area s t))
        ∧ t.console = s.console.joinOwn (respTo s f op (if (s.pointDef p).shelveLimit < m then .okClamped else .ok)
            [stateRec s p, ⟨0x77#8, b2 granted⟩])
        ∧ (s.time.Sound → s.console.ownRoom = true →
            t.plant = s.plant.joinOwn (arepOf s ms
              { action := .shelve, point := p, area := (s.pointDef p).area, occ := (s.slotOf p).map fun x => x.2.occ
                stateAfter := (s.slotOf p).map fun x => x.2.state.code
                actor := some ⟨op, f.source.toNat, f.seat.toNat⟩, minutes := granted }))
        ∧ (∀ x, x ∈ t.owed ↔ x ∈ s.owed ∧ x ≠ .shelf p)
        ∧ ConsolesKept (s.taken ms 1 f) t ∧ AlarmEventFrame { s with shelf := t.shelf, owed := t.owed } t))
  ∧ (∀ (ms op p : Nat) (f : Frame) (s : State), countedFrom s f op = true → f.recs = [⟨0x24#8, b2 p⟩] → p < 65536 →
    (∀ r, firstFailing (shelfChecks s f op p) = some r → exec (.unshelve ms f) s
        = .next ((s.taken ms 1 f).sendEntry .console (respTo s f op r [stateRec s p])))
    ∧ (firstFailing (shelfChecks s f op p) = none → s.shelved p = false → exec (.unshelve ms f) s
        = .next ((s.taken ms 1 f).sendEntry .console (respTo s f op .notPending [stateRec s p])))
    ∧ (firstFailing (shelfChecks s f op p) = none → s.shelved p = true →
      ∃ t, exec (.unshelve ms f) s = .next t ∧ Unshelved p (s.stampAt ms) s t
        ∧ (s.console.ownRoom = true → UnshelvingReported p (s.stampAt ms) .unshelve
            (some ⟨op, f.source.toNat, f.seat.toNat⟩) s t)
        ∧ t.console = s.console.joinOwn (respTo s f op .ok [stateRec t p])
        ∧ ConsolesKept (s.taken ms 1 f) t ∧ AlarmEventFrame { s with shelf := t.shelf } t))
  ∧ (∀ (p : Nat) (l r : List ShelfEntry) (e : ShelfEntry) (s : State), s.settled = true → s.shelf = l ++ e :: r →
    e.point = p → e.ticks ≤ 1 → TickItem.shelf p ∈ s.owed → (∀ x ∈ l, TickItem.shelf x.point ∉ s.owed) →
    ∃ t, exec .shelfExpired s = .next t ∧ Unshelved p s.stamp s t ∧ UnshelvingReported p s.stamp .shelfExpired none s t
      ∧ t.console = s.console ∧ ConsolesKept s t
      ∧ (∀ x, x ∈ t.owed ↔ x ∈ s.owed ∧ x ≠ .shelf p)
      ∧ AlarmEventFrame { s with shelf := t.shelf, owed := t.owed } t)

/-- SILENCE at a console of class ACK or FULL: a SOUNDING horn becomes SILENCED and queues its notice, another stays, and
the RESP carries the horn state after it; at class VIEW it is refused CLASS_TOO_LOW. Nothing else changes (R77, R80). That
the refused one carries no horn record is the model's reading of R180 (log 58). -/
def Obligations.SilenceActsOnTheHornAlone : Prop :=
  ∀ (ms op : Nat) (f : Frame) (c : Console) (s : State), countedFrom s f op = true → f.recs = [] →
    lookup s.consoles f.source.toNat = some c →
    (c.cls = some .view → exec (.silence ms f) s
      = .next ((s.taken ms 1 f).sendEntry .console (respTo s f op .classTooLow [])))
    ∧ (c.cls ≠ some .view → c.horn = .sounding → exec (.silence ms f) s
      = .next (((s.taken ms 1 f).modConsole f.source.toNat fun k => Console.take
          { k with horn := .silenced } (.horn .silenced)).sendEntry .console
            (respTo s f op .ok [⟨0x75#8, [3#8]⟩])))
    ∧ (c.cls ≠ some .view → c.horn ≠ .sounding → exec (.silence ms f) s
      = .next ((s.taken ms 1 f).sendEntry .console (respTo s f op .ok [⟨0x75#8, b1 c.horn.code⟩])))

/-! ## Authority (R103 to R118) -/

/-- CLAIM: the first failing check answers and nothing else happens; past them, a HELD area stays as its holder has it,
and another becomes HELD by the claimant at the seat, his contexts leave its relief stack, its retained entry and the
journal are written, and the RESP tells the previous authority and holder (R107, R113, R114, R143, R144). -/
def Obligations.ClaimTakesTheArea : Prop :=
  ∀ (ms op a : Nat) (f : Frame) (s : State), countedFrom s f op = true → f.recs = [⟨0x26#8, b1 a⟩] → a < 256 →
    let r := s.area a
    let resp := respTo s f op .ok [⟨0x76#8, b1 a ++ b1 r.authority.code ++ b2 ((s.holderOp a).getD 0)⟩]
    let h : Holder := ⟨op, f.source.toNat, f.seat.toNat⟩
    (16 ≤ a → exec (.claim ms f) s
      = .next ((s.taken ms 1 f).sendEntry .console (respTo s f op .badRequest [])))
    ∧ (a < 16 → ∀ x, firstFailing (claimChecks s f op a) = some x → exec (.claim ms f) s
      = .next ((s.taken ms 1 f).sendEntry .console (respTo s f op x [])))
    ∧ (a < 16 → firstFailing (claimChecks s f op a) = none → r.authority = .held → exec (.claim ms f) s
      = .next ((s.taken ms 1 f).sendEntry .console resp))
    ∧ (a < 16 → firstFailing (claimChecks s f op a) = none → r.authority ≠ .held →
      ∃ t, exec (.claim ms f) s = .next t ∧ AreaTaken a h .claim (s.stampAt ms) s t
        ∧ t.console = s.console.joinOwn resp ∧ t.records = s.records ∧ ConsolesKept (s.taken ms 1 f) t
        ∧ AuthorityEventFrame s t)

/-- FORCE_AREA as the last record of its MREQ: an index above 15 is BAD_INDEX, an operator without a session
NOT_LOGGED_IN, one at a console below FULL CLASS_TOO_LOW; else the area is HELD by him at his seat, or with operator 0 UNHELD
with its relief stack kept, and the journal has an entry FORCE; an open record that names the area has ended first with
AUTHORITY_LOST, and the journal has its entry before (R115, R116, R140, R144). -/
def Obligations.ForcedAreaChangesHands : Prop :=
  ∀ (r : Request) (a op : Nat) (s : State), lastRecord s r ⟨0x86#8, b1 a ++ b2 op⟩ 0 = true → a < 256 → op < 65536 →
    let result (x : Result) : OwnEntry := mrepTo s r (r.results ++ [⟨0x90#8, b1 x.code⟩])
    let closed : State := { s with request := none }
    (16 ≤ a → exec .forceArea s = .next (closed.sendEntry .plant (result .badIndex)))
    ∧ (a < 16 → op ≠ 0 → s.session op = none →
        exec .forceArea s = .next (closed.sendEntry .plant (result .notLoggedIn)))
    ∧ (∀ c n, a < 16 → op ≠ 0 → s.session op = some (c, n) → s.consoleAtLeast c .full = false →
        exec .forceArea s = .next (closed.sendEntry .plant (result .classTooLow)))
    ∧ (∀ c n, a < 16 → op ≠ 0 → s.session op = some (c, n) → s.consoleAtLeast c .full = true →
        (s.area a).openRecord = none →
      ∃ t, exec .forceArea s = .next t ∧ AreaTaken a ⟨op, c, n⟩ .force s.stamp s t
        ∧ t.plant = s.plant.joinOwn (result .ok) ∧ t.records = s.records ∧ ConsolesKept s t
        ∧ AuthorityEventFrame closed t)
    ∧ (a < 16 → op = 0 → (s.area a).openRecord = none →
      ∃ t, exec .forceArea s = .next t
        ∧ (∀ b, t.area b = if b = a then { s.area a with authority := .unheld, holder := none, graceLeft := 0 }
            else s.area b)
        ∧ (lookup t.retained.areas a).getD {} = ⟨none, (s.area a).relief⟩
        ∧ t.retained.journalSeq = (s.retained.journalSeq + 1) % 4294967296
        ∧ t.retained.journal.getLast? = some
            { kind := .force, seq := (s.retained.journalSeq + 1) % 4294967296, time := s.stamp, areas := [a]
              outgoing := s.holderOp a }
        ∧ t.plant = s.plant.joinOwn (result .ok) ∧ t.records = s.records ∧ ConsolesKept s t
        ∧ AuthorityEventFrame closed t)
    ∧ (∀ (g : Handover) (heir : Option Holder), a < 16 → s.time.Sound →
        (op = 0 ∧ heir = none
          ∨ op ≠ 0 ∧ ∃ c n, s.session op = some (c, n) ∧ s.consoleAtLeast c .full = true ∧ heir = some ⟨op, c, n⟩) →
        (s.area a).openRecord = some g.number → s.record g.number = some g → a ∈ g.areas →
      ∃ t, exec .forceArea s = .next t ∧ AreaForcedFrom a g heir s.stamp s t
        ∧ t.plant = s.plant.joinOwn (result .ok) ∧ ConsolesKept s t ∧ AuthorityEventFrame closed t)

/-! ## Standing lists and the console's turn (R71 to R75, R102) -/

/-- The standing list of an area (R71): its slots, each once, in the order of the five keys, then its queue entries in
queue order. -/
def Obligations.StandingListIsOrdered : Prop :=
  ∀ (s : State) (a : Nat), ∃ l : List Slot,
    standingList s a = l.map .slot ++ (s.queue.filter fun q => (s.pointDef q.point).area == a).map .queued
    ∧ l.Perm ((s.slots.map Prod.snd).filter fun sl => (s.pointDef sl.point).area == a)
    ∧ l.Pairwise fun x y =>
        (x.shelved = true → y.shelved = true)
        ∧ (x.shelved = y.shelved →
          (s.pointDef x.point).priority.rank ≤ (s.pointDef y.point).priority.rank
          ∧ ((s.pointDef x.point).priority = (s.pointDef y.point).priority →
            (y.unacked = true → x.unacked = true)
            ∧ (x.unacked = y.unacked → y.onset.older x.onset = false
              ∧ (x.onset = y.onset → x.point ≤ y.point))))

/-- PAGE: an area or page out of range is BAD_REQUEST and an operator without VIEW is DENIED_RIGHTS; a page number is
answered with one PAGED of up to 16 entries of the list; ALL with a transfer, refused BUSY where the console has one,
whose first PAGED is placed at once where OWN has room, marked END and ending the transfer where the list holds at most
16 entries (R72 to R75). That this first PAGED leaves the turn of R102 unmoved, and that a single page carries no
marks, are the model's choices (logs 48 and 67). -/
def Obligations.PageIsAnsweredOrTransferred : Prop :=
  (∀ (ms op : Nat) (f : Frame) (s : State), requestFrom s f op = true → pageRecord f.recs = none →
    exec (.page ms f) s = .next ((s.taken ms 0 f).sendEntry .console (respTo s f op .badRequest [])))
  ∧ (∀ (ms op a n : Nat) (f : Frame) (s : State), requestFrom s f op = true → a ≤ 15 → n ≤ 63 →
    f.recs = [⟨0x34#8, b1 a ++ b1 n⟩] →
    (s.hasRight op a .view = false → exec (.page ms f) s
      = .next ((s.taken ms 0 f).sendEntry .console (respTo s f op .deniedRights [])))
    ∧ (s.hasRight op a .view = true → exec (.page ms f) s
      = .next ((s.taken ms 0 f).sendEntry .console (pagedTo s f op
          (⟨0x60#8, b1 a ++ b1 n ++ b2 (s.area a).generation ++ b2 (standingList s a).length ++ b1 0⟩
            :: pageEntries s a (16 * n))))))
  ∧ (∀ (ms op a : Nat) (f : Frame) (c : Console) (s : State), requestFrom s f op = true → a ≤ 15 →
    f.recs = [⟨0x34#8, b1 a ++ [0xFF#8]⟩] → lookup s.consoles f.source.toNat = some c →
    let l := (standingList s a).length
    let first : Transfer := ⟨a, f.seat.toNat, op, f.seq, (s.area a).generation, 0, 0⟩
    (s.hasRight op a .view = false → exec (.pageAll ms f) s
      = .next ((s.taken ms 0 f).sendEntry .console (respTo s f op .deniedRights [])))
    ∧ (s.hasRight op a .view = true → c.transfer ≠ none → exec (.pageAll ms f) s
      = .next ((s.taken ms 0 f).sendEntry .console (respTo s f op .busy [])))
    ∧ (s.hasRight op a .view = true → c.transfer = none → s.console.ownRoom = false → exec (.pageAll ms f) s
      = .next ((s.taken ms 0 f).modConsole f.source.toNat fun k => { k with transfer := some first }))
    ∧ (s.hasRight op a .view = true → c.transfer = none → s.console.ownRoom = true → exec (.pageAll ms f) s
      = .next (((s.taken ms 0 f).modConsole f.source.toNat fun k => { k with
          transfer := if l ≤ 16 then none else some { first with position := 16, page := 1 } }).sendEntry .console
        (pagedTo s f op (⟨0x60#8, b1 a ++ b1 0 ++ b2 (s.area a).generation ++ b2 l ++ b1 (if l ≤ 16 then 1 else 0)⟩
          :: pageEntries s a 0)))))
  ∧ (∀ (s : State) (a n k : Nat) (e : Standing), k < 16 → (standingList s a)[n + k]? = some e →
    (pageEntries s a n)[k]? = some (pageEntry s (n + k) e))
  ∧ (∀ (s : State) (a n : Nat), (pageEntries s a n).length = min 16 ((standingList s a).length - n))

/-- While a console waits, one is next in turn; each time OWN has room it places one telegram: NOTICE_DEQUEUE its head
notice, under the next notice sequence, and TRANSFER_PAGED the next PAGED of its transfer: the rest of an unchanged list
in 16s, or, where the area's generation has moved, an empty one marked END and CHANGED (R75, R102). That the latter
carries the transfer's next page number is the model's choice (log 49). -/
def Obligations.WaitingConsoleIsServedInTurn : Prop :=
  (∀ (s : State) (a : Nat), nextWaiting s = none → (lookup s.consoles a).any Console.waits = false)
  ∧ (∀ (s : State) (a : Nat), risingKeys s.consoles = true → nextWaiting s = some a →
    (lookup s.consoles a).any Console.waits = true
    ∧ ∀ b, (lookup s.consoles b).any Console.waits = true →
        (s.turn < a ∧ (b ≤ s.turn ∨ a ≤ b)) ∨ (a ≤ s.turn ∧ b ≤ s.turn ∧ a ≤ b))
  ∧ (∀ (s : State) (a : Nat) (c : Console) (n : Notice) (rest : List Notice), s.settled = true →
    nextWaiting s = some a → lookup s.consoles a = some c → c.transfer = none → c.notices = n :: rest →
    s.console.ownRoom = true →
    exec .noticeDequeue s = .next ((({ s with turn := a, statSent := false } : State).modConsole a fun k => { k with
        notices := rest, noticeSeq := (c.noticeSeq + 1) % 65536 }).sendEntry .console
      ⟨generated s 0x3A#8 a 0 (BitVec.ofNat 16 ((c.noticeSeq + 1) % 65536)) 0 [n.record], false⟩))
  ∧ (∀ (s : State) (a : Nat) (c : Console) (x : Transfer), s.settled = true → nextWaiting s = some a →
    lookup s.consoles a = some c → c.transfer = some x → s.console.ownRoom = true →
    let l := (standingList s x.area).length
    let g := (s.area x.area).generation
    let head (marks : Nat) : Rec := ⟨0x60#8, b1 x.area ++ b1 x.page ++ b2 g ++ b2 l ++ b1 marks⟩
    let placed (left : Option Transfer) (recs : List Rec) : State :=
      (({ s with turn := a, statSent := false } : State).modConsole a fun k => { k with transfer := left }).sendEntry
        .console ⟨generated s 0x39#8 a x.seat x.seq (BitVec.ofNat 16 x.operator) recs, false⟩
    (g ≠ x.generation → exec .transferPaged s = .next (placed none [head 3]))
    ∧ (g = x.generation → l ≤ x.position + 16 →
        exec .transferPaged s = .next (placed none (head 1 :: pageEntries s x.area x.position)))
    ∧ (g = x.generation → x.position + 16 < l →
        exec .transferPaged s = .next (placed (some { x with position := x.position + 16, page := x.page + 1 })
          (head 0 :: pageEntries s x.area x.position))))

/-! ## Handover (R119 to R142) -/

/-- The review list of an OFFER (R126): each entry UNREVIEWED with its point's priority, each point once, and a point of
one of the areas stands in it exactly where its standing-list entry, or its shelf entry without one, meets the kind's
criterion. The entries stand by the areas in the order given, which an OFFER's area set gives ascending, in each by the
standing list and then by the shelf list, a point at its first place (R125, R126). -/
def Obligations.ReviewListIsBuilt : Prop :=
  ∀ (s : State) (k : HandoverKind) (areas : List Nat),
    ((buildReview s k areas).map fun e => e.point).Nodup
    ∧ (∀ e ∈ buildReview s k areas, e.state = .unreviewed ∧ e.priority = (s.pointDef e.point).priority
        ∧ (s.AlarmTableSound → e.occ = match s.slotOf e.point with | some (_, sl) => sl.occ | none => 0))
    ∧ (∀ p, (∃ e ∈ buildReview s k areas, e.point = p) ↔ ∃ a ∈ areas,
        (∃ e ∈ standingList s a, e.point = p ∧ match k with
          | .shift => True
          | .relief => (s.pointDef p).priority = .urgent ∨ (s.pointDef p).priority = .high ∨ s.shelved p = true
          | .giveBack => (∃ c, (s.area a).relief.head? = some c ∧ e.onset.older c.start = false)
              ∨ s.shelvedInRelief p = true)
        ∨ (∃ x ∈ s.shelf, x.point = p ∧ (s.pointDef p).area = a ∧ s.slotOf p = none ∧ s.queued p = false
            ∧ (k = .giveBack → x.relief = true)))
    ∧ (let candidates (a : Nat) : List Nat :=
        ((standingList s a).filter (fun e => match k with
          | .shift => true
          | .relief => decide ((s.pointDef e.point).priority.rank ≤ 1) || s.shelved e.point
          | .giveBack => ((s.area a).relief.head?.any fun c => !e.onset.older c.start)
              || s.shelvedInRelief e.point)).map Standing.point
        ++ (s.shelf.filter fun x => (s.pointDef x.point).area == a && (s.slotOf x.point).isNone && !s.queued x.point
          && (k != .giveBack || x.relief)).map ShelfEntry.point
      (buildReview s k areas).Pairwise fun x y =>
        (areas.flatMap candidates).idxOf x.point < (areas.flatMap candidates).idxOf y.point)
    ∧ (∀ w, (areasOf w).Pairwise (· < ·) ∧ ∀ a, a ∈ areasOf w ↔ a < 16 ∧ w.testBit a = true)

/-- OFFER: the first failing check answers and nothing else happens, and more than 256 candidates are
TOO_MANY_STANDING; past them a record opens in OFFERED under the first number from the counter's successor on that no
open record holds, with the smallest limits of its areas, which take its number; the counter takes it too, the RESP
tells number and counts, and the incoming console alone gets a NOTE HANDOVER with OFFERED and the counts of the list
(R120, R121, R123, R124, R132). -/
def Obligations.OfferOpensARecord : Prop :=
  (∀ (ms op : Nat) (f : Frame) (d : List Byte) (s : State), handoverStep s f op 0x41#8 d = true → d.length = 5 →
    risingKeys s.consoles = true →
    let o := offerOf d
    (∀ r, firstFailing (offerChecks s op o) = some r → exec (.offer ms f) s
        = .next ((s.taken ms 1 f).sendEntry .console (respTo s f op r [])))
    ∧ (∀ k c n, firstFailing (offerChecks s op o) = none → o.kind = some k → s.session o.inOp = some (c, n) →
      let list := buildReview s k o.areas
      (256 < list.length → exec (.offer ms f) s
        = .next ((s.taken ms 1 f).sendEntry .console (respTo s f op .tooManyStanding [⟨0x7C#8, b2 list.length⟩])))
      ∧ (list.length ≤ 256 → ∃ (t : State) (h : Handover), exec (.offer ms f) s = .next t
        ∧ h = { number := h.number, kind := k, outOp := op, outConsole := f.source.toNat, outSeat := f.seat.toNat
                inOp := o.inOp, inConsole := c, inSeat := n, areas := o.areas, state := .offered
                attendLeft := h.attendLeft, left := h.left, list := list, incomplete := false }
        ∧ (∀ g ∈ s.records, g.number ≠ h.number) ∧ 1 ≤ h.number ∧ h.number ≤ 65535
        ∧ ((∀ g ∈ s.records, g.number ≠ nextOccurrence s.retained.counter) →
            h.number = nextOccurrence s.retained.counter)
        ∧ (∃ k, k ≤ s.records.length ∧ h.number = nextOccurrence^[k + 1] s.retained.counter
            ∧ ∀ j, j < k → nextOccurrence^[j + 1] s.retained.counter ∈ s.records.map Handover.number)
        ∧ (∀ a ∈ o.areas, h.attendLeft ≤ (s.areaParams a).attend ∧ h.left ≤ (s.areaParams a).handover)
        ∧ (∃ a ∈ o.areas, h.attendLeft = (s.areaParams a).attend)
        ∧ (∃ a ∈ o.areas, h.left = (s.areaParams a).handover)
        ∧ (∀ g, g ∈ t.records ↔ g = h ∨ g ∈ s.records)
        ∧ (∀ a, t.area a = if a ∈ o.areas then { s.area a with openRecord := some h.number } else s.area a)
        ∧ t.retained.counter = h.number
        ∧ (∃ x ∈ t.retained.summaries, x = ⟨h.number, k, op, o.inOp, o.areas, .offered⟩)
        ∧ t.console = s.console.joinOwn (respTo s f op .ok
            [⟨0x78#8, b2 h.number ++ b1 k.code ++ b1 1 ++ b2 (areaSet o.areas) ++ b2 list.length ++ b2 0 ++ b2 0
              ++ b2 list.length ++ b1 0⟩])
        ∧ (∀ a, lookup t.consoles a = (lookup (s.taken ms 1 f).consoles a).map fun x =>
            if a = c then x.take (.handover h.number k .offered none ⟨list.length, 0, 0, list.length⟩) else x)
        ∧ AuthorityEventFrame s t)))

/-- The checks of every handover step in their order (R122): a console below FULL or without HANDOVER_DIALOG is
CLASS_TOO_LOW, a body that is not the step's one record of its length BAD_REQUEST (that the class stands first also
for no record and for several, which R178 answers BAD_REQUEST, is the model's choice, log 21), a number no open record
carries NOT_PENDING, another than the step's party DENIED_AUTHORITY, a step the state does not admit BAD_REQUEST. Past
them, ATTEND takes the record from OFFERED to REVIEW and tells the outgoing console with the counts of the list (R120,
R132), and in REVIEW changes nothing; REVIEWED takes its pairs in order, each against the list the earlier ones left:
past the end BAD_REQUEST, a RESOLVED entry RESOLVED, another occurrence MISMATCH, and else the entry becomes REVIEWED;
its RESP carries the counts, the results and a page (R133, R134). -/
def Obligations.ReviewIsAttendedAndMarked : Prop :=
  (∀ (ms op : Nat) (f : Frame) (c : Instr) (code : Byte) (ok : List Byte → Bool) (d : List Byte) (s : State),
    (c, code, ok) ∈ hovrSteps ms f → countedFrom s f op = true →
    let refused (r : Result) : Prop := exec c s = .next ((s.taken ms 1 f).sendEntry .console (respTo s f op r []))
    (f.recs = [⟨code, d⟩] ∨ f.recs.length ≠ 1 → dialogConsole s f.source.toNat = false → refused .classTooLow)
    ∧ (f.recs = [⟨code, d⟩] → ok d = false → dialogConsole s f.source.toNat = true → refused .badRequest)
    ∧ (f.recs.length ≠ 1 → dialogConsole s f.source.toNat = true → refused .badRequest))
  ∧ (∀ (ms op : Nat) (f : Frame) (c : Instr) (code : Byte) (ok : List Byte → Bool) (incoming reviewOnly : Bool)
      (d : List Byte) (s : State), (c, code, ok, incoming, reviewOnly) ∈ partySteps ms f →
    handoverStep s f op code d = true → ok d = true →
    let refused (r : Result) : Prop := exec c s = .next ((s.taken ms 1 f).sendEntry .console (respTo s f op r []))
    (s.record (field2 d 0) = none → refused .notPending)
    ∧ ∀ h, s.record (field2 d 0) = some h →
        ((if incoming then h.inOp else h.outOp) ≠ op → refused .deniedAuthority)
        ∧ ((if incoming then h.inOp else h.outOp) = op → reviewOnly = true → h.state ≠ .review → refused .badRequest))
  ∧ (∀ (ms op : Nat) (f : Frame) (d : List Byte) (h : Handover) (s : State), handoverStep s f op 0x42#8 d = true →
    d.length = 2 → s.record (field2 d 0) = some h → h.inOp = op →
    let n : Handover := { h with state := .review, attendLeft := 0 }
    (h.state = .offered → ∃ t, exec (.attend ms f) s = .next t
      ∧ t.records = s.records.map (fun g => if g.number = h.number then n else g)
      ∧ (∃ x ∈ t.retained.summaries, x = ⟨h.number, h.kind, h.outOp, h.inOp, h.areas, .review⟩)
      ∧ t.areas = s.areas ∧ t.console = s.console.joinOwn (respTo s f op .ok [handoverRec n .review])
      ∧ (∀ a, lookup t.consoles a = (lookup (s.taken ms 1 f).consoles a).map fun x =>
          if a = h.outConsole then x.take (.handover h.number h.kind .review none (countsOf h.list)) else x)
      ∧ AuthorityEventFrame s t)
    ∧ (h.state ≠ .offered → exec (.attend ms f) s
        = .next ((s.taken ms 1 f).sendEntry .console (respTo s f op .ok [handoverRec h h.state]))))
  ∧ (∀ (ms op : Nat) (f : Frame) (d : List Byte) (h : Handover) (s : State), handoverStep s f op 0x43#8 d = true →
    reviewedLength d = true → s.record (field2 d 0) = some h → h.inOp = op →
    (h.state ≠ .review → exec (.reviewed ms f) s
        = .next ((s.taken ms 1 f).sendEntry .console (respTo s f op .badRequest [])))
    ∧ (h.state = .review →
      let x := reviewAll (reviewPairs 32 (d.drop 3)) h.list
      exec (.reviewed ms f) s = .next (({ s.taken ms 1 f with
          records := s.records.map fun g => if g.number = h.number then { h with list := x.2 } else g } : State).sendEntry
        .console (respTo s f op .ok
          (handoverRec { h with list := x.2 } .review :: (x.1 ++ reviewPage (field1 d 2) x.2))))))
  ∧ (∀ (pos occ : Nat) (l : List ReviewEntry),
    (l.length ≤ pos → reviewPair pos occ l = (.badRequest, l))
    ∧ (∀ e, l[pos]? = some e →
        (e.state = .resolved → reviewPair pos occ l = (.resolved, l))
        ∧ (e.state ≠ .resolved → e.occ ≠ occ → reviewPair pos occ l = (.mismatch, l))
        ∧ (e.state ≠ .resolved → e.occ = occ →
            reviewPair pos occ l = (.ok, l.set pos { e with state := .reviewed }))))
  ∧ (∀ (pos occ : Nat) (rest : List (Nat × Nat)) (l : List ReviewEntry),
    let one := reviewPair pos occ l
    let more := reviewAll rest one.2
    reviewAll [] l = ([], l)
    ∧ reviewAll ((pos, occ) :: rest) l
        = (⟨0x79#8, b1 pos ++ b1 one.1.code ++ b2 ((one.2[pos]?.map fun e => e.occ).getD 0)⟩ :: more.1, more.2))

/-- The review lists of open records while alarms go on (R127 to R132). An event's slot changes and then its shelf
events act on each record in order. A new occurrence resets the point's entry to UNREVIEWED, an admission gives it
occurrence 1, a FREE, EVICT or QUEUE_LEAVE resolves it unless the point is shelved, a DISCARD resolves it, and any
other change leaves it. A point of the areas without an entry is appended where the record's kind takes the change, or
sets INCOMPLETE at 256 entries. A shelving resets or appends; an unshelving resets where the occurrence advanced, else
resolves where the condition is NORMAL. The incoming console gets a NOTE HANDOVER with the counts of its list (R120)
where an entry was appended, reset or resolved or INCOMPLETE became yes; that an admission's new occurrence gives none
is the model's reading of R132 (log 31). So an onset of a PREP is appended to a SHIFT record, and an ACK that frees
the slot resolves its entry. -/
def Obligations.ReviewListsFollowTheAlarms : Prop :=
  (∀ (before : State) (e : Ev) (xs : List ShelfEvent), (e.s.records.map fun h => h.number).Nodup →
    (handOn before e xs).records = e.s.records.map fun h =>
      (xs.foldl (fun r x => reviewShelf e.s x r) (e.changes.foldl (fun r c => reviewChange e.s c r) (h, false))).1)
  ∧ (∀ (s : State) (cs : List SlotChange) (xs : List ShelfEvent) (h : Handover), s.records = [h] →
    let r := xs.foldl (fun r x => reviewShelf s x r) (cs.foldl (fun r c => reviewChange s c r) (h, false))
    (r.2 = true → engineEvent cs xs s
      = ({ s with records := [r.1] } : State).notify h.inConsole (.handover h.number h.kind h.state none
          (countsOf r.1.list)))
    ∧ (r.2 = false → engineEvent cs xs s = { s with records := [r.1] }))
  ∧ (∀ (s : State) (c : SlotChange) (h : Handover) (b : Bool), (h.list.map fun e => e.point).Nodup →
    let fresh : Prop := c.kind ∈ [ChangeKind.onset, .reonset, .ringback, .queueJoin, .queueReonset]
      ∨ (c.kind = .reannounce ∧ c.oldOcc ≠ c.newOcc)
    let left : Prop := c.kind ∈ [ChangeKind.free, .evict, .queueLeave]
    let entry : ReviewEntry := ⟨c.point, c.newOcc.getD 0, (s.pointDef c.point).priority, .unreviewed⟩
    let takes : Prop := c.area ∈ h.areas ∧ (fresh ∨ c.kind = .admission) ∧ match h.kind with
      | .shift => True
      | .relief => ((s.pointDef c.point).priority = .urgent ∨ (s.pointDef c.point).priority = .high) ∧ c.counted = true
      | .giveBack => ∃ now top, s.onsetOf c.point = some now ∧ (s.area c.area).relief.head? = some top
          ∧ now.older top.start = false
    let r := reviewChange s c (h, b)
    ((∃ e ∈ h.list, e.point = c.point) →
      (fresh → r = ({ h with list := h.list.map fun e => if e.point = c.point then entry else e }, true))
      ∧ (c.kind = .admission →
          r = ({ h with list := h.list.map fun e => if e.point = c.point then { e with occ := 1 } else e }, b))
      ∧ (left ∧ s.shelved c.point = false ∨ c.kind = .discard →
          r.1 = { h with list := h.list.map fun e => if e.point = c.point then { e with state := .resolved } else e }
          ∧ ((∃ e ∈ h.list, e.point = c.point ∧ e.state ≠ .resolved) → r.2 = true))
      ∧ (¬ fresh → c.kind ≠ .admission → ¬ (left ∧ s.shelved c.point = false) → c.kind ≠ .discard → r = (h, b)))
    ∧ ((∀ e ∈ h.list, e.point ≠ c.point) →
      (takes → h.list.length < 256 → r = ({ h with list := h.list ++ [entry] }, true))
      ∧ (takes → 256 ≤ h.list.length → r = ({ h with incomplete := true }, b || !h.incomplete))
      ∧ (¬ takes → r = (h, b))))
  ∧ (∀ (s : State) (p : Nat) (h : Handover) (b : Bool), (h.list.map fun e => e.point).Nodup →
    let entry : ReviewEntry := ⟨p, s.occOf p, (s.pointDef p).priority, .unreviewed⟩
    let reset : Handover := { h with list := h.list.map fun e => if e.point = p then entry else e }
    ((∃ e ∈ h.list, e.point = p) → reviewShelf s (.shelved p) (h, b) = (reset, true))
    ∧ ((∀ e ∈ h.list, e.point ≠ p) → (s.pointDef p).area ∈ h.areas → h.list.length < 256 →
        reviewShelf s (.shelved p) (h, b) = ({ h with list := h.list ++ [entry] }, true))
    ∧ ((∀ e ∈ h.list, e.point ≠ p) → (s.pointDef p).area ∈ h.areas → 256 ≤ h.list.length →
        reviewShelf s (.shelved p) (h, b) = ({ h with incomplete := true }, b || !h.incomplete))
    ∧ ((∀ e ∈ h.list, e.point ≠ p) → (s.pointDef p).area ∉ h.areas → reviewShelf s (.shelved p) (h, b) = (h, b))
    ∧ ((∃ e ∈ h.list, e.point = p) → reviewShelf s (.unshelved p true) (h, b) = (reset, true))
    ∧ ((∃ e ∈ h.list, e.point = p) → (s.dynOf p).cond = .normal →
        (reviewShelf s (.unshelved p false) (h, b)).1
          = { h with list := h.list.map fun e => if e.point = p then { e with state := .resolved } else e })
    ∧ ((s.dynOf p).cond = .active → reviewShelf s (.unshelved p false) (h, b) = (h, b))
    ∧ (∀ adv, (∀ e ∈ h.list, e.point ≠ p) → reviewShelf s (.unshelved p adv) (h, b) = (h, b)))
  ∧ (∀ (ms p i a : Nat) (f : Frame) (d : List Byte) (h : Handover) (s : State), OnsetReport s f d p i a →
    (s.records.map fun h => h.number).Nodup → h ∈ s.records → h.kind = .shift → a ∈ h.areas →
    (∀ e ∈ h.list, e.point ≠ p) → h.list.length < 256 →
    ∃ t, exec (.prep ms f) s = .next t
      ∧ { h with list := h.list ++ [⟨p, 1, (s.pointDef p).priority, .unreviewed⟩] } ∈ t.records)
  ∧ (∀ (ms op p n i : Nat) (f : Frame) (sl : Slot) (h : Handover) (s : State), countedFrom s f op = true →
    f.recs = [⟨0x21#8, b2 p ++ b2 n⟩] → p < 65536 → n < 65536 → firstFailing (ackChecks s f op p) = none →
    s.slotOf p = some (i, sl) → sl.state = .returnedUnack → sl.occ = n → s.queue = [] → s.AlarmTableSound →
    s.shelved p = false → (s.records.map fun h => h.number).Nodup → h ∈ s.records →
    (h.list.map fun e => e.point).Nodup →
    ∃ t, exec (.ack ms f) s = .next t
      ∧ { h with list := h.list.map fun e => if e.point = p then { e with state := .resolved } else e } ∈ t.records)

/-- ACCEPT in REVIEW: an UNREVIEWED entry is REVIEW_OPEN with their number, INCOMPLETE is INCOMPLETE, and a missing
right DENIED_RIGHTS; else the record completes: every area of it is HELD by the incoming operator at his seat, its
relief stack emptied by SHIFT, pushed by RELIEF and popped by RETURN, the record and its summary are gone, the journal
has an entry COMPLETE, and the consoles get a NOTE AUTHORITY of each area they see and then, those of the two parties,
a NOTE HANDOVER with COMPLETE and the counts of the list (R105, R118, R120, R132, R135, R138, R139). -/
def Obligations.AcceptCompletesTheHandover : Prop :=
  ∀ (ms op : Nat) (f : Frame) (d : List Byte) (h : Handover) (s : State), handoverStep s f op 0x44#8 d = true →
    d.length = 2 → s.record (field2 d 0) = some h → h.inOp = op → h.state = .review → s.NumbersApart →
    (h.unreviewed ≠ 0 → exec (.accept ms f) s
      = .next ((s.taken ms 1 f).sendEntry .console (respTo s f op .reviewOpen [⟨0x7C#8, b2 h.unreviewed⟩])))
    ∧ (h.unreviewed = 0 → h.incomplete = true → exec (.accept ms f) s
      = .next ((s.taken ms 1 f).sendEntry .console (respTo s f op .incomplete [])))
    ∧ (h.unreviewed = 0 → h.incomplete = false → (∃ a ∈ h.areas, s.hasRight op a .operate = false) →
      exec (.accept ms f) s = .next ((s.taken ms 1 f).sendEntry .console (respTo s f op .deniedRights [])))
    ∧ (h.unreviewed = 0 → h.incomplete = false → (∀ a ∈ h.areas, s.hasRight op a .operate = true) →
      ∃ t, exec (.accept ms f) s = .next t
        ∧ (∀ a, t.area a = if a ∈ h.areas then { s.area a with
              authority := .held, holder := some ⟨op, h.inConsole, h.inSeat⟩, graceLeft := 0, openRecord := none
              relief := match h.kind with
                | .shift => []
                | .relief => ⟨h.outOp, h.outConsole, s.stampAt ms, h.number⟩ :: (s.area a).relief
                | .giveBack => (s.area a).relief.drop 1 }
            else s.area a)
        ∧ (∀ a ∈ h.areas, (lookup t.retained.areas a).getD {} = ⟨(t.area a).holder, (t.area a).relief⟩)
        ∧ t.records = s.records.filter (fun g => !(g.number == h.number))
        ∧ (∀ x ∈ t.retained.summaries, x.number ≠ h.number)
        ∧ (∃ e, t.retained.journal.getLast? = some e ∧ e.kind = .complete ∧ e.number = some h.number
            ∧ e.areas = h.areas ∧ e.outgoing = some h.outOp ∧ e.incoming = some op
            ∧ e.counts = some (h.list.length, h.reviewed, h.resolved))
        ∧ t.console = s.console.joinOwn (respTo s f op .ok [handoverRec h .complete])
        ∧ (risingKeys s.consoles = true → ∀ a,
            lookup t.consoles a = (lookup (s.taken ms 1 f).consoles a).map fun c =>
              let x := h.areas.foldl (fun y r =>
                if (c.operators.any fun o => s.hasRight o r .view) = true then y.take (.authority r .held (some op))
                else y) c
              if a = h.outConsole ∨ a = h.inConsole then x.take (.handover h.number h.kind .complete none (countsOf h.list))
              else x)
        ∧ ConsolesKept (s.taken ms 1 f) t ∧ AuthorityEventFrame s t)

/-- DECLINE and WITHDRAW (R136): the incoming operator's DECLINE and the outgoing operator's WITHDRAW, in OFFERED or
REVIEW, end the record ABORTED with their reason, with a RESP OK that names it and a NOTE HANDOVER with the counts of
the list to both parties' consoles (R120, R132); the console needs FULL and HANDOVER_DIALOG; and a step for a record
that has ended is NOT_PENDING. -/
def Obligations.PartyEndsTheHandover : Prop :=
  (∀ (ms op : Nat) (f : Frame) (d : List Byte) (h : Handover) (s : State), handoverStep s f op 0x45#8 d = true →
    d.length = 2 → s.record (field2 d 0) = some h → h.inOp = op →
    ∃ t, exec (.decline ms f) s = .next t ∧ RecordAborted h .declined (s.stampAt ms) s t
      ∧ t.console = s.console.joinOwn (respTo s f op .ok [handoverRec h .aborted])
      ∧ PartiesTold h .aborted (some .declined) (s.taken ms 1 f) t ∧ AuthorityEventFrame s t)
  ∧ (∀ (ms op : Nat) (f : Frame) (d : List Byte) (h : Handover) (s : State), handoverStep s f op 0x46#8 d = true →
    d.length = 2 → s.record (field2 d 0) = some h → h.outOp = op →
    ∃ t, exec (.withdraw ms f) s = .next t ∧ RecordAborted h .withdrawn (s.stampAt ms) s t
      ∧ t.console = s.console.joinOwn (respTo s f op .ok [handoverRec h .aborted])
      ∧ PartiesTold h .aborted (some .withdrawn) (s.taken ms 1 f) t ∧ AuthorityEventFrame s t)
  ∧ (∀ (ms op : Nat) (f : Frame) (d : List Byte) (s : State), countedFrom s f op = true → d.length = 2 →
    (f.recs = [⟨0x45#8, d⟩] → dialogConsole s f.source.toNat = true → s.record (field2 d 0) = none →
      exec (.decline ms f) s = .next ((s.taken ms 1 f).sendEntry .console (respTo s f op .notPending [])))
    ∧ (f.recs = [⟨0x46#8, d⟩] → dialogConsole s f.source.toNat = true → s.record (field2 d 0) = none →
      exec (.withdraw ms f) s = .next ((s.taken ms 1 f).sendEntry .console (respTo s f op .notPending [])))
    ∧ (f.recs = [⟨0x46#8, d⟩] → dialogConsole s f.source.toNat = false →
      exec (.withdraw ms f) s = .next ((s.taken ms 1 f).sendEntry .console (respTo s f op .classTooLow []))))

/-! ## Operate commands (R146 to R158) -/

/-- OPCMD: the first failing check answers with the point and no tag and nothing else happens; past them the command
takes the next free tag, an entry with the confirm limit joins the table, and the command is forwarded to the point's
controller, its records unchanged (R149 to R151); that padding after them is not carried over is the model's choice
(log 76). The tag is 1 to 65535, and the first from the counter's successor on that no other entry holds. -/
def Obligations.OperateCommandIsForwarded : Prop :=
  (∀ (ms op p : Nat) (f : Frame) (rest : List Rec) (s : State), countedFrom s f op = true →
    f.recs = ⟨0x29#8, b2 p⟩ :: rest → p < 65536 →
    let d := s.pointDef p
    (bodyOk f.recs = false → exec (.opcmd ms f) s
      = .next ((s.taken ms 1 f).sendEntry .console (respTo s f op .badRequest [⟨0x7B#8, b2 0 ++ b2 p ++ b1 0⟩])))
    ∧ (∀ r, bodyOk f.recs = true → firstFailing (opcmdChecks s f op p) = some r → exec (.opcmd ms f) s
      = .next ((s.taken ms 1 f).sendEntry .console (respTo s f op r [⟨0x7B#8, b2 0 ++ b2 p ++ b1 0⟩])))
    ∧ (bodyOk f.recs = true → firstFailing (opcmdChecks s f op p) = none → exec (.opcmd ms f) s
      = .next (({ s.taken ms 1 f with
          tagCounter := nextTag s
          commands := s.commands ++ [⟨nextTag s, f.source.toNat, f.seat.toNat, op, f.seq, d.controller, p,
            s.tables.params.confirmLimit⟩] } : State).sendEntry .plant
        ⟨generated s 0x20#8 d.controller 0 (BitVec.ofNat 16 (nextTag s)) (BitVec.ofNat 16 op) f.recs, false⟩)))
  ∧ (∀ (ms op : Nat) (f : Frame) (s : State), countedFrom s f op = true → targetPoint f.recs = none →
    exec (.opcmd ms f) s = .next ((s.taken ms 1 f).sendEntry .console (respTo s f op .badRequest [])))
  ∧ (∀ s : State, s.commands.length < 32 →
    1 ≤ nextTag s ∧ nextTag s ≤ 65535 ∧ (∀ c ∈ s.commands, c.tag ≠ nextTag s)
    ∧ ((∀ c ∈ s.commands, c.tag ≠ nextOccurrence s.tagCounter) → nextTag s = nextOccurrence s.tagCounter)
    ∧ ∃ k, k ≤ s.commands.length ∧ nextTag s = nextOccurrence^[k + 1] s.tagCounter
        ∧ ∀ j, j < k → nextOccurrence^[j + 1] s.tagCounter ∈ s.commands.map Command.tag)

/-- CLEAR_HOLD from a console, past its checks in order, and from management for a configured controller: the fault latch
becomes CLEAR and NOTE CONTROLLER_HELD cleared goes to every ATTACHED console; management's of a CLEAR latch changes
nothing (R157, R158, R186). The record code of the address in the console's RESP is a free value (log 5). -/
def Obligations.HeldControllerIsCleared : Prop :=
  (∀ (ms op a : Nat) (f : Frame) (s : State), countedFrom s f op = true → f.recs = [⟨0x27#8, b1 a⟩] → a < 256 →
    (lookup s.controllers a = none → exec (.clearHold ms f) s
      = .next ((s.taken ms 1 f).sendEntry .console (respTo s f op .badRequest [])))
    ∧ (∀ r, lookup s.controllers a ≠ none → firstFailing (clearHoldChecks s f op a) = some r →
      exec (.clearHold ms f) s = .next ((s.taken ms 1 f).sendEntry .console (respTo s f op r [])))
    ∧ (lookup s.controllers a ≠ none → firstFailing (clearHoldChecks s f op a) = none →
      ∃ code, exec (.clearHold ms f) s = .next
        ((((s.taken ms 1 f).modController a fun k => { k with faultHeld := false }).notifyAll
          (.controllerHeld a false)).sendEntry .console (respTo s f op .ok [Rec.mk code (b1 a)]))))
  ∧ (∀ (r : Request) (a : Nat) (s : State), lastRecord s r ⟨0x87#8, b1 a⟩ 0 = true → a < 256 →
    let result (x : Result) : OwnEntry := mrepTo s r (r.results ++ [⟨0x90#8, b1 x.code⟩])
    let closed : State := { s with request := none }
    (lookup s.controllers a = none → exec .mgmtClearHold s = .next (closed.sendEntry .plant (result .badIndex)))
    ∧ (∀ k, lookup s.controllers a = some k → k.faultHeld = false →
        exec .mgmtClearHold s = .next (closed.sendEntry .plant (result .ok)))
    ∧ (∀ k, lookup s.controllers a = some k → k.faultHeld = true → exec .mgmtClearHold s
        = .next (((closed.modController a fun k => { k with faultHeld := false }).notifyAll
          (.controllerHeld a false)).sendEntry .plant (result .ok))))

/-! ## Management (R183 to R191) -/

/-- MREQ_CREDENTIAL: an MREQ addressed to the part from an ENGINEERING station, or from any source while the table has no
entry of that kind, is answered DENIED_CREDENTIAL for every record unless its first record is the credential of an enabled
ENGINEER, or operator 0 while there is none; then it is OK. Any other MREQ is forwarded (R172, R183). That an ENGINEERING
entry of side CONSOLE closes the open admission too is the model's reading (log 38); that the further records wait in
`request` for their own rows (log 12), and that a first CREDENTIAL record of another length is answered DENIED_CREDENTIAL
(log 71), are its choices. -/
def Obligations.CredentialOpensTheRequest : Prop :=
  (∀ (s : State) (a : Nat), mreqTaken s a = true ↔
    (∃ e ∈ s.tables.stations, e.2.kind = .engineering ∧ e.2.side = some .plant ∧ e.2.address = a)
    ∨ ∀ e ∈ s.tables.stations, e.2.kind ≠ .engineering)
  ∧ (∀ (s : State) (l : List Rec), authorised s l = true ↔ ∃ d rest, l = ⟨0x80#8, d⟩ :: rest ∧ d.length = 6
    ∧ ((∃ e ∈ s.tables.roster, e.2.id = field2 d 0 ∧ e.2.enabled = true ∧ e.2.role = .engineer
          ∧ e.2.code = field4 d 2)
      ∨ (field2 d 0 = 0 ∧ ∀ e ∈ s.tables.roster, e.2.enabled = true → e.2.role ≠ .engineer)))
  ∧ (∀ (ms : Nat) (f : Frame) (s : State), arrives .plant s f = true →
    let mrep (results : List Rec) : OwnEntry :=
      ⟨generated s 0x41#8 f.source.toNat 0 f.seq f.operator results, false⟩
    (toOwn s f = false ∨ mreqTaken s f.source.toNat = false → exec (.mreqCredential ms f) s
      = .next ((s.heard ms .plant f).modPort .console fun q => q.joinForward ⟨0x40#8, f⟩))
    ∧ (toOwn s f = true → mreqTaken s f.source.toNat = true → authorised s f.recs = false →
      exec (.mreqCredential ms f) s
        = .next ((s.heard ms .plant f).sendEntry .plant (mrep (f.recs.map fun _ => ⟨0x90#8, [0x07#8]⟩))))
    ∧ (∀ c, toOwn s f = true → mreqTaken s f.source.toNat = true → authorised s f.recs = true → f.recs = [c] →
      exec (.mreqCredential ms f) s
        = .next ((s.heard ms .plant f).sendEntry .plant (mrep [⟨0x90#8, [0x00#8]⟩])))
    ∧ (∀ c x rest, toOwn s f = true → mreqTaken s f.source.toNat = true → authorised s f.recs = true →
      f.recs = c :: x :: rest → rowOf none x ≠ .other →
      exec (.mreqCredential ms f) s = .next { s.heard ms .plant f with
        request := some { source := f.source, seq := f.seq, operator := f.operator, todo := x :: rest
                          results := [⟨0x90#8, [0x00#8]⟩] } }))

/-- SELECT, READ and QUERY_SLOT: a SELECT holds for the records after it and is BAD_REQUEST for no known table; a READ
without one is NO_SELECT, beyond the table BAD_INDEX, and else answers the entry, field by field, its writable fields
under their codes and the others from 0x40 upward; QUERY_SLOT answers valid and the slot. READ_STATUS and a READ of STATUS
answer the flags and then leave each latched value at its condition. None changes any other state (R147, R181, R184, R186,
R191). The table code of the outstanding commands is a free value (log 30), and so are the codes of a journal kind and of
a reset cause (log 7). The layout of relief contexts, journal contexts and counts under one code each is the model's
choice (log 22), and so are the order of a console's fields and 0 for its EMPTY seat (log 50), no item where no entry
stands (log 52) or where a field is absent (log 81), one byte for a station address, a seat or an area (log 55), two for a
score or remaining ticks (log 65), no reference to the shelf entry of a shelved point (log 72), the latched values and the
conditions as two lists (log 59) and the tick value in the form of a timestamp (log 60). -/
def Obligations.RecordsReadTheTables : Prop :=
  (∀ (r : Request) (b : Byte) (s : State),
    (lastRecord s r ⟨0x81#8, [b]⟩ 0 = true →
      exec .mreqSelect s = .next (({ s with request := none } : State).sendEntry .plant
        (mrepTo s r (r.results ++ [⟨0x90#8, b1 (if (tableOf b.toNat).isSome then 0 else 2)⟩]))))
    ∧ (∀ tb y rest, s.request = some r → r.stopped = false → r.todo = ⟨0x81#8, [b]⟩ :: y :: rest →
      bodyLength r.results + 3 + 3 * (rest.length + 1) ≤ 1200 → tableOf b.toNat = some tb → rowOf (some tb) y ≠ .other →
      exec .mreqSelect s = .next { s with
        request := some { r with
          selected := some tb, todo := y :: rest, results := r.results ++ [⟨0x90#8, [0x00#8]⟩] } }))
  ∧ (∀ (r : Request) (i n : Nat) (s : State), i < 65536 →
    let closed : State := { s with request := none }
    let result (data : List Byte) : OwnEntry := mrepTo s r (r.results ++ [⟨0x90#8, data⟩])
    (lastRecord s r ⟨0x82#8, b2 i⟩ n = true → r.selected = none →
      exec .mreqRead s = .next (closed.sendEntry .plant (result [0x40#8])))
    ∧ (∀ tb, lastRecord s r ⟨0x82#8, b2 i⟩ n = true → r.selected = some tb →
      (tableSize tb ≤ i → exec .mreqRead s = .next (closed.sendEntry .plant (result [0x42#8])))
      ∧ (i < tableSize tb → tb ≠ .status → (readItems tb i s).length = n →
        exec .mreqRead s = .next (closed.sendEntry .plant (result (0x00#8 :: readItems tb i s)))))
    ∧ (lastRecord s r ⟨0x84#8, b2 i⟩ n = true →
      (1024 ≤ i → exec .querySlot s = .next (closed.sendEntry .plant (result [0x42#8])))
      ∧ (i < 1024 → (readSlot s i).length = n →
        exec .querySlot s = .next (closed.sendEntry .plant (result (0x00#8 :: readSlot s i)))))
    ∧ (∀ c, (c = Instr.readStatus ∧ lastRecord s r ⟨0x8B#8, []⟩ n = true)
        ∨ (c = Instr.mreqRead ∧ r.selected = some .status ∧ lastRecord s r ⟨0x82#8, [0x00#8, 0x00#8]⟩ n = true) →
      (readStatusItems s).length = n →
      ∃ t, exec c s = .next t
        ∧ (∀ x : StatusFlag, x ≠ .egressDrop → t.isLatched x = s.condition x)
        ∧ ((∀ x : StatusFlag, s.condition x = true → s.isLatched x = true) →
            t.plant = s.plant.joinOwn (result (0x00#8 :: readStatusItems s)))
        ∧ t = { closed with plant := t.plant, latched := t.latched, statSeq := t.statSeq, statSent := t.statSent }))
  ∧ (∀ (s : State) (i : Nat), (lookup s.slots i = none → readSlot s i = [0x40#8, 0x01#8, 0x00#8])
    ∧ ∀ sl, lookup s.slots i = some sl → readSlot s i =
        [0x40#8, 0x01#8, 0x01#8] ++ [0x41#8, 0x02#8] ++ b2 sl.point ++ [0x42#8, 0x01#8] ++ b1 sl.state.code
        ++ [0x43#8, 0x02#8] ++ b2 sl.occ ++ [0x44#8, 0x01#8] ++ b1 (flagByte sl.shelved)
        ++ [0x45#8, 0x01#8] ++ b1 (flagByte sl.chatter) ++ [0x46#8, 0x01#8] ++ b1 (flagByte sl.suppressed)
        ++ [0x47#8, 0x01#8] ++ b1 (flagByte sl.stale) ++ [0x48#8, 0x07#8] ++ sl.onset.bytes
        ++ [0x49#8, 0x07#8] ++ sl.last.bytes
        ++ (match sl.ackOp with | some o => [0x4A#8, 0x02#8] ++ b2 o | none => []))
  ∧ ([1, 2, 3, 4, 5, 6, 7, 8, 9].map tableOf = [some .points, some .roster, some .stations, some .areas, some .params,
      some .slots, some .shelf, some .journal, some .status]
    ∧ tableOf Config.commandTableCode = some .commands ∧ 10 ≤ Config.commandTableCode ∧ Config.commandTableCode ≤ 255
    ∧ ∀ n, n = 0 ∨ 10 ≤ n → n ≠ Config.commandTableCode → tableOf n = none)
  ∧ (∀ (s : State) (i : Nat),
    (let d := s.pointDef i
      let y := s.dynOf i
      readItems .points i s = fieldItems
        [(0x01, b1 (flagByte d.defined)), (0x02, b1 d.area), (0x03, b1 d.controller), (0x04, b1 d.priority.code),
         (0x05, b1 d.latch.code), (0x06, b2 d.shelveLimit), (0x07, b1 d.chatterOn), (0x08, b1 d.chatterOff),
         (0x09, b1 (flagByte d.suppressible)), (0x40, b1 y.cond.code), (0x41, b2 y.score), (0x42, b1 (flagByte y.held)),
         (0x43, b1 (flagByte (s.shelved i))), (0x44, b1 (flagByte (s.queued i)))])
    ∧ (∀ o, lookup s.tables.roster i = some o → readItems .roster i s = fieldItems
        [(0x01, b2 o.id), (0x02, b1 (flagByte o.enabled)), (0x03, b4 0), (0x04, b1 o.role.code),
         (0x05, allAreas.flatMap fun a => b1 ((o.rights[a]?).getD .none).rank)])
    ∧ (∀ x, lookup s.tables.stations i = some x → readItems .stations i s = fieldItems
        ([(0x01, b1 x.address), (0x02, b1 x.kind.code)] ++ ifPresent 0x03 (x.side.map fun y => b1 (sideCode y))
          ++ (if x.kind = .console then [(0x04, b1 x.classes.code), (0x05, b1 x.features.code), (0x06, b1 x.hornLevel.code)]
            else [])
          ++ (match x.kind, x.side, lookup s.controllers x.address with
            | .controller, some .plant, some c =>
              [(0x07, b2 c.slow), (0x08, b2 c.late), (0x40, b1 (flagByte (!c.live))), (0x41, b1 (flagByte c.snapFailed)),
               (0x42, b1 (flagByte c.faultHeld))]
            | _, _, _ => [])
          ++ (match x.kind, x.side, lookup s.consoles x.address with
            | .console, some .console, some c =>
              [(0x40, b1 (flagByte c.attached))] ++ ifPresent 0x41 (c.cls.map fun k => b1 k.code)
                ++ [(0x42, b1 c.features.code), (0x43, b2 (c.seat1.getD 0))]
                ++ ifPresent 0x44 (if c.features.secondSeat then some (b2 (c.seat2.getD 0)) else none)
                ++ [(0x45, b1 c.horn.code), (0x46, b2 c.notices.length)]
            | _, _, _ => [])))
    ∧ (let p := s.areaParams i
      let r := s.area i
      readItems .areas i s = fieldItems
        ([(0x01, b2 p.fOn), (0x02, b2 p.fOff), (0x03, b2 p.grace), (0x04, b2 p.attend), (0x05, b2 p.handover),
          (0x06, b2 r.evictions), (0x07, b2 r.losts), (0x40, b2 r.load), (0x41, b1 (flagByte r.flood)),
          (0x42, b1 r.authority.code)]
          ++ ifPresent 0x43 (r.holder.map fun h => b2 h.operator) ++ ifPresent 0x44 (r.holder.map fun h => b1 h.console)
          ++ ifPresent 0x45 (r.holder.map fun h => b1 h.seat) ++ [(0x46, b2 r.graceLeft)]
          ++ r.relief.flatMap (fun c =>
            [(0x47, b2 c.operator), (0x47, b1 c.console), (0x47, c.start.bytes), (0x47, b2 c.number)])
          ++ ifPresent 0x48 (r.openRecord.map b2)))
    ∧ (let p := s.tables.params
      readItems .params i s = fieldItems
        [(0x01, b1 p.rateLimit), (0x02, b1 p.confirmLimit), (0x03, b2 p.enables.toNat), (0x04, b2 s.plant.malformed),
         (0x05, b2 s.plant.dropped), (0x06, b2 s.console.malformed), (0x07, b2 s.console.dropped), (0x40, b2 5),
         (0x41, b2 3), (0x42, b2 60), (0x43, b2 5), (0x44, b2 3), (0x45, b2 3), (0x46, b2 3)])
    ∧ readItems .slots i s = readSlot s i
    ∧ (∀ e, s.shelf[i]? = some e → readItems .shelf i s = fieldItems
        [(0x40, b2 e.point), (0x41, b2 e.operator), (0x42, e.start.bytes), (0x43, b2 e.ticks),
         (0x44, b1 (flagByte e.relief))])
    ∧ (∀ e, s.retained.journal[i]? = some e → ∃ kind, readItems .journal i s = fieldItems
        ([(0x40, b4 e.seq), (0x41, [kind]), (0x42, e.time.bytes)] ++ e.areas.map (fun a => (0x43, b1 a))
          ++ ifPresent 0x44 (e.number.map b2) ++ ifPresent 0x45 (e.recordKind.map fun k => b1 k.code)
          ++ ifPresent 0x46 (e.outgoing.map b2) ++ ifPresent 0x47 (e.incoming.map b2)
          ++ ifPresent 0x48 (e.reason.map fun r => b1 r.code)
          ++ (match e.counts with | some (n, r, z) => [(0x49, b2 n), (0x49, b2 r), (0x49, b2 z)] | none => [])
          ++ e.contexts.flatMap (fun c => [(0x4A, b1 c.1), (0x4A, b2 c.2.operator), (0x4A, b1 c.2.console),
            (0x4A, c.2.start.bytes), (0x4A, b2 c.2.number)])
          ++ ifPresent 0x4B (e.reached.map fun st => b1 st.code)))
    ∧ (∀ c, s.commands[i]? = some c → readItems .commands i s = fieldItems
        [(0x40, b2 c.tag), (0x41, b1 c.console), (0x42, b1 c.seat), (0x43, b2 c.operator), (0x44, b2 c.seq.toNat),
         (0x45, b1 c.controller), (0x46, b2 c.point), (0x47, b2 c.ticks)])
    ∧ readItems .status i s = readStatusItems s
    ∧ (∃ cause, readStatusItems s = fieldItems
        (StatusFlag.all.map (fun x => (0x40, b1 (flagByte (s.isLatched x))))
          ++ StatusFlag.all.map (fun x => (0x41, b1 (flagByte (s.condition x))))
          ++ [(0x42, b1 s.time.state.code),
              (0x43, b4 s.time.sec ++ b2 s.time.ms ++ b1 (flagByte (s.time.state == .unset))),
              (0x44, b1 (flagByte s.time.held)), (0x45, b1 (flagByte s.time.relock)),
              (0x46, b1 (flagByte s.memory.valid)), (0x47, b1 (flagByte s.store.isSome)), (0x48, [cause]),
              (0x49, b2 s.retained.count)]))
    ∧ (lookup s.tables.roster i = none → readItems .roster i s = [])
    ∧ (lookup s.tables.stations i = none → readItems .stations i s = [])
    ∧ (s.shelf.length ≤ i → readItems .shelf i s = [])
    ∧ (s.retained.journal.length ≤ i → readItems .journal i s = [])
    ∧ (s.commands.length ≤ i → readItems .commands i s = []))

/-- WRITE: during a STORE it is BUSY, beyond the table BAD_INDEX, with an item its table does not know BAD_REQUEST, and
nothing changes; a point with a slot or in the queue is IN_USE without FORCE. A point's new definition is clamped and its
chatter state cleared; with FORCE its slot or queue entry is discarded, reported and counted, and the head of the queue
takes the slot. Area and part parameters are clamped (R2 to R4, R16, R20, R49, R110, R137, R159, R183, R184, R188). A
WRITE of a count to another value than 0, and a WRITE to SLOTS, SHELF, JOURNAL or STATUS, are BAD_REQUEST. The order of
the refusals is the model's choice (log 24), and so is BAD_REQUEST for a value that names nothing where no rule says it
(log 26) and for items that do not end where the record ends (log 66); that the options byte's bits 1 to 7 are ignored, and
FORCE in a WRITE to another table than POINTS, is its choice (log 77), that the bits of the notice enables beyond its flags
are kept as given its reading (log 80); that a forced rewrite advances a generation once in its MREQ, although R4 calls it
an event, is the model's choice (log 13), and that a lowered F_on lowers F_off and answers OK_CLAMPED its reading
(log 41). -/
def Obligations.WritesTakeEffectClamped : Prop :=
  (∀ (c : Instr) (tb : TableId) (r : Request) (d : List Byte) (s : State),
    (tb, c) ∈ [(TableId.points, Instr.writePoints), (.roster, .writeRoster), (.stations, .writeStations),
      (.areas, .writeAreas), (.params, .writeParams)] → lastWrite s r tb d = true →
    let refused (x : Result) : Prop := exec c s = .next (({ s with request := none } : State).sendEntry
      .plant (mrepTo s r (r.results ++ [⟨0x90#8, b1 x.code⟩])))
    (s.store ≠ none → refused .busy)
    ∧ (s.store = none → tableSize tb ≤ field2 d 0 → refused .badIndex)
    ∧ (s.store = none → field2 d 0 < tableSize tb → checkedItems tb (d.drop 3) = none → refused .badRequest))
  ∧ (∀ (r : Request) (d : List Byte) (p : Nat) (items : List Item) (s : State), lastWrite s r .points d = true →
    s.store = none → field2 d 0 = p → p < 8192 → checkedItems .points (d.drop 3) = some items →
    let closed : State := { s with request := none }
    let result (x : Result) : OwnEntry := mrepTo s r (r.results ++ [⟨0x90#8, b1 x.code⟩])
    (pointWritten (s.pointDef p) items = none →
      exec .writePoints s = .next (closed.sendEntry .plant (result .badRequest)))
    ∧ (∀ w, pointWritten (s.pointDef p) items = some w →
      let new : PointDef := { w with
        chatterOn := max 32 w.chatterOn, chatterOff := min w.chatterOff (max 32 w.chatterOn - 16)
        shelveLimit := if w.priority = .urgent then 0 else min 480 w.shelveLimit
        suppressible := w.suppressible && w.priority != .urgent }
      ((s.slotOf p).isSome || s.queued p → (field1 d 2).testBit 0 = false →
        exec .writePoints s = .next (closed.sendEntry .plant (result .inUse)))
      ∧ (s.slotOf p = none → s.queued p = false →
        ∃ t, exec .writePoints s = .next t ∧ PointRewritten p new s t
          ∧ t.slots = s.slots ∧ (∀ a, t.area a = s.area a)
          ∧ (s.shelved p = false →
              t.plant = s.plant.joinOwn (result (if new = w then .ok else .okClamped)))
          ∧ AlarmEventFrame { closed with tables := t.tables, dyn := t.dyn, shelf := t.shelf } t)
      ∧ (∀ i sl, s.slotOf p = some (i, sl) → s.queue = [] → s.AlarmTableSound → (field1 d 2).testBit 0 = true →
        ∃ t, exec .writePoints s = .next t ∧ PointRewritten p new s t
          ∧ lookup t.slots i = none ∧ OtherSlotsKept i s t
          ∧ (s.shelved p = false → t.arepSeq = (s.arepSeq + 1) % 65536)
          ∧ (∀ a, t.area a = if a = (s.pointDef p).area then { s.area a with
              generation := nextGeneration r a s, losts := min 65535 ((s.area a).losts + 1) }
            else s.area a)
          ∧ AlarmEventFrame { closed with tables := t.tables, dyn := t.dyn, shelf := t.shelf } t)
      ∧ (∀ i sl q rest, s.slotOf p = some (i, sl) → s.queue = q :: rest → s.AlarmTableSound →
        (field1 d 2).testBit 0 = true →
        ∃ t, exec .writePoints s = .next t ∧ PointRewritten p new s t
          ∧ HeadAdmitted i q s.stamp t ∧ t.queue = rest ∧ OtherSlotsKept i s t
          ∧ (s.shelved p = false → t.arepSeq = (s.arepSeq + 1) % 65536)
          ∧ (∀ b, t.area b = { s.area b with
              generation := if b = (s.pointDef p).area ∨ b = (s.pointDef q.point).area then nextGeneration r b s
                else (s.area b).generation
              losts := if b = (s.pointDef p).area then min 65535 ((s.area b).losts + 1) else (s.area b).losts })
          ∧ AlarmEventFrame { closed with tables := t.tables, dyn := t.dyn, shelf := t.shelf, queue := rest } t)
      ∧ (s.slotOf p = none → s.queued p = true → (field1 d 2).testBit 0 = true →
        ∃ t, exec .writePoints s = .next t ∧ PointRewritten p new s t
          ∧ t.slots = s.slots ∧ t.queue = s.queue.filter (fun q => !(q.point == p))
          ∧ (s.shelved p = false → t.arepSeq = (s.arepSeq + 1) % 65536)
          ∧ (∀ a, t.area a = if a = (s.pointDef p).area then { s.area a with
              generation := nextGeneration r a s, losts := min 65535 ((s.area a).losts + 1) }
            else s.area a)
          ∧ AlarmEventFrame { closed with tables := t.tables, dyn := t.dyn, shelf := t.shelf, queue := t.queue } t)))
  ∧ (∀ (old w : PointDef) (items : List Item), pointWritten old items = some w → w = {} ∨
    (w.defined = true ∧ itemValue items 2 = some w.area ∧ w.area ≤ 15 ∧ itemValue items 3 = some w.controller
      ∧ 1 ≤ w.controller ∧ w.controller ≤ 254 ∧ itemValue items 4 = some w.priority.code
      ∧ itemValue items 5 = some w.latch.code ∧ w.shelveLimit = (itemValue items 6).getD 0
      ∧ w.chatterOn = (itemValue items 7).getD 96 ∧ w.chatterOff = (itemValue items 8).getD 32
      ∧ flagByte w.suppressible = (itemValue items 9).getD 0))
  ∧ (∀ (r : Request) (d : List Byte) (a : Nat) (items : List Item) (s : State), lastWrite s r .areas d = true →
    s.store = none → field2 d 0 = a → a < 16 → checkedItems .areas (d.drop 3) = some items →
    let refused : Prop := exec .writeAreas s = .next (({ s with request := none } : State).sendEntry .plant
      (mrepTo s r (r.results ++ [⟨0x90#8, [0x02#8]⟩])))
    ((∃ n v, (n = 6 ∨ n = 7) ∧ itemValue items n = some v ∧ v ≠ 0) → refused)
    ∧ ((∀ n v, n = 6 ∨ n = 7 → itemValue items n = some v → v = 0) →
    let old := s.areaParams a
    let w : AreaParams := ⟨(itemValue items 1).getD old.fOn, (itemValue items 2).getD old.fOff,
      (itemValue items 3).getD old.grace, (itemValue items 4).getD old.attend, (itemValue items 5).getD old.handover⟩
    let new : AreaParams := ⟨max 64 w.fOn, min w.fOff (max 64 w.fOn - 1), max 10 (min 300 w.grace),
      max 10 (min 600 w.attend), max 60 (min 3600 w.handover)⟩
    ∃ t, exec .writeAreas s = .next t
      ∧ (∀ b, t.areaParams b = if b = a then new else s.areaParams b)
      ∧ t.tables = { s.tables with areaParams := t.tables.areaParams }
      ∧ (∀ b, t.area b = if b = a then { s.area a with
            evictions := if (itemValue items 6).isSome then 0 else (s.area a).evictions
            losts := if (itemValue items 7).isSome then 0 else (s.area a).losts } else s.area b)
      ∧ t.plant = s.plant.joinOwn
          (mrepTo s r (r.results ++ [⟨0x90#8, b1 (if new = w then Result.ok else .okClamped).code⟩]))
      ∧ t = { s with
          request := none, tables := t.tables, areas := t.areas, plant := t.plant, latched := t.latched
          statSeq := t.statSeq, statSent := t.statSent }))
  ∧ (∀ (r : Request) (d : List Byte) (items : List Item) (s : State), lastWrite s r .params d = true →
    s.store = none → field2 d 0 = 0 → checkedItems .params (d.drop 3) = some items →
    let refused : Prop := exec .writeParams s = .next (({ s with request := none } : State).sendEntry .plant
      (mrepTo s r (r.results ++ [⟨0x90#8, [0x02#8]⟩])))
    ((∃ n v, 4 ≤ n ∧ n ≤ 7 ∧ itemValue items n = some v ∧ v ≠ 0) → refused)
    ∧ ((∀ n v, 4 ≤ n → n ≤ 7 → itemValue items n = some v → v = 0) →
    let old := s.tables.params
    let w : Params := ⟨(itemValue items 1).getD old.rateLimit, (itemValue items 2).getD old.confirmLimit,
      ((itemValue items 3).map (BitVec.ofNat 16)).getD old.enables⟩
    let new : Params := ⟨max 5 (min 50 w.rateLimit), max 1 (min 10 w.confirmLimit), w.enables⟩
    exec .writeParams s = .next (({ s with
        request := none, tables := { s.tables with params := new }
        plant := { s.plant with
          malformed := if (itemValue items 4).isSome then 0 else s.plant.malformed
          dropped := if (itemValue items 5).isSome then 0 else s.plant.dropped }
        console := { s.console with
          malformed := if (itemValue items 6).isSome then 0 else s.console.malformed
          dropped := if (itemValue items 7).isSome then 0 else s.console.dropped } } : State).sendEntry .plant
      (mrepTo s r (r.results ++ [⟨0x90#8, b1 (if new = w then Result.ok else .okClamped).code⟩])))))
  ∧ (∀ (r : Request) (b : Byte) (d : List Byte) (s : State), b ∈ [0x06#8, 0x07#8, 0x08#8, 0x09#8] →
    s.request = some r → r.stopped = false → r.todo = [⟨0x81#8, [b]⟩, ⟨0x83#8, d⟩] → 3 ≤ d.length → s.store = none →
    bodyLength r.results + 6 ≤ 1200 →
    exec .mreqSelect s = .next (({ s with request := none } : State).sendEntry .plant
      (mrepTo s r (r.results ++ [⟨0x90#8, [0x00#8]⟩, ⟨0x90#8, [0x02#8]⟩]))))

/-- A roster WRITE leaves the entry it carries, new or over the old one; disabling an enabled operator, removing or
renumbering one ends his session, orphans the areas he has in HELD or GRACE and ends every record that names him, and
no other WRITE touches authority, that of one already disabled by the model's choice (log 75); an operator ID of 0, of
65535 or of another entry is BAD_REQUEST (R85, R91, R112, R142). A station WRITE leaves the entry it carries with the
defaults of R185: a new console is DETACHED and a new controller STALE; an entry that stays a console or a controller
of its address keeps its record; one that leaves its address, kind or side loses it, the areas held from a lost
console's seats in GRACE, the commands of a LIVE controller ended (R41, R89, R146, R184). What a new roster entry
holds in a field its WRITE omits is a free value (log 8); VIEW, no features and LOW for an entry of another kind than
CONSOLE are the model's choice (log 27), and so is it that the options byte is ignored (log 77); that bits of an offered
set that name nothing are ignored is its reading (log 80); BAD_REQUEST for a role, right level or yes-or-no that names
nothing, also beside the removal item, is the model's choice (log 26). -/
def Obligations.RosterAndStationWritesAct : Prop :=
  (∀ (r : Request) (d : List Byte) (i : Nat) (items : List Item) (o new : Operator) (s : State),
    lastWrite s r .roster d = true → s.store = none → field2 d 0 = i → i < 128 →
    checkedItems .roster (d.drop 3) = some items → lookup s.tables.roster i = some o → itemBytes items 0 = none →
    operatorWritten o items = some new → badOperatorId s i new.id = false →
    let removed := o.id ≠ new.id ∨ (o.enabled = true ∧ new.enabled = false)
    ∃ t, exec .writeRoster s = .next t
      ∧ (∀ j, lookup t.tables.roster j = if j = i then some new else lookup s.tables.roster j)
      ∧ t.tables = { s.tables with roster := t.tables.roster }
      ∧ (¬ removed → t.areas = s.areas ∧ t.records = s.records ∧ ConsolesKept s t ∧ t.retained = s.retained)
      ∧ (removed → risingKeys s.consoles = true → OperatorRemoved o.id s t)
      ∧ t.plant = s.plant.joinOwn (mrepTo s r (r.results ++ [⟨0x90#8, [0x00#8]⟩]))
      ∧ AuthorityEventFrame { s with request := none, tables := t.tables } t)
  ∧ (∀ (r : Request) (d : List Byte) (i : Nat) (items : List Item) (o : Operator) (s : State),
    lastWrite s r .roster d = true → s.store = none → field2 d 0 = i → i < 128 →
    checkedItems .roster (d.drop 3) = some items → lookup s.tables.roster i = some o → itemBytes items 0 ≠ none →
    operatorWritten o items ≠ none → risingKeys s.consoles = true →
    ∃ t, exec .writeRoster s = .next t
      ∧ (∀ j, lookup t.tables.roster j = if j = i then none else lookup s.tables.roster j)
      ∧ OperatorRemoved o.id s t
      ∧ t.plant = s.plant.joinOwn (mrepTo s r (r.results ++ [⟨0x90#8, [0x00#8]⟩]))
      ∧ AuthorityEventFrame { s with request := none, tables := t.tables } t)
  ∧ (∀ (r : Request) (d : List Byte) (i : Nat) (items : List Item) (s : State),
    lastWrite s r .roster d = true → s.store = none → field2 d 0 = i → i < 128 →
    checkedItems .roster (d.drop 3) = some items →
    let closed : State := { s with request := none }
    let result (x : Result) : OwnEntry := mrepTo s r (r.results ++ [⟨0x90#8, b1 x.code⟩])
    let old := (lookup s.tables.roster i).getD (omittedOperator i)
    (operatorWritten old items = none → exec .writeRoster s = .next (closed.sendEntry .plant (result .badRequest)))
    ∧ (∀ new, operatorWritten old items = some new → itemBytes items 0 = none →
      (new.id = 0 ∨ new.id = 65535 ∨ (∃ e ∈ s.tables.roster, e.1 ≠ i ∧ e.2.id = new.id) →
        exec .writeRoster s = .next (closed.sendEntry .plant (result .badRequest)))
      ∧ (lookup s.tables.roster i = none → badOperatorId s i new.id = false → exec .writeRoster s
        = .next (({ closed with tables :=
            { s.tables with roster := insertAt s.tables.roster i new } } : State).sendEntry .plant (result .ok)))))
  ∧ (∀ (old : Operator) (items : List Item),
    (∀ w, operatorWritten old items = some w →
      w.id = (itemValue items 1).getD old.id ∧ flagByte w.enabled = (itemValue items 2).getD (flagByte old.enabled)
      ∧ w.code = (itemValue items 3).getD old.code ∧ w.role.code = (itemValue items 4).getD old.role.code
      ∧ (itemBytes items 5 = none → w.rights = old.rights)
      ∧ ∀ l, itemBytes items 5 = some l → w.rights.map RightLevel.rank = l.map BitVec.toNat)
    ∧ (operatorWritten old items = none ↔
      (∃ v, itemValue items 2 = some v ∧ 2 ≤ v) ∨ (∃ v, itemValue items 4 = some v ∧ (v = 0 ∨ 5 ≤ v))
        ∨ ∃ l, itemBytes items 5 = some l ∧ ∃ b ∈ l, 5 ≤ b.toNat))
  ∧ (∀ (r : Request) (d : List Byte) (i : Nat) (items : List Item) (s : State),
    lastWrite s r .stations d = true → s.store = none → field2 d 0 = i → i < 96 →
    checkedItems .stations (d.drop 3) = some items →
    let table := s.tables.stations
    let refused : Prop := exec .writeStations s = .next (({ s with request := none } : State).sendEntry .plant
      (mrepTo s r (r.results ++ [⟨0x90#8, [0x02#8]⟩])))
    ((∃ n v, (n = 7 ∨ n = 8) ∧ itemValue items n = some v ∧ v ≠ 0) → refused)
    ∧ ((∃ v, itemValue items 1 = some v ∧ (v = 0 ∨ v = 255)) → refused)
    ∧ ((∃ v, itemValue items 2 = some v ∧ stationKindOf v = none) → refused)
    ∧ ((∃ v, itemValue items 3 = some v ∧ sideOf v = none) → refused)
    ∧ (itemBytes items 0 = none → stationWritten (lookup table i) items = none → refused)
    ∧ (itemBytes items 0 ≠ none → stationsRefused table (removeAt table i) = true → refused)
    ∧ (∀ new, itemBytes items 0 = none → stationWritten (lookup table i) items = some new →
        stationsRefused table (insertAt table i new) = true → refused))
  ∧ (∀ (r : Request) (d : List Byte) (i : Nat) (items : List Item) (new : Station) (s : State),
    lastWrite s r .stations d = true → s.store = none → field2 d 0 = i → i < 96 →
    checkedItems .stations (d.drop 3) = some items → lookup s.tables.stations i = none → itemBytes items 0 = none →
    countsNonzero items [7, 8] = false → stationWritten none items = some new →
    stationsRefused s.tables.stations (insertAt s.tables.stations i new) = false →
      ∃ t, exec .writeStations s = .next t
        ∧ (∀ j, lookup t.tables.stations j = if j = i then some new else lookup s.tables.stations j)
        ∧ t.tables = { s.tables with stations := t.tables.stations }
        ∧ (∀ a, lookup t.controllers a =
            if new.kind = .controller ∧ new.side = some .plant ∧ a = new.address then some {}
            else lookup s.controllers a)
        ∧ (∀ a, lookup t.consoles a =
            if new.kind = .console ∧ new.side = some .console ∧ a = new.address then some {}
            else lookup s.consoles a)
        ∧ t = { s with
            request := none, tables := t.tables, controllers := t.controllers, consoles := t.consoles
            plant := t.plant, latched := t.latched, statSeq := t.statSeq, statSent := t.statSent })
  ∧ (∀ (r : Request) (d : List Byte) (i : Nat) (items : List Item) (st : Station) (s : State),
    lastWrite s r .stations d = true → s.store = none → field2 d 0 = i → i < 96 →
    checkedItems .stations (d.drop 3) = some items → lookup s.tables.stations i = some st → itemBytes items 0 ≠ none →
    badStationItems items = false → stationsRefused s.tables.stations (removeAt s.tables.stations i) = false →
    ∃ t, exec .writeStations s = .next t
      ∧ (∀ j, lookup t.tables.stations j = if j = i then none else lookup s.tables.stations j)
      ∧ StationLeft st s t
      ∧ t.memory = s.memory ∧ t.dyn = s.dyn ∧ t.queue = s.queue ∧ t.shelf = s.shelf ∧ t.request = none
      ∧ t.store = s.store ∧ t.pending = s.pending)
  ∧ (∀ (r : Request) (d : List Byte) (i : Nat) (items : List Item) (st new : Station) (s : State),
    lastWrite s r .stations d = true → s.store = none → field2 d 0 = i → i < 96 →
    checkedItems .stations (d.drop 3) = some items → lookup s.tables.stations i = some st → itemBytes items 0 = none →
    countsNonzero items [7, 8] = false → stationWritten (some st) items = some new →
    stationsRefused s.tables.stations (insertAt s.tables.stations i new) = false →
    ∃ t, exec .writeStations s = .next t
      ∧ (∀ j, lookup t.tables.stations j = if j = i then some new else lookup s.tables.stations j)
      ∧ (controllerAddress (some st) = none ∨ controllerAddress (some st) = controllerAddress (some new) →
          t.slots = s.slots ∧ t.commands = s.commands
          ∧ (consoleAddress (some st) = none ∨ consoleAddress (some st) = consoleAddress (some new) →
              t.areas = s.areas ∧ t.records = s.records))
      ∧ (∀ a, controllerAddress (some st) = some a → controllerAddress (some new) = some a →
          lookup t.controllers a = (lookup s.controllers a).map fun c => { c with
            slow := if itemValue items 7 = none then c.slow else 0
            late := if itemValue items 8 = none then c.late else 0 })
      ∧ (∀ a, controllerAddress (some new) = some a → controllerAddress (some st) ≠ some a →
          lookup t.controllers a = some {})
      ∧ (controllerAddress (some st) ≠ controllerAddress (some new) → ControllerLeft st s t)
      ∧ (∀ a, consoleAddress (some st) = some a → consoleAddress (some new) = some a →
          (lookup t.consoles a).map Console.bare = (lookup s.consoles a).map Console.bare)
      ∧ (∀ a, consoleAddress (some new) = some a → consoleAddress (some st) ≠ some a → lookup t.consoles a = some {})
      ∧ (consoleAddress (some st) ≠ consoleAddress (some new) → ConsoleLeft st s t)
      ∧ t.memory = s.memory ∧ t.dyn = s.dyn ∧ t.queue = s.queue ∧ t.shelf = s.shelf ∧ t.request = none
      ∧ t.store = s.store ∧ t.pending = s.pending)
  ∧ (∀ (old : Option Station) (items : List Item) (w : Station), stationWritten old items = some w →
    (∀ v, itemValue items 1 = some v → w.address = v ∧ 1 ≤ v ∧ v ≤ 254)
    ∧ (itemValue items 1 = none → old.map Station.address = some w.address)
    ∧ (∀ v, itemValue items 2 = some v → w.kind.code = v)
    ∧ (itemValue items 2 = none → old.map Station.kind = some w.kind)
    ∧ (w.kind = .self → w.side = none)
    ∧ (w.kind ≠ .self → ∃ side, w.side = some side ∧ (∀ v, itemValue items 3 = some v → sideCode side = v)
        ∧ (itemValue items 3 = none → old.bind Station.side = some side))
    ∧ (w.kind = .console →
        w.classes = ((itemValue items 4).map classesOf).getD ((old.map Station.classes).getD { view := true })
        ∧ w.features = ((itemValue items 5).map featuresOf).getD ((old.map Station.features).getD {})
        ∧ (∀ v, itemValue items 6 = some v → w.hornLevel.code = v)
        ∧ (itemValue items 6 = none → w.hornLevel = (old.map Station.hornLevel).getD .low))
    ∧ (w.kind ≠ .console → w.classes = { view := true } ∧ w.features = {} ∧ w.hornLevel = .low))

/-- DISCARD_SLOT: beyond the table BAD_INDEX, of a free slot NOT_PENDING; a valid slot is freed without acknowledgement,
reported with its lost occurrence and counted, and the answer names both; the point's dynamic state stays; and where points
wait in the admission queue its head takes the slot (R20, R22, R23, R186). That an area's generation
advances once in the MREQ (R16, R183) is the model's choice (log 13), and so are the item codes of the answer (log 61). -/
def Obligations.DiscardedSlotIsReportedAndCounted : Prop :=
  ∀ (r : Request) (i : Nat) (s : State), lastRecord s r ⟨0x85#8, b2 i⟩ 8 = true → i < 65536 →
    let closed : State := { s with request := none }
    (1024 ≤ i → exec .discardSlot s
      = .next (closed.sendEntry .plant (mrepTo s r (r.results ++ [⟨0x90#8, [0x42#8]⟩]))))
    ∧ (i < 1024 → lookup s.slots i = none → exec .discardSlot s
      = .next (closed.sendEntry .plant (mrepTo s r (r.results ++ [⟨0x90#8, [0x10#8]⟩]))))
    ∧ (∀ sl, i < 1024 → lookup s.slots i = some sl → s.queue = [] → s.AlarmTableSound →
      let a := (s.pointDef sl.point).area
      ∃ t, exec .discardSlot s = .next t
        ∧ lookup t.slots i = none ∧ OtherSlotsKept i s t
        ∧ (∀ b, t.area b = if b = a then { s.area a with
              generation := nextGeneration r a s, losts := min 65535 ((s.area a).losts + 1) }
            else s.area b)
        ∧ t.arepSeq = (s.arepSeq + 1) % 65536
        ∧ t.plant = (s.plant.joinOwn ⟨generated s 0x22#8 255 0 (BitVec.ofNat 16 ((s.arepSeq + 1) % 65536)) 0
              [Report.record { action := .discarded, point := sl.point, area := a, occ := some sl.occ
                               stateAfter := some 0 } s.stamp], false⟩).joinOwn
            (mrepTo s r (r.results
              ++ [⟨0x90#8, [0x00#8, 0x40#8, 0x02#8] ++ b2 sl.point ++ [0x41#8, 0x02#8] ++ b2 sl.occ⟩]))
        ∧ t.console = s.console ∧ ConsolesKept s t ∧ AlarmEventFrame closed t)
    ∧ (∀ sl q rest, i < 1024 → lookup s.slots i = some sl → s.queue = q :: rest → s.AlarmTableSound →
      let a := (s.pointDef sl.point).area
      ∃ t, exec .discardSlot s = .next t
        ∧ HeadAdmitted i q s.stamp t ∧ t.queue = rest ∧ OtherSlotsKept i s t
        ∧ (∀ b, t.area b = { s.area b with
              generation := if b = a ∨ b = (s.pointDef q.point).area then nextGeneration r b s else (s.area b).generation
              losts := if b = a then min 65535 ((s.area a).losts + 1) else (s.area b).losts })
        ∧ t.arepSeq = (s.arepSeq + 1) % 65536
        ∧ t.console = s.console ∧ ConsolesKept s t ∧ AlarmEventFrame { closed with queue := rest } t)

/-- STORE copies the tables and marks the configuration memory invalid, its MREP held; a completion makes the copy the
configuration memory, or on failure latches NV_STORE_FAIL, and sends the held MREP with the outcome; a STORE in progress
refuses another with BUSY; by the fourth tick it has ended one way or the other (R188). RESET is answered OK, and the
reset waits for the end of its MREP (R189). CLEAR_RETAINED is refused BUSY_AREA while a record is open and BUSY while a
STORE is in progress; else the journal ring is empty, its sequence number and the reset count are 0 and the lost mark is
no, so that the condition of RETAINED_LOST is no, and every other piece of state stays (R190). The model's choices are: a
TICK itself ends an overdue STORE, with an outcome left free (log 10); a reset that R189 makes at once, its MREP dropped
or the link DOWN, still waits after the RESET, and is taken by SYSTEM_COMMAND_RESET or before the next command (log 14); a
STORE_COMPLETION without a STORE changes nothing (log 39); BUSY_AREA stands before BUSY (log 34). -/
def Obligations.StoreResetAndClearRetained : Prop :=
  (∀ (r : Request) (s : State), lastRecord s r ⟨0x88#8, []⟩ 0 = true →
    (s.store ≠ none → exec .store s = .next (({ s with request := none } : State).sendEntry .plant
      (mrepTo s r (r.results ++ [⟨0x90#8, [0x15#8]⟩]))))
    ∧ (s.store = none → ∃ t, exec .store s = .next t
      ∧ t.store = some ⟨s.tables, 0⟩ ∧ t.memory = { s.memory with valid := false }
      ∧ t.heldMreps = s.heldMreps ++ [{ r with
          todo := [], results := r.results ++ [⟨0x90#8, [0x00#8]⟩], storeAt := some r.results.length }]
      ∧ t.isLatched .configInvalid = true ∧ t.console = s.console
      ∧ t = { s with
          request := none, store := t.store, memory := t.memory, heldMreps := t.heldMreps, plant := t.plant
          latched := t.latched, statSeq := t.statSeq, statSent := t.statSent }))
  ∧ (∀ (r : Request) (k : Nat) (j : StoreJob) (s : State), s.request = none → s.store = some j → s.heldMreps = [r] →
    r.storeAt = some k →
    exec (.storeCompletion true) s = .next (({ s with
        store := none, memory := ⟨j.copy, true⟩, heldMreps := [], statSent := false } : State).sendEntry .plant
      (mrepTo s r (r.results.set k ⟨0x90#8, [0x00#8]⟩)))
    ∧ ∃ t, exec (.storeCompletion false) s = .next t ∧ t.isLatched .nvStoreFail = true ∧ t.memory = s.memory
      ∧ (s.isLatched .nvStoreFail = true →
          t.plant = s.plant.joinOwn (mrepTo s r (r.results.set k ⟨0x90#8, [0x43#8]⟩)))
      ∧ t = { s with
          store := none, heldMreps := [], plant := t.plant, latched := t.latched, statSeq := t.statSeq
          statSent := t.statSent })
  ∧ (∀ (good : Bool) (s : State), s.settled = true → s.store = none →
    exec (.storeCompletion good) s = .next { s with statSent := false })
  ∧ (∀ (r : Request) (s : State), lastRecord s r ⟨0x89#8, []⟩ 0 = true →
    (s.store = none → exec .reset s
      = .next (({ s with request := none, resetWaits := true } : State).sendEntry .plant
        ⟨(mrepTo s r (r.results ++ [⟨0x90#8, [0x00#8]⟩])).telegram, !s.resetWaits⟩))
    ∧ (s.store ≠ none → exec .reset s = .next { s with
        request := none, resetWaits := true
        heldMreps := s.heldMreps ++ [{ r with
          todo := [], results := r.results ++ [⟨0x90#8, [0x00#8]⟩], stopped := true, resets := true
          decides := !s.resetWaits }] }))
  ∧ (∀ (j : StoreJob) (s : State), s.settled = true → s.owed = [] → s.store = some j →
    (j.age < 3 → ∃ t, exec .tick s = .next t ∧ t.store = some { j with age := j.age + 1 } ∧ t.memory = s.memory)
    ∧ (3 ≤ j.age → ∃ t, exec .tick s = .next t ∧ t.store = none ∧ t.heldMreps = []
        ∧ (t.memory = ⟨j.copy, true⟩ ∨ (t.memory = s.memory ∧ t.isLatched .nvStoreFail = true))))
  ∧ (∀ (r : Request) (s : State), lastRecord s r ⟨0x8A#8, []⟩ 0 = true →
    let closed : State := { s with request := none }
    (s.records ≠ [] → exec .clearRetained s
      = .next (closed.sendEntry .plant (mrepTo s r (r.results ++ [⟨0x90#8, [0x16#8]⟩]))))
    ∧ (s.records = [] → s.store ≠ none → exec .clearRetained s
      = .next (closed.sendEntry .plant (mrepTo s r (r.results ++ [⟨0x90#8, [0x15#8]⟩]))))
    ∧ (s.records = [] → s.store = none → exec .clearRetained s = .next (({ closed with
          retained := { s.retained with journal := [], journalSeq := 0, count := 0, lost := false } } : State).sendEntry
        .plant (mrepTo s r (r.results ++ [⟨0x90#8, [0x00#8]⟩])))
      ∧ ∀ t, exec .clearRetained s = .next t → t.condition .retainedLost = false ∧ t.retained.areas = s.retained.areas
          ∧ t.retained.counter = s.retained.counter ∧ t.retained.cause = s.retained.cause
          ∧ (∀ a, (t.area a).relief = (s.area a).relief)))

/-! ## The tick and what it ends (R31, R35, R47, R52, R69, R86, R93, R95, R109, R137, R155, R161) -/

/-- TICK: the elapsed count and the request counts become 0; loads and scores decay, silences and waits advance, holds,
graces, limits and remaining ticks count down; no slot, queue, table or retained entry changes; and LIVE joins OWN of each
port (R31, R35, R47, R52, R69, R86, R93, R95, R109, R137, R155, R161, R174). That what would end at this tick is left
owed, not counted down, to the command of that event is the model's choice (log 3). So for the time base,
MASTER_SILENCE_EXPIRY: the third tick in LOCKED without a mark enters HOLDOVER, one second on, with any hold ended, and
latches TIME_HOLDOVER (R167). That this holds also where the projection of a held time reaches the tick value at that
tick, for which R166 gives another ending, is the model's reading (log 35). A change of the time state is told to every
ATTACHED console (R168). -/
def Obligations.TickCountsEveryTimer : Prop :=
  (∀ s : State, s.settled = true → s.owed = [] → s.store = none → s.KeysRise → s.NumbersApart →
    let silent := s.time.state == .locked && s.time.pending.isNone && decide (2 ≤ s.time.silence)
    let live : OwnEntry := ⟨generated s 0x01#8 255 0 0 0 [], false⟩
    ∃ t, exec .tick s = .next t
      ∧ t.time = (if silent then { s.time with elapsed := 0 } else ({ s.time with elapsed := 0 } : TimeBase).tick.1)
      ∧ (∀ a, lookup t.consoles a = (lookup s.consoles a).map fun c =>
          let x : Console := { c with
            requests := 0
            silence := if c.attached = true ∧ c.silence < 2 then c.silence + 1 else c.silence
            rateHold := if c.rateHold = 1 then 1 else c.rateHold - 1
            loginHold := if c.loginHold = 1 then 1 else c.loginHold - 1 }
          if t.time.state = s.time.state then x else x.take (.timeState t.time.state))
      ∧ (∀ a, a < 16 → t.area a = { s.area a with
          load := if floodEnds a s then (s.area a).load
            else (s.area a).load - max (min 1 (s.area a).load) ((s.area a).load / 64)
          graceLeft := if (s.area a).authority = .grace ∧ 1 < (s.area a).graceLeft then (s.area a).graceLeft - 1
            else (s.area a).graceLeft })
      ∧ (∀ p, t.dynOf p = if chatterEnds p s then s.dynOf p else { s.dynOf p with score := (s.dynOf p).score - 1 })
      ∧ (∀ a, lookup t.controllers a = (lookup s.controllers a).map fun c => { c with
          silence := if c.live = true ∧ c.silence < 2 then c.silence + 1 else c.silence
          wait := if c.phase ≠ .idle ∧ 1 < c.wait then c.wait - 1 else c.wait })
      ∧ t.commands = s.commands.map (fun c => if 1 < c.ticks then { c with ticks := c.ticks - 1 } else c)
      ∧ t.records = s.records.map (fun h =>
          if h.left ≤ 1 ∨ (h.state = .offered ∧ h.attendLeft ≤ 1) then h
          else { h with
            left := h.left - 1, attendLeft := if h.state = .offered then h.attendLeft - 1 else h.attendLeft })
      ∧ (∀ e, e ∈ t.shelf ↔ ∃ x ∈ s.shelf, e = { x with ticks := if 1 < x.ticks then x.ticks - 1 else x.ticks })
      ∧ (s.ShelfOrdered →
          t.shelf = s.shelf.map fun x => { x with ticks := if 1 < x.ticks then x.ticks - 1 else x.ticks })
      ∧ t.owed = (tickItems s).filter (fun x => expires x s)
      ∧ t.console = s.console.joinOwn live
      ∧ (s.time.tick.2 = false → s.console.ownRoom = true ∨ s.console.up = false →
          t.plant = s.plant.joinOwn live)
      ∧ t = { s with
          time := t.time, consoles := t.consoles, areas := t.areas, dyn := t.dyn, controllers := t.controllers
          commands := t.commands, records := t.records, shelf := t.shelf, owed := t.owed, plant := t.plant
          console := t.console, latched := t.latched, statSeq := t.statSeq, statSent := t.statSent })
  ∧ (∀ s : State, s.settled = true → TickItem.time ∈ s.owed → s.time.state = .locked → s.time.pending = none →
    2 ≤ s.time.silence →
    ∃ t, exec .masterSilenceExpiry s = .next t
      ∧ t.time = { s.time with
          state := .holdover, held := false, projection := none, silence := 0, pending := none, relock := false
          sec := (addMs (s.time.sec, s.time.ms) 1000).1, ms := (addMs (s.time.sec, s.time.ms) 1000).2 }
      ∧ t.isLatched .timeHoldover = true
      ∧ (∀ x, x ∈ t.owed ↔ x ∈ s.owed ∧ x ≠ .time)
      ∧ (risingKeys s.consoles = true → ∀ a,
          lookup t.consoles a = (lookup s.consoles a).map fun c => c.take (.timeState .holdover))
      ∧ ConsolesKept s t ∧ t.console = s.console
      ∧ t = { s with
          time := t.time, owed := t.owed, consoles := t.consoles, plant := t.plant, latched := t.latched
          statSeq := t.statSeq, statSent := t.statSent })

/-- FLOOD_EXIT: the load has decayed below F_off, the area is in NORMAL, and no slot of it is SUPPRESSED; no other slot
changes, the generation advances where one was, and the consoles of the area get NOTE FLOOD with OFF. CHATTER_RELEASE: the
score has decayed to chatter off, the point is held no more, its slot does not carry CHATTER, and it is reported (R47,
R48, R52). -/
def Obligations.FloodAndChatterRelease : Prop :=
  (∀ (a : Nat) (s : State), s.settled = true → TickItem.load a ∈ s.owed → (s.area a).flood = true →
    decayed (s.area a).load < (s.areaParams a).fOff → risingKeys s.slots = true →
    let lifted := s.slots.any fun e => (s.pointDef e.2.point).area == a && e.2.suppressed
    ∃ t, exec (.floodExit a) s = .next t
      ∧ (∀ b, t.area b = if b = a then { s.area a with
            load := decayed (s.area a).load, flood := false
            generation := if lifted then ((s.area a).generation + 1) % 65536 else (s.area a).generation }
          else s.area b)
      ∧ (∀ i, lookup t.slots i = (lookup s.slots i).map fun sl =>
          if (s.pointDef sl.point).area = a then { sl with suppressed := false } else sl)
      ∧ t.plant = s.plant ∧ t.console = s.console ∧ ConsolesKept s t ∧ Told (.flood a false) (viewsArea s a) s t
      ∧ (∀ x, x ∈ t.owed ↔ x ∈ s.owed ∧ x ≠ .load a)
      ∧ AlarmEventFrame { s with owed := t.owed } t)
  ∧ (∀ (p : Nat) (s : State), s.settled = true → TickItem.chatter p ∈ s.owed → (s.dynOf p).held = true →
    (s.dynOf p).score - 1 ≤ (s.pointDef p).chatterOff →
    ∃ t, exec (.chatterRelease p) s = .next t
      ∧ (∀ q, t.dynOf q = if q = p then { s.dynOf p with score := (s.dynOf p).score - 1, held := false }
          else s.dynOf q)
      ∧ (s.slotOf p = none → t.slots = s.slots)
      ∧ (∀ i sl, s.slotOf p = some (i, sl) → risingKeys s.slots = true →
          lookup t.slots i = some { sl with chatter := false } ∧ OtherSlotsKept i s t
          ∧ (sl.chatter = true → OneGeneration (s.pointDef p).area s t))
      ∧ t.plant = s.plant.joinOwn ⟨generated s 0x22#8 255 0 (BitVec.ofNat 16 ((s.arepSeq + 1) % 65536)) 0
          [Report.record { action := .chatterRelease, point := p, area := (s.pointDef p).area
                           occ := (s.slotOf p).map fun x => x.2.occ } s.stamp], false⟩
      ∧ t.console = s.console ∧ AreasKept s t ∧ ConsolesKept s t
      ∧ AlarmEventFrame { s with dyn := t.dyn, owed := t.owed } t)

/-- CONSOLE_SILENCE_EXPIRY: at the third tick without a telegram the console is DETACHED, its seats empty and its queue
gone, and the areas held from its seats are in GRACE for their grace parameter; its holds and its failed logins stay.
RATE_HOLD_END and LOGIN_HOLD_END end the hold and nothing else (R86, R87, R93, R95, R108). -/
def Obligations.SilentConsoleDetaches : Prop :=
  (∀ (a : Nat) (c : Console) (s : State), s.settled = true → TickItem.consoleSilence a ∈ s.owed →
    lookup s.consoles a = some c → c.attached = true → 2 ≤ c.silence →
    ∃ t, exec (.consoleSilenceExpiry a) s = .next t
      ∧ lookup t.consoles a = some { c with
          cls := none, features := {}, seat1 := none, seat2 := none, silence := 0, horn := .quiet, notices := []
          transfer := none, requests := 0 }
      ∧ (∀ d, d ≠ a → (lookup t.consoles d).map Console.bare = (lookup s.consoles d).map Console.bare)
      ∧ SeatsInGrace a c s t
      ∧ (∀ x ∈ t.owed, x ∈ s.owed ∧ x ≠ .consoleSilence a)
      ∧ t.plant = s.plant ∧ t.console = s.console ∧ AuthorityEventFrame s t)
  ∧ (∀ (a : Nat) (c : Console) (s : State), s.settled = true → lookup s.consoles a = some c →
    (TickItem.rateHold a ∈ s.owed → c.rateHold = 1 → exec (.rateHoldEnd a) s
      = .next (({ s with owed := s.owed.filter fun x => x != .rateHold a, statSent := false } : State).modConsole a
        fun k => { k with rateHold := 0 }))
    ∧ (TickItem.loginHold a ∈ s.owed → c.loginHold = 1 → exec (.loginHoldEnd a) s
      = .next (({ s with owed := s.owed.filter fun x => x != .loginHold a, statSent := false } : State).modConsole a
        fun k => { k with loginHold := 0 })))

/-- GRACE_EXPIRY: the area is ORPHANED under its recorded holder, with a journal entry. NOT_ATTENDED and HANDOVER_EXPIRED:
a record in OFFERED at its attend limit, and any at its handover limit, ends ABORTED with that reason; where both end at
one tick it is the handover limit, and both parties' consoles are told (R109, R132, R137, R140). -/
def Obligations.GraceAndHandoverLimitsExpire : Prop :=
  (∀ (a : Nat) (s : State), s.settled = true → TickItem.grace a ∈ s.owed → (s.area a).authority = .grace →
    (s.area a).graceLeft ≤ 1 →
    ∃ t, exec (.graceExpiry a) s = .next t
      ∧ (∀ b, t.area b = if b = a then { s.area a with authority := .orphaned, graceLeft := 0 } else s.area b)
      ∧ t.retained.journal.getLast? = some
          { kind := .orphaned, seq := (s.retained.journalSeq + 1) % 4294967296, time := s.stamp, areas := [a]
            outgoing := s.holderOp a }
      ∧ t.retained.areas = s.retained.areas ∧ t.records = s.records ∧ t.plant = s.plant ∧ t.console = s.console
      ∧ ConsolesKept s t ∧ AuthorityEventFrame s t)
  ∧ (∀ (n : Nat) (h : Handover) (s : State), s.settled = true → TickItem.handover n ∈ s.owed →
    s.record n = some h →
    (1 < h.left → h.state = .offered → h.attendLeft ≤ 1 →
      ∃ t, exec (.notAttended n) s = .next t ∧ RecordAborted h .notAttended s.stamp s t
        ∧ t.plant = s.plant ∧ t.console = s.console ∧ PartiesTold h .aborted (some .notAttended) s t
        ∧ AuthorityEventFrame s t)
    ∧ (h.left ≤ 1 →
      ∃ t, exec (.handoverExpired n) s = .next t ∧ RecordAborted h .expired s.stamp s t
        ∧ t.plant = s.plant ∧ t.console = s.console ∧ PartiesTold h .aborted (some .expired) s t
        ∧ AuthorityEventFrame s t))
end

