-- ==== Sys2Proof/Laws/State.lean ====
section
/-! SUPPORT. One lemma for each field and each update of the state, true by definition, so that no later proof unfolds a
record update. -/

namespace Sys2Proof.Machine

/-! ## setDyn -/

@[simp] theorem State.setDyn_tables (s : State) (p : Nat) (d : PointDyn) : (s.setDyn p d).tables = s.tables := rfl
@[simp] theorem State.setDyn_memory (s : State) (p : Nat) (d : PointDyn) : (s.setDyn p d).memory = s.memory := rfl
@[simp] theorem State.setDyn_retained (s : State) (p : Nat) (d : PointDyn) : (s.setDyn p d).retained = s.retained := rfl
@[simp] theorem State.setDyn_dyn (s : State) (p : Nat) (d : PointDyn) : (s.setDyn p d).dyn = writeAt {} s.dyn p d := rfl
@[simp] theorem State.setDyn_slots (s : State) (p : Nat) (d : PointDyn) : (s.setDyn p d).slots = s.slots := rfl
@[simp] theorem State.setDyn_queue (s : State) (p : Nat) (d : PointDyn) : (s.setDyn p d).queue = s.queue := rfl
@[simp] theorem State.setDyn_shelf (s : State) (p : Nat) (d : PointDyn) : (s.setDyn p d).shelf = s.shelf := rfl
@[simp] theorem State.setDyn_areas (s : State) (p : Nat) (d : PointDyn) : (s.setDyn p d).areas = s.areas := rfl
@[simp] theorem State.setDyn_consoles (s : State) (p : Nat) (d : PointDyn) : (s.setDyn p d).consoles = s.consoles := rfl
@[simp] theorem State.setDyn_turn (s : State) (p : Nat) (d : PointDyn) : (s.setDyn p d).turn = s.turn := rfl
@[simp] theorem State.setDyn_controllers (s : State) (p : Nat) (d : PointDyn) : (s.setDyn p d).controllers = s.controllers := rfl
@[simp] theorem State.setDyn_commands (s : State) (p : Nat) (d : PointDyn) : (s.setDyn p d).commands = s.commands := rfl
@[simp] theorem State.setDyn_tagCounter (s : State) (p : Nat) (d : PointDyn) : (s.setDyn p d).tagCounter = s.tagCounter := rfl
@[simp] theorem State.setDyn_records (s : State) (p : Nat) (d : PointDyn) : (s.setDyn p d).records = s.records := rfl
@[simp] theorem State.setDyn_arepSeq (s : State) (p : Nat) (d : PointDyn) : (s.setDyn p d).arepSeq = s.arepSeq := rfl
@[simp] theorem State.setDyn_time (s : State) (p : Nat) (d : PointDyn) : (s.setDyn p d).time = s.time := rfl
@[simp] theorem State.setDyn_plant (s : State) (p : Nat) (d : PointDyn) : (s.setDyn p d).plant = s.plant := rfl
@[simp] theorem State.setDyn_console (s : State) (p : Nat) (d : PointDyn) : (s.setDyn p d).console = s.console := rfl
@[simp] theorem State.setDyn_latched (s : State) (p : Nat) (d : PointDyn) : (s.setDyn p d).latched = s.latched := rfl
@[simp] theorem State.setDyn_statSeq (s : State) (p : Nat) (d : PointDyn) : (s.setDyn p d).statSeq = s.statSeq := rfl
@[simp] theorem State.setDyn_request (s : State) (p : Nat) (d : PointDyn) : (s.setDyn p d).request = s.request := rfl
@[simp] theorem State.setDyn_store (s : State) (p : Nat) (d : PointDyn) : (s.setDyn p d).store = s.store := rfl
@[simp] theorem State.setDyn_heldMreps (s : State) (p : Nat) (d : PointDyn) : (s.setDyn p d).heldMreps = s.heldMreps := rfl
@[simp] theorem State.setDyn_resetWaits (s : State) (p : Nat) (d : PointDyn) : (s.setDyn p d).resetWaits = s.resetWaits := rfl
@[simp] theorem State.setDyn_owed (s : State) (p : Nat) (d : PointDyn) : (s.setDyn p d).owed = s.owed := rfl
@[simp] theorem State.setDyn_statSent (s : State) (p : Nat) (d : PointDyn) : (s.setDyn p d).statSent = s.statSent := rfl
@[simp] theorem State.setDyn_freeCount (s : State) (p : Nat) (d : PointDyn) : (s.setDyn p d).freeCount = s.freeCount := rfl
@[simp] theorem State.setDyn_pending (s : State) (p : Nat) (d : PointDyn) : (s.setDyn p d).pending = s.pending := rfl

/-! ## setSlot -/

@[simp] theorem State.setSlot_tables (s : State) (i : Nat) (x : Slot) : (s.setSlot i x).tables = s.tables := rfl
@[simp] theorem State.setSlot_memory (s : State) (i : Nat) (x : Slot) : (s.setSlot i x).memory = s.memory := rfl
@[simp] theorem State.setSlot_retained (s : State) (i : Nat) (x : Slot) : (s.setSlot i x).retained = s.retained := rfl
@[simp] theorem State.setSlot_dyn (s : State) (i : Nat) (x : Slot) : (s.setSlot i x).dyn = s.dyn := rfl
@[simp] theorem State.setSlot_slots (s : State) (i : Nat) (x : Slot) : (s.setSlot i x).slots = insertAt s.slots i x := rfl
@[simp] theorem State.setSlot_queue (s : State) (i : Nat) (x : Slot) : (s.setSlot i x).queue = s.queue := rfl
@[simp] theorem State.setSlot_shelf (s : State) (i : Nat) (x : Slot) : (s.setSlot i x).shelf = s.shelf := rfl
@[simp] theorem State.setSlot_areas (s : State) (i : Nat) (x : Slot) : (s.setSlot i x).areas = s.areas := rfl
@[simp] theorem State.setSlot_consoles (s : State) (i : Nat) (x : Slot) : (s.setSlot i x).consoles = s.consoles := rfl
@[simp] theorem State.setSlot_turn (s : State) (i : Nat) (x : Slot) : (s.setSlot i x).turn = s.turn := rfl
@[simp] theorem State.setSlot_controllers (s : State) (i : Nat) (x : Slot) : (s.setSlot i x).controllers = s.controllers := rfl
@[simp] theorem State.setSlot_commands (s : State) (i : Nat) (x : Slot) : (s.setSlot i x).commands = s.commands := rfl
@[simp] theorem State.setSlot_tagCounter (s : State) (i : Nat) (x : Slot) : (s.setSlot i x).tagCounter = s.tagCounter := rfl
@[simp] theorem State.setSlot_records (s : State) (i : Nat) (x : Slot) : (s.setSlot i x).records = s.records := rfl
@[simp] theorem State.setSlot_arepSeq (s : State) (i : Nat) (x : Slot) : (s.setSlot i x).arepSeq = s.arepSeq := rfl
@[simp] theorem State.setSlot_time (s : State) (i : Nat) (x : Slot) : (s.setSlot i x).time = s.time := rfl
@[simp] theorem State.setSlot_plant (s : State) (i : Nat) (x : Slot) : (s.setSlot i x).plant = s.plant := rfl
@[simp] theorem State.setSlot_console (s : State) (i : Nat) (x : Slot) : (s.setSlot i x).console = s.console := rfl
@[simp] theorem State.setSlot_latched (s : State) (i : Nat) (x : Slot) : (s.setSlot i x).latched = s.latched := rfl
@[simp] theorem State.setSlot_statSeq (s : State) (i : Nat) (x : Slot) : (s.setSlot i x).statSeq = s.statSeq := rfl
@[simp] theorem State.setSlot_request (s : State) (i : Nat) (x : Slot) : (s.setSlot i x).request = s.request := rfl
@[simp] theorem State.setSlot_store (s : State) (i : Nat) (x : Slot) : (s.setSlot i x).store = s.store := rfl
@[simp] theorem State.setSlot_heldMreps (s : State) (i : Nat) (x : Slot) : (s.setSlot i x).heldMreps = s.heldMreps := rfl
@[simp] theorem State.setSlot_resetWaits (s : State) (i : Nat) (x : Slot) : (s.setSlot i x).resetWaits = s.resetWaits := rfl
@[simp] theorem State.setSlot_owed (s : State) (i : Nat) (x : Slot) : (s.setSlot i x).owed = s.owed := rfl
@[simp] theorem State.setSlot_statSent (s : State) (i : Nat) (x : Slot) : (s.setSlot i x).statSent = s.statSent := rfl
@[simp] theorem State.setSlot_freeCount (s : State) (i : Nat) (x : Slot) : (s.setSlot i x).freeCount = s.freeCount := rfl
@[simp] theorem State.setSlot_pending (s : State) (i : Nat) (x : Slot) : (s.setSlot i x).pending = s.pending := rfl

/-! ## freeSlot -/

@[simp] theorem State.freeSlot_tables (s : State) (i : Nat) : (s.freeSlot i).tables = s.tables := rfl
@[simp] theorem State.freeSlot_memory (s : State) (i : Nat) : (s.freeSlot i).memory = s.memory := rfl
@[simp] theorem State.freeSlot_retained (s : State) (i : Nat) : (s.freeSlot i).retained = s.retained := rfl
@[simp] theorem State.freeSlot_dyn (s : State) (i : Nat) : (s.freeSlot i).dyn = s.dyn := rfl
@[simp] theorem State.freeSlot_slots (s : State) (i : Nat) : (s.freeSlot i).slots = removeAt s.slots i := rfl
@[simp] theorem State.freeSlot_queue (s : State) (i : Nat) : (s.freeSlot i).queue = s.queue := rfl
@[simp] theorem State.freeSlot_shelf (s : State) (i : Nat) : (s.freeSlot i).shelf = s.shelf := rfl
@[simp] theorem State.freeSlot_areas (s : State) (i : Nat) : (s.freeSlot i).areas = s.areas := rfl
@[simp] theorem State.freeSlot_consoles (s : State) (i : Nat) : (s.freeSlot i).consoles = s.consoles := rfl
@[simp] theorem State.freeSlot_turn (s : State) (i : Nat) : (s.freeSlot i).turn = s.turn := rfl
@[simp] theorem State.freeSlot_controllers (s : State) (i : Nat) : (s.freeSlot i).controllers = s.controllers := rfl
@[simp] theorem State.freeSlot_commands (s : State) (i : Nat) : (s.freeSlot i).commands = s.commands := rfl
@[simp] theorem State.freeSlot_tagCounter (s : State) (i : Nat) : (s.freeSlot i).tagCounter = s.tagCounter := rfl
@[simp] theorem State.freeSlot_records (s : State) (i : Nat) : (s.freeSlot i).records = s.records := rfl
@[simp] theorem State.freeSlot_arepSeq (s : State) (i : Nat) : (s.freeSlot i).arepSeq = s.arepSeq := rfl
@[simp] theorem State.freeSlot_time (s : State) (i : Nat) : (s.freeSlot i).time = s.time := rfl
@[simp] theorem State.freeSlot_plant (s : State) (i : Nat) : (s.freeSlot i).plant = s.plant := rfl
@[simp] theorem State.freeSlot_console (s : State) (i : Nat) : (s.freeSlot i).console = s.console := rfl
@[simp] theorem State.freeSlot_latched (s : State) (i : Nat) : (s.freeSlot i).latched = s.latched := rfl
@[simp] theorem State.freeSlot_statSeq (s : State) (i : Nat) : (s.freeSlot i).statSeq = s.statSeq := rfl
@[simp] theorem State.freeSlot_request (s : State) (i : Nat) : (s.freeSlot i).request = s.request := rfl
@[simp] theorem State.freeSlot_store (s : State) (i : Nat) : (s.freeSlot i).store = s.store := rfl
@[simp] theorem State.freeSlot_heldMreps (s : State) (i : Nat) : (s.freeSlot i).heldMreps = s.heldMreps := rfl
@[simp] theorem State.freeSlot_resetWaits (s : State) (i : Nat) : (s.freeSlot i).resetWaits = s.resetWaits := rfl
@[simp] theorem State.freeSlot_owed (s : State) (i : Nat) : (s.freeSlot i).owed = s.owed := rfl
@[simp] theorem State.freeSlot_statSent (s : State) (i : Nat) : (s.freeSlot i).statSent = s.statSent := rfl
@[simp] theorem State.freeSlot_freeCount (s : State) (i : Nat) : (s.freeSlot i).freeCount = s.freeCount := rfl
@[simp] theorem State.freeSlot_pending (s : State) (i : Nat) : (s.freeSlot i).pending = s.pending := rfl

/-! ## setArea -/

@[simp] theorem State.setArea_tables (s : State) (a : Nat) (r : Area) : (s.setArea a r).tables = s.tables := rfl
@[simp] theorem State.setArea_memory (s : State) (a : Nat) (r : Area) : (s.setArea a r).memory = s.memory := rfl
@[simp] theorem State.setArea_retained (s : State) (a : Nat) (r : Area) : (s.setArea a r).retained = s.retained := rfl
@[simp] theorem State.setArea_dyn (s : State) (a : Nat) (r : Area) : (s.setArea a r).dyn = s.dyn := rfl
@[simp] theorem State.setArea_slots (s : State) (a : Nat) (r : Area) : (s.setArea a r).slots = s.slots := rfl
@[simp] theorem State.setArea_queue (s : State) (a : Nat) (r : Area) : (s.setArea a r).queue = s.queue := rfl
@[simp] theorem State.setArea_shelf (s : State) (a : Nat) (r : Area) : (s.setArea a r).shelf = s.shelf := rfl
@[simp] theorem State.setArea_areas (s : State) (a : Nat) (r : Area) : (s.setArea a r).areas = writeAt {} s.areas a r := rfl
@[simp] theorem State.setArea_consoles (s : State) (a : Nat) (r : Area) : (s.setArea a r).consoles = s.consoles := rfl
@[simp] theorem State.setArea_turn (s : State) (a : Nat) (r : Area) : (s.setArea a r).turn = s.turn := rfl
@[simp] theorem State.setArea_controllers (s : State) (a : Nat) (r : Area) : (s.setArea a r).controllers = s.controllers := rfl
@[simp] theorem State.setArea_commands (s : State) (a : Nat) (r : Area) : (s.setArea a r).commands = s.commands := rfl
@[simp] theorem State.setArea_tagCounter (s : State) (a : Nat) (r : Area) : (s.setArea a r).tagCounter = s.tagCounter := rfl
@[simp] theorem State.setArea_records (s : State) (a : Nat) (r : Area) : (s.setArea a r).records = s.records := rfl
@[simp] theorem State.setArea_arepSeq (s : State) (a : Nat) (r : Area) : (s.setArea a r).arepSeq = s.arepSeq := rfl
@[simp] theorem State.setArea_time (s : State) (a : Nat) (r : Area) : (s.setArea a r).time = s.time := rfl
@[simp] theorem State.setArea_plant (s : State) (a : Nat) (r : Area) : (s.setArea a r).plant = s.plant := rfl
@[simp] theorem State.setArea_console (s : State) (a : Nat) (r : Area) : (s.setArea a r).console = s.console := rfl
@[simp] theorem State.setArea_latched (s : State) (a : Nat) (r : Area) : (s.setArea a r).latched = s.latched := rfl
@[simp] theorem State.setArea_statSeq (s : State) (a : Nat) (r : Area) : (s.setArea a r).statSeq = s.statSeq := rfl
@[simp] theorem State.setArea_request (s : State) (a : Nat) (r : Area) : (s.setArea a r).request = s.request := rfl
@[simp] theorem State.setArea_store (s : State) (a : Nat) (r : Area) : (s.setArea a r).store = s.store := rfl
@[simp] theorem State.setArea_heldMreps (s : State) (a : Nat) (r : Area) : (s.setArea a r).heldMreps = s.heldMreps := rfl
@[simp] theorem State.setArea_resetWaits (s : State) (a : Nat) (r : Area) : (s.setArea a r).resetWaits = s.resetWaits := rfl
@[simp] theorem State.setArea_owed (s : State) (a : Nat) (r : Area) : (s.setArea a r).owed = s.owed := rfl
@[simp] theorem State.setArea_statSent (s : State) (a : Nat) (r : Area) : (s.setArea a r).statSent = s.statSent := rfl
@[simp] theorem State.setArea_freeCount (s : State) (a : Nat) (r : Area) : (s.setArea a r).freeCount = s.freeCount := rfl
@[simp] theorem State.setArea_pending (s : State) (a : Nat) (r : Area) : (s.setArea a r).pending = s.pending := rfl

/-! ## modArea -/

@[simp] theorem State.modArea_tables (s : State) (a : Nat) (f : Area → Area) : (s.modArea a f).tables = s.tables := rfl
@[simp] theorem State.modArea_memory (s : State) (a : Nat) (f : Area → Area) : (s.modArea a f).memory = s.memory := rfl
@[simp] theorem State.modArea_retained (s : State) (a : Nat) (f : Area → Area) : (s.modArea a f).retained = s.retained := rfl
@[simp] theorem State.modArea_dyn (s : State) (a : Nat) (f : Area → Area) : (s.modArea a f).dyn = s.dyn := rfl
@[simp] theorem State.modArea_slots (s : State) (a : Nat) (f : Area → Area) : (s.modArea a f).slots = s.slots := rfl
@[simp] theorem State.modArea_queue (s : State) (a : Nat) (f : Area → Area) : (s.modArea a f).queue = s.queue := rfl
@[simp] theorem State.modArea_shelf (s : State) (a : Nat) (f : Area → Area) : (s.modArea a f).shelf = s.shelf := rfl
@[simp] theorem State.modArea_areas (s : State) (a : Nat) (f : Area → Area) : (s.modArea a f).areas = writeAt {} s.areas a (f (s.area a)) := rfl
@[simp] theorem State.modArea_consoles (s : State) (a : Nat) (f : Area → Area) : (s.modArea a f).consoles = s.consoles := rfl
@[simp] theorem State.modArea_turn (s : State) (a : Nat) (f : Area → Area) : (s.modArea a f).turn = s.turn := rfl
@[simp] theorem State.modArea_controllers (s : State) (a : Nat) (f : Area → Area) : (s.modArea a f).controllers = s.controllers := rfl
@[simp] theorem State.modArea_commands (s : State) (a : Nat) (f : Area → Area) : (s.modArea a f).commands = s.commands := rfl
@[simp] theorem State.modArea_tagCounter (s : State) (a : Nat) (f : Area → Area) : (s.modArea a f).tagCounter = s.tagCounter := rfl
@[simp] theorem State.modArea_records (s : State) (a : Nat) (f : Area → Area) : (s.modArea a f).records = s.records := rfl
@[simp] theorem State.modArea_arepSeq (s : State) (a : Nat) (f : Area → Area) : (s.modArea a f).arepSeq = s.arepSeq := rfl
@[simp] theorem State.modArea_time (s : State) (a : Nat) (f : Area → Area) : (s.modArea a f).time = s.time := rfl
@[simp] theorem State.modArea_plant (s : State) (a : Nat) (f : Area → Area) : (s.modArea a f).plant = s.plant := rfl
@[simp] theorem State.modArea_console (s : State) (a : Nat) (f : Area → Area) : (s.modArea a f).console = s.console := rfl
@[simp] theorem State.modArea_latched (s : State) (a : Nat) (f : Area → Area) : (s.modArea a f).latched = s.latched := rfl
@[simp] theorem State.modArea_statSeq (s : State) (a : Nat) (f : Area → Area) : (s.modArea a f).statSeq = s.statSeq := rfl
@[simp] theorem State.modArea_request (s : State) (a : Nat) (f : Area → Area) : (s.modArea a f).request = s.request := rfl
@[simp] theorem State.modArea_store (s : State) (a : Nat) (f : Area → Area) : (s.modArea a f).store = s.store := rfl
@[simp] theorem State.modArea_heldMreps (s : State) (a : Nat) (f : Area → Area) : (s.modArea a f).heldMreps = s.heldMreps := rfl
@[simp] theorem State.modArea_resetWaits (s : State) (a : Nat) (f : Area → Area) : (s.modArea a f).resetWaits = s.resetWaits := rfl
@[simp] theorem State.modArea_owed (s : State) (a : Nat) (f : Area → Area) : (s.modArea a f).owed = s.owed := rfl
@[simp] theorem State.modArea_statSent (s : State) (a : Nat) (f : Area → Area) : (s.modArea a f).statSent = s.statSent := rfl
@[simp] theorem State.modArea_freeCount (s : State) (a : Nat) (f : Area → Area) : (s.modArea a f).freeCount = s.freeCount := rfl
@[simp] theorem State.modArea_pending (s : State) (a : Nat) (f : Area → Area) : (s.modArea a f).pending = s.pending := rfl

/-! ## beginEvent -/

@[simp] theorem State.beginEvent_tables (s : State) : (s.beginEvent).tables = s.tables := rfl
@[simp] theorem State.beginEvent_memory (s : State) : (s.beginEvent).memory = s.memory := rfl
@[simp] theorem State.beginEvent_retained (s : State) : (s.beginEvent).retained = s.retained := rfl
@[simp] theorem State.beginEvent_dyn (s : State) : (s.beginEvent).dyn = s.dyn := rfl
@[simp] theorem State.beginEvent_slots (s : State) : (s.beginEvent).slots = s.slots := rfl
@[simp] theorem State.beginEvent_queue (s : State) : (s.beginEvent).queue = s.queue := rfl
@[simp] theorem State.beginEvent_shelf (s : State) : (s.beginEvent).shelf = s.shelf := rfl
@[simp] theorem State.beginEvent_areas (s : State) : (s.beginEvent).areas = s.areas := rfl
@[simp] theorem State.beginEvent_consoles (s : State) : (s.beginEvent).consoles = s.consoles := rfl
@[simp] theorem State.beginEvent_turn (s : State) : (s.beginEvent).turn = s.turn := rfl
@[simp] theorem State.beginEvent_controllers (s : State) : (s.beginEvent).controllers = s.controllers := rfl
@[simp] theorem State.beginEvent_commands (s : State) : (s.beginEvent).commands = s.commands := rfl
@[simp] theorem State.beginEvent_tagCounter (s : State) : (s.beginEvent).tagCounter = s.tagCounter := rfl
@[simp] theorem State.beginEvent_records (s : State) : (s.beginEvent).records = s.records := rfl
@[simp] theorem State.beginEvent_arepSeq (s : State) : (s.beginEvent).arepSeq = s.arepSeq := rfl
@[simp] theorem State.beginEvent_time (s : State) : (s.beginEvent).time = s.time := rfl
@[simp] theorem State.beginEvent_plant (s : State) : (s.beginEvent).plant = s.plant := rfl
@[simp] theorem State.beginEvent_console (s : State) : (s.beginEvent).console = s.console := rfl
@[simp] theorem State.beginEvent_latched (s : State) : (s.beginEvent).latched = s.latched := rfl
@[simp] theorem State.beginEvent_statSeq (s : State) : (s.beginEvent).statSeq = s.statSeq := rfl
@[simp] theorem State.beginEvent_request (s : State) : (s.beginEvent).request = s.request := rfl
@[simp] theorem State.beginEvent_store (s : State) : (s.beginEvent).store = s.store := rfl
@[simp] theorem State.beginEvent_heldMreps (s : State) : (s.beginEvent).heldMreps = s.heldMreps := rfl
@[simp] theorem State.beginEvent_resetWaits (s : State) : (s.beginEvent).resetWaits = s.resetWaits := rfl
@[simp] theorem State.beginEvent_owed (s : State) : (s.beginEvent).owed = s.owed := rfl
@[simp] theorem State.beginEvent_statSent (s : State) : (s.beginEvent).statSent = false := rfl
@[simp] theorem State.beginEvent_freeCount (s : State) : (s.beginEvent).freeCount = s.freeCount := rfl
@[simp] theorem State.beginEvent_pending (s : State) : (s.beginEvent).pending = s.pending := rfl

/-! ## dropOwed -/

@[simp] theorem State.dropOwed_tables (s : State) (x : TickItem) : (s.dropOwed x).tables = s.tables := rfl
@[simp] theorem State.dropOwed_memory (s : State) (x : TickItem) : (s.dropOwed x).memory = s.memory := rfl
@[simp] theorem State.dropOwed_retained (s : State) (x : TickItem) : (s.dropOwed x).retained = s.retained := rfl
@[simp] theorem State.dropOwed_dyn (s : State) (x : TickItem) : (s.dropOwed x).dyn = s.dyn := rfl
@[simp] theorem State.dropOwed_slots (s : State) (x : TickItem) : (s.dropOwed x).slots = s.slots := rfl
@[simp] theorem State.dropOwed_queue (s : State) (x : TickItem) : (s.dropOwed x).queue = s.queue := rfl
@[simp] theorem State.dropOwed_shelf (s : State) (x : TickItem) : (s.dropOwed x).shelf = s.shelf := rfl
@[simp] theorem State.dropOwed_areas (s : State) (x : TickItem) : (s.dropOwed x).areas = s.areas := rfl
@[simp] theorem State.dropOwed_consoles (s : State) (x : TickItem) : (s.dropOwed x).consoles = s.consoles := rfl
@[simp] theorem State.dropOwed_turn (s : State) (x : TickItem) : (s.dropOwed x).turn = s.turn := rfl
@[simp] theorem State.dropOwed_controllers (s : State) (x : TickItem) : (s.dropOwed x).controllers = s.controllers := rfl
@[simp] theorem State.dropOwed_commands (s : State) (x : TickItem) : (s.dropOwed x).commands = s.commands := rfl
@[simp] theorem State.dropOwed_tagCounter (s : State) (x : TickItem) : (s.dropOwed x).tagCounter = s.tagCounter := rfl
@[simp] theorem State.dropOwed_records (s : State) (x : TickItem) : (s.dropOwed x).records = s.records := rfl
@[simp] theorem State.dropOwed_arepSeq (s : State) (x : TickItem) : (s.dropOwed x).arepSeq = s.arepSeq := rfl
@[simp] theorem State.dropOwed_time (s : State) (x : TickItem) : (s.dropOwed x).time = s.time := rfl
@[simp] theorem State.dropOwed_plant (s : State) (x : TickItem) : (s.dropOwed x).plant = s.plant := rfl
@[simp] theorem State.dropOwed_console (s : State) (x : TickItem) : (s.dropOwed x).console = s.console := rfl
@[simp] theorem State.dropOwed_latched (s : State) (x : TickItem) : (s.dropOwed x).latched = s.latched := rfl
@[simp] theorem State.dropOwed_statSeq (s : State) (x : TickItem) : (s.dropOwed x).statSeq = s.statSeq := rfl
@[simp] theorem State.dropOwed_request (s : State) (x : TickItem) : (s.dropOwed x).request = s.request := rfl
@[simp] theorem State.dropOwed_store (s : State) (x : TickItem) : (s.dropOwed x).store = s.store := rfl
@[simp] theorem State.dropOwed_heldMreps (s : State) (x : TickItem) : (s.dropOwed x).heldMreps = s.heldMreps := rfl
@[simp] theorem State.dropOwed_resetWaits (s : State) (x : TickItem) : (s.dropOwed x).resetWaits = s.resetWaits := rfl
@[simp] theorem State.dropOwed_owed (s : State) (x : TickItem) :
    (s.dropOwed x).owed = s.owed.filter fun y => !(y == x) := rfl
@[simp] theorem State.dropOwed_statSent (s : State) (x : TickItem) : (s.dropOwed x).statSent = s.statSent := rfl
@[simp] theorem State.dropOwed_freeCount (s : State) (x : TickItem) : (s.dropOwed x).freeCount = s.freeCount := rfl
@[simp] theorem State.dropOwed_pending (s : State) (x : TickItem) : (s.dropOwed x).pending = s.pending := rfl

/-! ## marked -/

@[simp] theorem State.marked_tables (s : State) : (s.marked).tables = s.tables := rfl
@[simp] theorem State.marked_memory (s : State) : (s.marked).memory = s.memory := rfl
@[simp] theorem State.marked_retained (s : State) : (s.marked).retained = s.retained := rfl
@[simp] theorem State.marked_dyn (s : State) : (s.marked).dyn = s.dyn := rfl
@[simp] theorem State.marked_slots (s : State) : (s.marked).slots = s.slots := rfl
@[simp] theorem State.marked_queue (s : State) : (s.marked).queue = s.queue := rfl
@[simp] theorem State.marked_shelf (s : State) : (s.marked).shelf = s.shelf := rfl
@[simp] theorem State.marked_areas (s : State) : (s.marked).areas = s.areas := rfl
@[simp] theorem State.marked_consoles (s : State) : (s.marked).consoles = s.consoles := rfl
@[simp] theorem State.marked_turn (s : State) : (s.marked).turn = s.turn := rfl
@[simp] theorem State.marked_controllers (s : State) : (s.marked).controllers = s.controllers := rfl
@[simp] theorem State.marked_commands (s : State) : (s.marked).commands = s.commands := rfl
@[simp] theorem State.marked_tagCounter (s : State) : (s.marked).tagCounter = s.tagCounter := rfl
@[simp] theorem State.marked_records (s : State) : (s.marked).records = s.records := rfl
@[simp] theorem State.marked_arepSeq (s : State) : (s.marked).arepSeq = s.arepSeq := rfl
@[simp] theorem State.marked_time (s : State) : (s.marked).time = { s.time with high := s.stamp } := rfl
@[simp] theorem State.marked_plant (s : State) : (s.marked).plant = s.plant := rfl
@[simp] theorem State.marked_console (s : State) : (s.marked).console = s.console := rfl
@[simp] theorem State.marked_latched (s : State) : (s.marked).latched = s.latched := rfl
@[simp] theorem State.marked_statSeq (s : State) : (s.marked).statSeq = s.statSeq := rfl
@[simp] theorem State.marked_request (s : State) : (s.marked).request = s.request := rfl
@[simp] theorem State.marked_store (s : State) : (s.marked).store = s.store := rfl
@[simp] theorem State.marked_heldMreps (s : State) : (s.marked).heldMreps = s.heldMreps := rfl
@[simp] theorem State.marked_resetWaits (s : State) : (s.marked).resetWaits = s.resetWaits := rfl
@[simp] theorem State.marked_owed (s : State) : (s.marked).owed = s.owed := rfl
@[simp] theorem State.marked_statSent (s : State) : (s.marked).statSent = s.statSent := rfl
@[simp] theorem State.marked_freeCount (s : State) : (s.marked).freeCount = s.freeCount := rfl
@[simp] theorem State.marked_pending (s : State) : (s.marked).pending = s.pending := rfl

/-! ## atArrival -/

@[simp] theorem State.atArrival_tables (s : State) (ms : Nat) : (s.atArrival ms).tables = s.tables := rfl
@[simp] theorem State.atArrival_memory (s : State) (ms : Nat) : (s.atArrival ms).memory = s.memory := rfl
@[simp] theorem State.atArrival_retained (s : State) (ms : Nat) : (s.atArrival ms).retained = s.retained := rfl
@[simp] theorem State.atArrival_dyn (s : State) (ms : Nat) : (s.atArrival ms).dyn = s.dyn := rfl
@[simp] theorem State.atArrival_slots (s : State) (ms : Nat) : (s.atArrival ms).slots = s.slots := rfl
@[simp] theorem State.atArrival_queue (s : State) (ms : Nat) : (s.atArrival ms).queue = s.queue := rfl
@[simp] theorem State.atArrival_shelf (s : State) (ms : Nat) : (s.atArrival ms).shelf = s.shelf := rfl
@[simp] theorem State.atArrival_areas (s : State) (ms : Nat) : (s.atArrival ms).areas = s.areas := rfl
@[simp] theorem State.atArrival_consoles (s : State) (ms : Nat) : (s.atArrival ms).consoles = s.consoles := rfl
@[simp] theorem State.atArrival_turn (s : State) (ms : Nat) : (s.atArrival ms).turn = s.turn := rfl
@[simp] theorem State.atArrival_controllers (s : State) (ms : Nat) : (s.atArrival ms).controllers = s.controllers := rfl
@[simp] theorem State.atArrival_commands (s : State) (ms : Nat) : (s.atArrival ms).commands = s.commands := rfl
@[simp] theorem State.atArrival_tagCounter (s : State) (ms : Nat) : (s.atArrival ms).tagCounter = s.tagCounter := rfl
@[simp] theorem State.atArrival_records (s : State) (ms : Nat) : (s.atArrival ms).records = s.records := rfl
@[simp] theorem State.atArrival_arepSeq (s : State) (ms : Nat) : (s.atArrival ms).arepSeq = s.arepSeq := rfl
@[simp] theorem State.atArrival_time (s : State) (ms : Nat) : (s.atArrival ms).time = { s.time with elapsed := max s.time.elapsed (min ms 999) } := rfl
@[simp] theorem State.atArrival_plant (s : State) (ms : Nat) : (s.atArrival ms).plant = s.plant := rfl
@[simp] theorem State.atArrival_console (s : State) (ms : Nat) : (s.atArrival ms).console = s.console := rfl
@[simp] theorem State.atArrival_latched (s : State) (ms : Nat) : (s.atArrival ms).latched = s.latched := rfl
@[simp] theorem State.atArrival_statSeq (s : State) (ms : Nat) : (s.atArrival ms).statSeq = s.statSeq := rfl
@[simp] theorem State.atArrival_request (s : State) (ms : Nat) : (s.atArrival ms).request = s.request := rfl
@[simp] theorem State.atArrival_store (s : State) (ms : Nat) : (s.atArrival ms).store = s.store := rfl
@[simp] theorem State.atArrival_heldMreps (s : State) (ms : Nat) : (s.atArrival ms).heldMreps = s.heldMreps := rfl
@[simp] theorem State.atArrival_resetWaits (s : State) (ms : Nat) : (s.atArrival ms).resetWaits = s.resetWaits := rfl
@[simp] theorem State.atArrival_owed (s : State) (ms : Nat) : (s.atArrival ms).owed = s.owed := rfl
@[simp] theorem State.atArrival_statSent (s : State) (ms : Nat) : (s.atArrival ms).statSent = false := rfl
@[simp] theorem State.atArrival_freeCount (s : State) (ms : Nat) : (s.atArrival ms).freeCount = s.freeCount := rfl
@[simp] theorem State.atArrival_pending (s : State) (ms : Nat) : (s.atArrival ms).pending = s.pending := rfl

/-! ## setRecord -/

@[simp] theorem State.setRecord_tables (s : State) (h : Handover) : (s.setRecord h).tables = s.tables := rfl
@[simp] theorem State.setRecord_memory (s : State) (h : Handover) : (s.setRecord h).memory = s.memory := rfl
@[simp] theorem State.setRecord_retained (s : State) (h : Handover) : (s.setRecord h).retained = s.retained := rfl
@[simp] theorem State.setRecord_dyn (s : State) (h : Handover) : (s.setRecord h).dyn = s.dyn := rfl
@[simp] theorem State.setRecord_slots (s : State) (h : Handover) : (s.setRecord h).slots = s.slots := rfl
@[simp] theorem State.setRecord_queue (s : State) (h : Handover) : (s.setRecord h).queue = s.queue := rfl
@[simp] theorem State.setRecord_shelf (s : State) (h : Handover) : (s.setRecord h).shelf = s.shelf := rfl
@[simp] theorem State.setRecord_areas (s : State) (h : Handover) : (s.setRecord h).areas = s.areas := rfl
@[simp] theorem State.setRecord_consoles (s : State) (h : Handover) : (s.setRecord h).consoles = s.consoles := rfl
@[simp] theorem State.setRecord_turn (s : State) (h : Handover) : (s.setRecord h).turn = s.turn := rfl
@[simp] theorem State.setRecord_controllers (s : State) (h : Handover) : (s.setRecord h).controllers = s.controllers := rfl
@[simp] theorem State.setRecord_commands (s : State) (h : Handover) : (s.setRecord h).commands = s.commands := rfl
@[simp] theorem State.setRecord_tagCounter (s : State) (h : Handover) : (s.setRecord h).tagCounter = s.tagCounter := rfl
@[simp] theorem State.setRecord_records (s : State) (h : Handover) : (s.setRecord h).records = s.records.map fun x => if x.number == h.number then h else x := rfl
@[simp] theorem State.setRecord_arepSeq (s : State) (h : Handover) : (s.setRecord h).arepSeq = s.arepSeq := rfl
@[simp] theorem State.setRecord_time (s : State) (h : Handover) : (s.setRecord h).time = s.time := rfl
@[simp] theorem State.setRecord_plant (s : State) (h : Handover) : (s.setRecord h).plant = s.plant := rfl
@[simp] theorem State.setRecord_console (s : State) (h : Handover) : (s.setRecord h).console = s.console := rfl
@[simp] theorem State.setRecord_latched (s : State) (h : Handover) : (s.setRecord h).latched = s.latched := rfl
@[simp] theorem State.setRecord_statSeq (s : State) (h : Handover) : (s.setRecord h).statSeq = s.statSeq := rfl
@[simp] theorem State.setRecord_request (s : State) (h : Handover) : (s.setRecord h).request = s.request := rfl
@[simp] theorem State.setRecord_store (s : State) (h : Handover) : (s.setRecord h).store = s.store := rfl
@[simp] theorem State.setRecord_heldMreps (s : State) (h : Handover) : (s.setRecord h).heldMreps = s.heldMreps := rfl
@[simp] theorem State.setRecord_resetWaits (s : State) (h : Handover) : (s.setRecord h).resetWaits = s.resetWaits := rfl
@[simp] theorem State.setRecord_owed (s : State) (h : Handover) : (s.setRecord h).owed = s.owed := rfl
@[simp] theorem State.setRecord_statSent (s : State) (h : Handover) : (s.setRecord h).statSent = s.statSent := rfl
@[simp] theorem State.setRecord_freeCount (s : State) (h : Handover) : (s.setRecord h).freeCount = s.freeCount := rfl
@[simp] theorem State.setRecord_pending (s : State) (h : Handover) : (s.setRecord h).pending = s.pending := rfl

/-! ## dropRecord -/

@[simp] theorem State.dropRecord_tables (s : State) (n : Nat) : (s.dropRecord n).tables = s.tables := rfl
@[simp] theorem State.dropRecord_memory (s : State) (n : Nat) : (s.dropRecord n).memory = s.memory := rfl
@[simp] theorem State.dropRecord_dyn (s : State) (n : Nat) : (s.dropRecord n).dyn = s.dyn := rfl
@[simp] theorem State.dropRecord_slots (s : State) (n : Nat) : (s.dropRecord n).slots = s.slots := rfl
@[simp] theorem State.dropRecord_queue (s : State) (n : Nat) : (s.dropRecord n).queue = s.queue := rfl
@[simp] theorem State.dropRecord_shelf (s : State) (n : Nat) : (s.dropRecord n).shelf = s.shelf := rfl
@[simp] theorem State.dropRecord_areas (s : State) (n : Nat) : (s.dropRecord n).areas = s.areas := rfl
@[simp] theorem State.dropRecord_consoles (s : State) (n : Nat) : (s.dropRecord n).consoles = s.consoles := rfl
@[simp] theorem State.dropRecord_turn (s : State) (n : Nat) : (s.dropRecord n).turn = s.turn := rfl
@[simp] theorem State.dropRecord_controllers (s : State) (n : Nat) : (s.dropRecord n).controllers = s.controllers := rfl
@[simp] theorem State.dropRecord_commands (s : State) (n : Nat) : (s.dropRecord n).commands = s.commands := rfl
@[simp] theorem State.dropRecord_tagCounter (s : State) (n : Nat) : (s.dropRecord n).tagCounter = s.tagCounter := rfl
@[simp] theorem State.dropRecord_records (s : State) (n : Nat) : (s.dropRecord n).records = s.records.filter fun h => !(h.number == n) := rfl
@[simp] theorem State.dropRecord_arepSeq (s : State) (n : Nat) : (s.dropRecord n).arepSeq = s.arepSeq := rfl
@[simp] theorem State.dropRecord_time (s : State) (n : Nat) : (s.dropRecord n).time = s.time := rfl
@[simp] theorem State.dropRecord_plant (s : State) (n : Nat) : (s.dropRecord n).plant = s.plant := rfl
@[simp] theorem State.dropRecord_console (s : State) (n : Nat) : (s.dropRecord n).console = s.console := rfl
@[simp] theorem State.dropRecord_latched (s : State) (n : Nat) : (s.dropRecord n).latched = s.latched := rfl
@[simp] theorem State.dropRecord_statSeq (s : State) (n : Nat) : (s.dropRecord n).statSeq = s.statSeq := rfl
@[simp] theorem State.dropRecord_request (s : State) (n : Nat) : (s.dropRecord n).request = s.request := rfl
@[simp] theorem State.dropRecord_store (s : State) (n : Nat) : (s.dropRecord n).store = s.store := rfl
@[simp] theorem State.dropRecord_heldMreps (s : State) (n : Nat) : (s.dropRecord n).heldMreps = s.heldMreps := rfl
@[simp] theorem State.dropRecord_resetWaits (s : State) (n : Nat) : (s.dropRecord n).resetWaits = s.resetWaits := rfl
@[simp] theorem State.dropRecord_owed (s : State) (n : Nat) : (s.dropRecord n).owed = s.owed := rfl
@[simp] theorem State.dropRecord_statSent (s : State) (n : Nat) : (s.dropRecord n).statSent = s.statSent := rfl
@[simp] theorem State.dropRecord_freeCount (s : State) (n : Nat) : (s.dropRecord n).freeCount = s.freeCount := rfl
@[simp] theorem State.dropRecord_pending (s : State) (n : Nat) : (s.dropRecord n).pending = s.pending := rfl

/-! ## retainArea -/

@[simp] theorem State.retainArea_tables (s : State) (a : Nat) : (s.retainArea a).tables = s.tables := rfl
@[simp] theorem State.retainArea_memory (s : State) (a : Nat) : (s.retainArea a).memory = s.memory := rfl
@[simp] theorem State.retainArea_dyn (s : State) (a : Nat) : (s.retainArea a).dyn = s.dyn := rfl
@[simp] theorem State.retainArea_slots (s : State) (a : Nat) : (s.retainArea a).slots = s.slots := rfl
@[simp] theorem State.retainArea_queue (s : State) (a : Nat) : (s.retainArea a).queue = s.queue := rfl
@[simp] theorem State.retainArea_shelf (s : State) (a : Nat) : (s.retainArea a).shelf = s.shelf := rfl
@[simp] theorem State.retainArea_areas (s : State) (a : Nat) : (s.retainArea a).areas = s.areas := rfl
@[simp] theorem State.retainArea_consoles (s : State) (a : Nat) : (s.retainArea a).consoles = s.consoles := rfl
@[simp] theorem State.retainArea_turn (s : State) (a : Nat) : (s.retainArea a).turn = s.turn := rfl
@[simp] theorem State.retainArea_controllers (s : State) (a : Nat) : (s.retainArea a).controllers = s.controllers := rfl
@[simp] theorem State.retainArea_commands (s : State) (a : Nat) : (s.retainArea a).commands = s.commands := rfl
@[simp] theorem State.retainArea_tagCounter (s : State) (a : Nat) : (s.retainArea a).tagCounter = s.tagCounter := rfl
@[simp] theorem State.retainArea_records (s : State) (a : Nat) : (s.retainArea a).records = s.records := rfl
@[simp] theorem State.retainArea_arepSeq (s : State) (a : Nat) : (s.retainArea a).arepSeq = s.arepSeq := rfl
@[simp] theorem State.retainArea_time (s : State) (a : Nat) : (s.retainArea a).time = s.time := rfl
@[simp] theorem State.retainArea_plant (s : State) (a : Nat) : (s.retainArea a).plant = s.plant := rfl
@[simp] theorem State.retainArea_console (s : State) (a : Nat) : (s.retainArea a).console = s.console := rfl
@[simp] theorem State.retainArea_latched (s : State) (a : Nat) : (s.retainArea a).latched = s.latched := rfl
@[simp] theorem State.retainArea_statSeq (s : State) (a : Nat) : (s.retainArea a).statSeq = s.statSeq := rfl
@[simp] theorem State.retainArea_request (s : State) (a : Nat) : (s.retainArea a).request = s.request := rfl
@[simp] theorem State.retainArea_store (s : State) (a : Nat) : (s.retainArea a).store = s.store := rfl
@[simp] theorem State.retainArea_heldMreps (s : State) (a : Nat) : (s.retainArea a).heldMreps = s.heldMreps := rfl
@[simp] theorem State.retainArea_resetWaits (s : State) (a : Nat) : (s.retainArea a).resetWaits = s.resetWaits := rfl
@[simp] theorem State.retainArea_owed (s : State) (a : Nat) : (s.retainArea a).owed = s.owed := rfl
@[simp] theorem State.retainArea_statSent (s : State) (a : Nat) : (s.retainArea a).statSent = s.statSent := rfl
@[simp] theorem State.retainArea_freeCount (s : State) (a : Nat) : (s.retainArea a).freeCount = s.freeCount := rfl
@[simp] theorem State.retainArea_pending (s : State) (a : Nat) : (s.retainArea a).pending = s.pending := rfl

/-! ## writeSummary -/

@[simp] theorem State.writeSummary_tables (s : State) (h : Handover) : (s.writeSummary h).tables = s.tables := rfl
@[simp] theorem State.writeSummary_memory (s : State) (h : Handover) : (s.writeSummary h).memory = s.memory := rfl
@[simp] theorem State.writeSummary_dyn (s : State) (h : Handover) : (s.writeSummary h).dyn = s.dyn := rfl
@[simp] theorem State.writeSummary_slots (s : State) (h : Handover) : (s.writeSummary h).slots = s.slots := rfl
@[simp] theorem State.writeSummary_queue (s : State) (h : Handover) : (s.writeSummary h).queue = s.queue := rfl
@[simp] theorem State.writeSummary_shelf (s : State) (h : Handover) : (s.writeSummary h).shelf = s.shelf := rfl
@[simp] theorem State.writeSummary_areas (s : State) (h : Handover) : (s.writeSummary h).areas = s.areas := rfl
@[simp] theorem State.writeSummary_consoles (s : State) (h : Handover) : (s.writeSummary h).consoles = s.consoles := rfl
@[simp] theorem State.writeSummary_turn (s : State) (h : Handover) : (s.writeSummary h).turn = s.turn := rfl
@[simp] theorem State.writeSummary_controllers (s : State) (h : Handover) : (s.writeSummary h).controllers = s.controllers := rfl
@[simp] theorem State.writeSummary_commands (s : State) (h : Handover) : (s.writeSummary h).commands = s.commands := rfl
@[simp] theorem State.writeSummary_tagCounter (s : State) (h : Handover) : (s.writeSummary h).tagCounter = s.tagCounter := rfl
@[simp] theorem State.writeSummary_records (s : State) (h : Handover) : (s.writeSummary h).records = s.records := rfl
@[simp] theorem State.writeSummary_arepSeq (s : State) (h : Handover) : (s.writeSummary h).arepSeq = s.arepSeq := rfl
@[simp] theorem State.writeSummary_time (s : State) (h : Handover) : (s.writeSummary h).time = s.time := rfl
@[simp] theorem State.writeSummary_plant (s : State) (h : Handover) : (s.writeSummary h).plant = s.plant := rfl
@[simp] theorem State.writeSummary_console (s : State) (h : Handover) : (s.writeSummary h).console = s.console := rfl
@[simp] theorem State.writeSummary_latched (s : State) (h : Handover) : (s.writeSummary h).latched = s.latched := rfl
@[simp] theorem State.writeSummary_statSeq (s : State) (h : Handover) : (s.writeSummary h).statSeq = s.statSeq := rfl
@[simp] theorem State.writeSummary_request (s : State) (h : Handover) : (s.writeSummary h).request = s.request := rfl
@[simp] theorem State.writeSummary_store (s : State) (h : Handover) : (s.writeSummary h).store = s.store := rfl
@[simp] theorem State.writeSummary_heldMreps (s : State) (h : Handover) : (s.writeSummary h).heldMreps = s.heldMreps := rfl
@[simp] theorem State.writeSummary_resetWaits (s : State) (h : Handover) : (s.writeSummary h).resetWaits = s.resetWaits := rfl
@[simp] theorem State.writeSummary_owed (s : State) (h : Handover) : (s.writeSummary h).owed = s.owed := rfl
@[simp] theorem State.writeSummary_statSent (s : State) (h : Handover) : (s.writeSummary h).statSent = s.statSent := rfl
@[simp] theorem State.writeSummary_freeCount (s : State) (h : Handover) : (s.writeSummary h).freeCount = s.freeCount := rfl
@[simp] theorem State.writeSummary_pending (s : State) (h : Handover) : (s.writeSummary h).pending = s.pending := rfl

/-! ## writeJournal -/

@[simp] theorem State.writeJournal_tables (s : State) (e : JournalEntry) : (s.writeJournal e).tables = s.tables := by
  unfold State.writeJournal; rfl
@[simp] theorem State.writeJournal_memory (s : State) (e : JournalEntry) : (s.writeJournal e).memory = s.memory := by
  unfold State.writeJournal; rfl
@[simp] theorem State.writeJournal_dyn (s : State) (e : JournalEntry) : (s.writeJournal e).dyn = s.dyn := by
  unfold State.writeJournal; rfl
@[simp] theorem State.writeJournal_slots (s : State) (e : JournalEntry) : (s.writeJournal e).slots = s.slots := by
  unfold State.writeJournal; rfl
@[simp] theorem State.writeJournal_queue (s : State) (e : JournalEntry) : (s.writeJournal e).queue = s.queue := by
  unfold State.writeJournal; rfl
@[simp] theorem State.writeJournal_shelf (s : State) (e : JournalEntry) : (s.writeJournal e).shelf = s.shelf := by
  unfold State.writeJournal; rfl
@[simp] theorem State.writeJournal_areas (s : State) (e : JournalEntry) : (s.writeJournal e).areas = s.areas := by
  unfold State.writeJournal; rfl
@[simp] theorem State.writeJournal_consoles (s : State) (e : JournalEntry) : (s.writeJournal e).consoles = s.consoles := by
  unfold State.writeJournal; rfl
@[simp] theorem State.writeJournal_turn (s : State) (e : JournalEntry) : (s.writeJournal e).turn = s.turn := by
  unfold State.writeJournal; rfl
@[simp] theorem State.writeJournal_controllers (s : State) (e : JournalEntry) : (s.writeJournal e).controllers = s.controllers := by
  unfold State.writeJournal; rfl
@[simp] theorem State.writeJournal_commands (s : State) (e : JournalEntry) : (s.writeJournal e).commands = s.commands := by
  unfold State.writeJournal; rfl
@[simp] theorem State.writeJournal_tagCounter (s : State) (e : JournalEntry) : (s.writeJournal e).tagCounter = s.tagCounter := by
  unfold State.writeJournal; rfl
@[simp] theorem State.writeJournal_records (s : State) (e : JournalEntry) : (s.writeJournal e).records = s.records := by
  unfold State.writeJournal; rfl
@[simp] theorem State.writeJournal_arepSeq (s : State) (e : JournalEntry) : (s.writeJournal e).arepSeq = s.arepSeq := by
  unfold State.writeJournal; rfl
@[simp] theorem State.writeJournal_time (s : State) (e : JournalEntry) : (s.writeJournal e).time = s.marked.time := by
  unfold State.writeJournal; rfl
@[simp] theorem State.writeJournal_plant (s : State) (e : JournalEntry) : (s.writeJournal e).plant = s.plant := by
  unfold State.writeJournal; rfl
@[simp] theorem State.writeJournal_console (s : State) (e : JournalEntry) : (s.writeJournal e).console = s.console := by
  unfold State.writeJournal; rfl
@[simp] theorem State.writeJournal_latched (s : State) (e : JournalEntry) : (s.writeJournal e).latched = s.latched := by
  unfold State.writeJournal; rfl
@[simp] theorem State.writeJournal_statSeq (s : State) (e : JournalEntry) : (s.writeJournal e).statSeq = s.statSeq := by
  unfold State.writeJournal; rfl
@[simp] theorem State.writeJournal_request (s : State) (e : JournalEntry) : (s.writeJournal e).request = s.request := by
  unfold State.writeJournal; rfl
@[simp] theorem State.writeJournal_store (s : State) (e : JournalEntry) : (s.writeJournal e).store = s.store := by
  unfold State.writeJournal; rfl
@[simp] theorem State.writeJournal_heldMreps (s : State) (e : JournalEntry) : (s.writeJournal e).heldMreps = s.heldMreps := by
  unfold State.writeJournal; rfl
@[simp] theorem State.writeJournal_resetWaits (s : State) (e : JournalEntry) : (s.writeJournal e).resetWaits = s.resetWaits := by
  unfold State.writeJournal; rfl
@[simp] theorem State.writeJournal_owed (s : State) (e : JournalEntry) : (s.writeJournal e).owed = s.owed := by
  unfold State.writeJournal; rfl
@[simp] theorem State.writeJournal_statSent (s : State) (e : JournalEntry) : (s.writeJournal e).statSent = s.statSent := by
  unfold State.writeJournal; rfl
@[simp] theorem State.writeJournal_freeCount (s : State) (e : JournalEntry) : (s.writeJournal e).freeCount = s.freeCount := by
  unfold State.writeJournal; rfl
@[simp] theorem State.writeJournal_pending (s : State) (e : JournalEntry) : (s.writeJournal e).pending = s.pending := by
  unfold State.writeJournal; rfl

/-! ## setRoster -/

@[simp] theorem State.setRoster_tables (s : State) (l : List (Nat × Operator)) : (s.setRoster l).tables = { s.tables with roster := l } := rfl
@[simp] theorem State.setRoster_memory (s : State) (l : List (Nat × Operator)) : (s.setRoster l).memory = s.memory := rfl
@[simp] theorem State.setRoster_retained (s : State) (l : List (Nat × Operator)) : (s.setRoster l).retained = s.retained := rfl
@[simp] theorem State.setRoster_dyn (s : State) (l : List (Nat × Operator)) : (s.setRoster l).dyn = s.dyn := rfl
@[simp] theorem State.setRoster_slots (s : State) (l : List (Nat × Operator)) : (s.setRoster l).slots = s.slots := rfl
@[simp] theorem State.setRoster_queue (s : State) (l : List (Nat × Operator)) : (s.setRoster l).queue = s.queue := rfl
@[simp] theorem State.setRoster_shelf (s : State) (l : List (Nat × Operator)) : (s.setRoster l).shelf = s.shelf := rfl
@[simp] theorem State.setRoster_areas (s : State) (l : List (Nat × Operator)) : (s.setRoster l).areas = s.areas := rfl
@[simp] theorem State.setRoster_consoles (s : State) (l : List (Nat × Operator)) : (s.setRoster l).consoles = s.consoles := rfl
@[simp] theorem State.setRoster_turn (s : State) (l : List (Nat × Operator)) : (s.setRoster l).turn = s.turn := rfl
@[simp] theorem State.setRoster_controllers (s : State) (l : List (Nat × Operator)) : (s.setRoster l).controllers = s.controllers := rfl
@[simp] theorem State.setRoster_commands (s : State) (l : List (Nat × Operator)) : (s.setRoster l).commands = s.commands := rfl
@[simp] theorem State.setRoster_tagCounter (s : State) (l : List (Nat × Operator)) : (s.setRoster l).tagCounter = s.tagCounter := rfl
@[simp] theorem State.setRoster_records (s : State) (l : List (Nat × Operator)) : (s.setRoster l).records = s.records := rfl
@[simp] theorem State.setRoster_arepSeq (s : State) (l : List (Nat × Operator)) : (s.setRoster l).arepSeq = s.arepSeq := rfl
@[simp] theorem State.setRoster_time (s : State) (l : List (Nat × Operator)) : (s.setRoster l).time = s.time := rfl
@[simp] theorem State.setRoster_plant (s : State) (l : List (Nat × Operator)) : (s.setRoster l).plant = s.plant := rfl
@[simp] theorem State.setRoster_console (s : State) (l : List (Nat × Operator)) : (s.setRoster l).console = s.console := rfl
@[simp] theorem State.setRoster_latched (s : State) (l : List (Nat × Operator)) : (s.setRoster l).latched = s.latched := rfl
@[simp] theorem State.setRoster_statSeq (s : State) (l : List (Nat × Operator)) : (s.setRoster l).statSeq = s.statSeq := rfl
@[simp] theorem State.setRoster_request (s : State) (l : List (Nat × Operator)) : (s.setRoster l).request = s.request := rfl
@[simp] theorem State.setRoster_store (s : State) (l : List (Nat × Operator)) : (s.setRoster l).store = s.store := rfl
@[simp] theorem State.setRoster_heldMreps (s : State) (l : List (Nat × Operator)) : (s.setRoster l).heldMreps = s.heldMreps := rfl
@[simp] theorem State.setRoster_resetWaits (s : State) (l : List (Nat × Operator)) : (s.setRoster l).resetWaits = s.resetWaits := rfl
@[simp] theorem State.setRoster_owed (s : State) (l : List (Nat × Operator)) : (s.setRoster l).owed = s.owed := rfl
@[simp] theorem State.setRoster_statSent (s : State) (l : List (Nat × Operator)) : (s.setRoster l).statSent = s.statSent := rfl
@[simp] theorem State.setRoster_freeCount (s : State) (l : List (Nat × Operator)) : (s.setRoster l).freeCount = s.freeCount := rfl
@[simp] theorem State.setRoster_pending (s : State) (l : List (Nat × Operator)) : (s.setRoster l).pending = s.pending := rfl

/-! ## modConsole -/

@[simp] theorem State.modConsole_tables (s : State) (a : Nat) (f : Console → Console) : (s.modConsole a f).tables = s.tables := by
  unfold State.modConsole; split <;> rfl
@[simp] theorem State.modConsole_memory (s : State) (a : Nat) (f : Console → Console) : (s.modConsole a f).memory = s.memory := by
  unfold State.modConsole; split <;> rfl
@[simp] theorem State.modConsole_retained (s : State) (a : Nat) (f : Console → Console) : (s.modConsole a f).retained = s.retained := by
  unfold State.modConsole; split <;> rfl
@[simp] theorem State.modConsole_dyn (s : State) (a : Nat) (f : Console → Console) : (s.modConsole a f).dyn = s.dyn := by
  unfold State.modConsole; split <;> rfl
@[simp] theorem State.modConsole_slots (s : State) (a : Nat) (f : Console → Console) : (s.modConsole a f).slots = s.slots := by
  unfold State.modConsole; split <;> rfl
@[simp] theorem State.modConsole_queue (s : State) (a : Nat) (f : Console → Console) : (s.modConsole a f).queue = s.queue := by
  unfold State.modConsole; split <;> rfl
@[simp] theorem State.modConsole_shelf (s : State) (a : Nat) (f : Console → Console) : (s.modConsole a f).shelf = s.shelf := by
  unfold State.modConsole; split <;> rfl
@[simp] theorem State.modConsole_areas (s : State) (a : Nat) (f : Console → Console) : (s.modConsole a f).areas = s.areas := by
  unfold State.modConsole; split <;> rfl
@[simp] theorem State.modConsole_turn (s : State) (a : Nat) (f : Console → Console) : (s.modConsole a f).turn = s.turn := by
  unfold State.modConsole; split <;> rfl
@[simp] theorem State.modConsole_controllers (s : State) (a : Nat) (f : Console → Console) : (s.modConsole a f).controllers = s.controllers := by
  unfold State.modConsole; split <;> rfl
@[simp] theorem State.modConsole_commands (s : State) (a : Nat) (f : Console → Console) : (s.modConsole a f).commands = s.commands := by
  unfold State.modConsole; split <;> rfl
@[simp] theorem State.modConsole_tagCounter (s : State) (a : Nat) (f : Console → Console) : (s.modConsole a f).tagCounter = s.tagCounter := by
  unfold State.modConsole; split <;> rfl
@[simp] theorem State.modConsole_records (s : State) (a : Nat) (f : Console → Console) : (s.modConsole a f).records = s.records := by
  unfold State.modConsole; split <;> rfl
@[simp] theorem State.modConsole_arepSeq (s : State) (a : Nat) (f : Console → Console) : (s.modConsole a f).arepSeq = s.arepSeq := by
  unfold State.modConsole; split <;> rfl
@[simp] theorem State.modConsole_time (s : State) (a : Nat) (f : Console → Console) : (s.modConsole a f).time = s.time := by
  unfold State.modConsole; split <;> rfl
@[simp] theorem State.modConsole_plant (s : State) (a : Nat) (f : Console → Console) : (s.modConsole a f).plant = s.plant := by
  unfold State.modConsole; split <;> rfl
@[simp] theorem State.modConsole_console (s : State) (a : Nat) (f : Console → Console) : (s.modConsole a f).console = s.console := by
  unfold State.modConsole; split <;> rfl
@[simp] theorem State.modConsole_latched (s : State) (a : Nat) (f : Console → Console) : (s.modConsole a f).latched = s.latched := by
  unfold State.modConsole; split <;> rfl
@[simp] theorem State.modConsole_statSeq (s : State) (a : Nat) (f : Console → Console) : (s.modConsole a f).statSeq = s.statSeq := by
  unfold State.modConsole; split <;> rfl
@[simp] theorem State.modConsole_request (s : State) (a : Nat) (f : Console → Console) : (s.modConsole a f).request = s.request := by
  unfold State.modConsole; split <;> rfl
@[simp] theorem State.modConsole_store (s : State) (a : Nat) (f : Console → Console) : (s.modConsole a f).store = s.store := by
  unfold State.modConsole; split <;> rfl
@[simp] theorem State.modConsole_heldMreps (s : State) (a : Nat) (f : Console → Console) : (s.modConsole a f).heldMreps = s.heldMreps := by
  unfold State.modConsole; split <;> rfl
@[simp] theorem State.modConsole_resetWaits (s : State) (a : Nat) (f : Console → Console) : (s.modConsole a f).resetWaits = s.resetWaits := by
  unfold State.modConsole; split <;> rfl
@[simp] theorem State.modConsole_owed (s : State) (a : Nat) (f : Console → Console) : (s.modConsole a f).owed = s.owed := by
  unfold State.modConsole; split <;> rfl
@[simp] theorem State.modConsole_statSent (s : State) (a : Nat) (f : Console → Console) : (s.modConsole a f).statSent = s.statSent := by
  unfold State.modConsole; split <;> rfl
@[simp] theorem State.modConsole_freeCount (s : State) (a : Nat) (f : Console → Console) : (s.modConsole a f).freeCount = s.freeCount := by
  unfold State.modConsole; split <;> rfl
@[simp] theorem State.modConsole_pending (s : State) (a : Nat) (f : Console → Console) : (s.modConsole a f).pending = s.pending := by
  unfold State.modConsole; split <;> rfl

/-! ## modController -/

@[simp] theorem State.modController_tables (s : State) (a : Nat) (f : Controller → Controller) : (s.modController a f).tables = s.tables := by
  unfold State.modController; split <;> rfl
@[simp] theorem State.modController_memory (s : State) (a : Nat) (f : Controller → Controller) : (s.modController a f).memory = s.memory := by
  unfold State.modController; split <;> rfl
@[simp] theorem State.modController_retained (s : State) (a : Nat) (f : Controller → Controller) : (s.modController a f).retained = s.retained := by
  unfold State.modController; split <;> rfl
@[simp] theorem State.modController_dyn (s : State) (a : Nat) (f : Controller → Controller) : (s.modController a f).dyn = s.dyn := by
  unfold State.modController; split <;> rfl
@[simp] theorem State.modController_slots (s : State) (a : Nat) (f : Controller → Controller) : (s.modController a f).slots = s.slots := by
  unfold State.modController; split <;> rfl
@[simp] theorem State.modController_queue (s : State) (a : Nat) (f : Controller → Controller) : (s.modController a f).queue = s.queue := by
  unfold State.modController; split <;> rfl
@[simp] theorem State.modController_shelf (s : State) (a : Nat) (f : Controller → Controller) : (s.modController a f).shelf = s.shelf := by
  unfold State.modController; split <;> rfl
@[simp] theorem State.modController_areas (s : State) (a : Nat) (f : Controller → Controller) : (s.modController a f).areas = s.areas := by
  unfold State.modController; split <;> rfl
@[simp] theorem State.modController_consoles (s : State) (a : Nat) (f : Controller → Controller) : (s.modController a f).consoles = s.consoles := by
  unfold State.modController; split <;> rfl
@[simp] theorem State.modController_turn (s : State) (a : Nat) (f : Controller → Controller) : (s.modController a f).turn = s.turn := by
  unfold State.modController; split <;> rfl
@[simp] theorem State.modController_commands (s : State) (a : Nat) (f : Controller → Controller) : (s.modController a f).commands = s.commands := by
  unfold State.modController; split <;> rfl
@[simp] theorem State.modController_tagCounter (s : State) (a : Nat) (f : Controller → Controller) : (s.modController a f).tagCounter = s.tagCounter := by
  unfold State.modController; split <;> rfl
@[simp] theorem State.modController_records (s : State) (a : Nat) (f : Controller → Controller) : (s.modController a f).records = s.records := by
  unfold State.modController; split <;> rfl
@[simp] theorem State.modController_arepSeq (s : State) (a : Nat) (f : Controller → Controller) : (s.modController a f).arepSeq = s.arepSeq := by
  unfold State.modController; split <;> rfl
@[simp] theorem State.modController_time (s : State) (a : Nat) (f : Controller → Controller) : (s.modController a f).time = s.time := by
  unfold State.modController; split <;> rfl
@[simp] theorem State.modController_plant (s : State) (a : Nat) (f : Controller → Controller) : (s.modController a f).plant = s.plant := by
  unfold State.modController; split <;> rfl
@[simp] theorem State.modController_console (s : State) (a : Nat) (f : Controller → Controller) : (s.modController a f).console = s.console := by
  unfold State.modController; split <;> rfl
@[simp] theorem State.modController_latched (s : State) (a : Nat) (f : Controller → Controller) : (s.modController a f).latched = s.latched := by
  unfold State.modController; split <;> rfl
@[simp] theorem State.modController_statSeq (s : State) (a : Nat) (f : Controller → Controller) : (s.modController a f).statSeq = s.statSeq := by
  unfold State.modController; split <;> rfl
@[simp] theorem State.modController_request (s : State) (a : Nat) (f : Controller → Controller) : (s.modController a f).request = s.request := by
  unfold State.modController; split <;> rfl
@[simp] theorem State.modController_store (s : State) (a : Nat) (f : Controller → Controller) : (s.modController a f).store = s.store := by
  unfold State.modController; split <;> rfl
@[simp] theorem State.modController_heldMreps (s : State) (a : Nat) (f : Controller → Controller) : (s.modController a f).heldMreps = s.heldMreps := by
  unfold State.modController; split <;> rfl
@[simp] theorem State.modController_resetWaits (s : State) (a : Nat) (f : Controller → Controller) : (s.modController a f).resetWaits = s.resetWaits := by
  unfold State.modController; split <;> rfl
@[simp] theorem State.modController_owed (s : State) (a : Nat) (f : Controller → Controller) : (s.modController a f).owed = s.owed := by
  unfold State.modController; split <;> rfl
@[simp] theorem State.modController_statSent (s : State) (a : Nat) (f : Controller → Controller) : (s.modController a f).statSent = s.statSent := by
  unfold State.modController; split <;> rfl
@[simp] theorem State.modController_freeCount (s : State) (a : Nat) (f : Controller → Controller) : (s.modController a f).freeCount = s.freeCount := by
  unfold State.modController; split <;> rfl
@[simp] theorem State.modController_pending (s : State) (a : Nat) (f : Controller → Controller) : (s.modController a f).pending = s.pending := by
  unfold State.modController; split <;> rfl

/-! ## setPort -/

@[simp] theorem State.setPort_tables (s : State) (p : PortId) (q : Port) : (s.setPort p q).tables = s.tables := by cases p <;> rfl
@[simp] theorem State.setPort_memory (s : State) (p : PortId) (q : Port) : (s.setPort p q).memory = s.memory := by cases p <;> rfl
@[simp] theorem State.setPort_retained (s : State) (p : PortId) (q : Port) : (s.setPort p q).retained = s.retained := by cases p <;> rfl
@[simp] theorem State.setPort_dyn (s : State) (p : PortId) (q : Port) : (s.setPort p q).dyn = s.dyn := by cases p <;> rfl
@[simp] theorem State.setPort_slots (s : State) (p : PortId) (q : Port) : (s.setPort p q).slots = s.slots := by cases p <;> rfl
@[simp] theorem State.setPort_queue (s : State) (p : PortId) (q : Port) : (s.setPort p q).queue = s.queue := by cases p <;> rfl
@[simp] theorem State.setPort_shelf (s : State) (p : PortId) (q : Port) : (s.setPort p q).shelf = s.shelf := by cases p <;> rfl
@[simp] theorem State.setPort_areas (s : State) (p : PortId) (q : Port) : (s.setPort p q).areas = s.areas := by cases p <;> rfl
@[simp] theorem State.setPort_consoles (s : State) (p : PortId) (q : Port) : (s.setPort p q).consoles = s.consoles := by cases p <;> rfl
@[simp] theorem State.setPort_turn (s : State) (p : PortId) (q : Port) : (s.setPort p q).turn = s.turn := by cases p <;> rfl
@[simp] theorem State.setPort_controllers (s : State) (p : PortId) (q : Port) : (s.setPort p q).controllers = s.controllers := by cases p <;> rfl
@[simp] theorem State.setPort_commands (s : State) (p : PortId) (q : Port) : (s.setPort p q).commands = s.commands := by cases p <;> rfl
@[simp] theorem State.setPort_tagCounter (s : State) (p : PortId) (q : Port) : (s.setPort p q).tagCounter = s.tagCounter := by cases p <;> rfl
@[simp] theorem State.setPort_records (s : State) (p : PortId) (q : Port) : (s.setPort p q).records = s.records := by cases p <;> rfl
@[simp] theorem State.setPort_arepSeq (s : State) (p : PortId) (q : Port) : (s.setPort p q).arepSeq = s.arepSeq := by cases p <;> rfl
@[simp] theorem State.setPort_time (s : State) (p : PortId) (q : Port) : (s.setPort p q).time = s.time := by cases p <;> rfl
@[simp] theorem State.setPort_latched (s : State) (p : PortId) (q : Port) : (s.setPort p q).latched = s.latched := by cases p <;> rfl
@[simp] theorem State.setPort_statSeq (s : State) (p : PortId) (q : Port) : (s.setPort p q).statSeq = s.statSeq := by cases p <;> rfl
@[simp] theorem State.setPort_request (s : State) (p : PortId) (q : Port) : (s.setPort p q).request = s.request := by cases p <;> rfl
@[simp] theorem State.setPort_store (s : State) (p : PortId) (q : Port) : (s.setPort p q).store = s.store := by cases p <;> rfl
@[simp] theorem State.setPort_heldMreps (s : State) (p : PortId) (q : Port) : (s.setPort p q).heldMreps = s.heldMreps := by cases p <;> rfl
@[simp] theorem State.setPort_resetWaits (s : State) (p : PortId) (q : Port) : (s.setPort p q).resetWaits = s.resetWaits := by cases p <;> rfl
@[simp] theorem State.setPort_owed (s : State) (p : PortId) (q : Port) : (s.setPort p q).owed = s.owed := by cases p <;> rfl
@[simp] theorem State.setPort_statSent (s : State) (p : PortId) (q : Port) : (s.setPort p q).statSent = s.statSent := by cases p <;> rfl
@[simp] theorem State.setPort_freeCount (s : State) (p : PortId) (q : Port) : (s.setPort p q).freeCount = s.freeCount := by cases p <;> rfl
@[simp] theorem State.setPort_pending (s : State) (p : PortId) (q : Port) : (s.setPort p q).pending = s.pending := by cases p <;> rfl

/-! ## modPort -/

@[simp] theorem State.modPort_tables (s : State) (p : PortId) (f : Port → Port) : (s.modPort p f).tables = s.tables := by cases p <;> rfl
@[simp] theorem State.modPort_memory (s : State) (p : PortId) (f : Port → Port) : (s.modPort p f).memory = s.memory := by cases p <;> rfl
@[simp] theorem State.modPort_retained (s : State) (p : PortId) (f : Port → Port) : (s.modPort p f).retained = s.retained := by cases p <;> rfl
@[simp] theorem State.modPort_dyn (s : State) (p : PortId) (f : Port → Port) : (s.modPort p f).dyn = s.dyn := by cases p <;> rfl
@[simp] theorem State.modPort_slots (s : State) (p : PortId) (f : Port → Port) : (s.modPort p f).slots = s.slots := by cases p <;> rfl
@[simp] theorem State.modPort_queue (s : State) (p : PortId) (f : Port → Port) : (s.modPort p f).queue = s.queue := by cases p <;> rfl
@[simp] theorem State.modPort_shelf (s : State) (p : PortId) (f : Port → Port) : (s.modPort p f).shelf = s.shelf := by cases p <;> rfl
@[simp] theorem State.modPort_areas (s : State) (p : PortId) (f : Port → Port) : (s.modPort p f).areas = s.areas := by cases p <;> rfl
@[simp] theorem State.modPort_consoles (s : State) (p : PortId) (f : Port → Port) : (s.modPort p f).consoles = s.consoles := by cases p <;> rfl
@[simp] theorem State.modPort_turn (s : State) (p : PortId) (f : Port → Port) : (s.modPort p f).turn = s.turn := by cases p <;> rfl
@[simp] theorem State.modPort_controllers (s : State) (p : PortId) (f : Port → Port) : (s.modPort p f).controllers = s.controllers := by cases p <;> rfl
@[simp] theorem State.modPort_commands (s : State) (p : PortId) (f : Port → Port) : (s.modPort p f).commands = s.commands := by cases p <;> rfl
@[simp] theorem State.modPort_tagCounter (s : State) (p : PortId) (f : Port → Port) : (s.modPort p f).tagCounter = s.tagCounter := by cases p <;> rfl
@[simp] theorem State.modPort_records (s : State) (p : PortId) (f : Port → Port) : (s.modPort p f).records = s.records := by cases p <;> rfl
@[simp] theorem State.modPort_arepSeq (s : State) (p : PortId) (f : Port → Port) : (s.modPort p f).arepSeq = s.arepSeq := by cases p <;> rfl
@[simp] theorem State.modPort_time (s : State) (p : PortId) (f : Port → Port) : (s.modPort p f).time = s.time := by cases p <;> rfl
@[simp] theorem State.modPort_latched (s : State) (p : PortId) (f : Port → Port) : (s.modPort p f).latched = s.latched := by cases p <;> rfl
@[simp] theorem State.modPort_statSeq (s : State) (p : PortId) (f : Port → Port) : (s.modPort p f).statSeq = s.statSeq := by cases p <;> rfl
@[simp] theorem State.modPort_request (s : State) (p : PortId) (f : Port → Port) : (s.modPort p f).request = s.request := by cases p <;> rfl
@[simp] theorem State.modPort_store (s : State) (p : PortId) (f : Port → Port) : (s.modPort p f).store = s.store := by cases p <;> rfl
@[simp] theorem State.modPort_heldMreps (s : State) (p : PortId) (f : Port → Port) : (s.modPort p f).heldMreps = s.heldMreps := by cases p <;> rfl
@[simp] theorem State.modPort_resetWaits (s : State) (p : PortId) (f : Port → Port) : (s.modPort p f).resetWaits = s.resetWaits := by cases p <;> rfl
@[simp] theorem State.modPort_owed (s : State) (p : PortId) (f : Port → Port) : (s.modPort p f).owed = s.owed := by cases p <;> rfl
@[simp] theorem State.modPort_statSent (s : State) (p : PortId) (f : Port → Port) : (s.modPort p f).statSent = s.statSent := by cases p <;> rfl
@[simp] theorem State.modPort_freeCount (s : State) (p : PortId) (f : Port → Port) : (s.modPort p f).freeCount = s.freeCount := by cases p <;> rfl
@[simp] theorem State.modPort_pending (s : State) (p : PortId) (f : Port → Port) : (s.modPort p f).pending = s.pending := by cases p <;> rfl

end Sys2Proof.Machine
end

