-- ==== Sys2Proof/Laws/Tables.lean ====
section
/-! SUPPORT. Tables with rising keys: what an entry reads after each table operation, and that each keeps the rising
order; the accessors that read through them. -/

namespace Sys2Proof.Machine

variable {α : Type}

/-! ## Read after write -/

theorem lookup_insertAt (t : List (Nat × α)) (n m : Nat) (a : α) :
    lookup (insertAt t n a) m = if m = n then some a else lookup t m := by
  induction t with
  | nil => simp [insertAt, lookup, eq_comm]
  | cons e t ih =>
    obtain ⟨k, v⟩ := e
    simp only [insertAt]
    split
    · simp [lookup, eq_comm]
    · split
      · next h => subst h; by_cases hm : m = k <;> simp [lookup, hm, eq_comm]
      · next h => simp only [lookup, ih]; grind

@[simp] theorem lookup_insertAt_self (t : List (Nat × α)) (n : Nat) (a : α) :
    lookup (insertAt t n a) n = some a := by simp [lookup_insertAt]

theorem lookup_insertAt_of_ne (t : List (Nat × α)) {n m : Nat} (h : m ≠ n) (a : α) :
    lookup (insertAt t n a) m = lookup t m := by simp [lookup_insertAt, h]

theorem lookup_removeAt (t : List (Nat × α)) (n m : Nat) :
    lookup (removeAt t n) m = if m = n then none else lookup t m := by
  induction t with
  | nil => simp [removeAt, lookup]
  | cons e t ih =>
    obtain ⟨k, v⟩ := e
    simp only [removeAt, List.filter_cons] at ih ⊢
    by_cases hk : k = n <;> simp_all [lookup] <;> grind

@[simp] theorem lookup_removeAt_self (t : List (Nat × α)) (n : Nat) : lookup (removeAt t n) n = none := by
  simp [lookup_removeAt]

theorem lookup_removeAt_of_ne (t : List (Nat × α)) {n m : Nat} (h : m ≠ n) :
    lookup (removeAt t n) m = lookup t m := by simp [lookup_removeAt, h]

/-- An entry written over an entry written at the same key. -/
@[simp] theorem insertAt_insertAt (t : List (Nat × α)) (n : Nat) (a b : α) :
    insertAt (insertAt t n a) n b = insertAt t n b := by
  induction t with
  | nil => simp [insertAt]
  | cons e t ih => obtain ⟨k, v⟩ := e; simp only [insertAt]; split <;> (try split) <;> simp_all [insertAt]

/-- Reading with a default after a write that removes the default's entries. -/
theorem getD_writeAt [DecidableEq α] (d : α) (t : List (Nat × α)) (n m : Nat) (a : α) :
    (lookup (writeAt d t n a) m).getD d = if m = n then a else (lookup t m).getD d := by
  unfold writeAt
  split
  · next h => subst h; rw [lookup_removeAt]; split <;> simp
  · rw [lookup_insertAt]; split <;> simp

/-- An entry of a table read by its key, where the keys rise. -/
theorem lookup_map (t : List (Nat × α)) (f : α → α) (n : Nat) :
    lookup (t.map fun e => (e.1, f e.2)) n = (lookup t n).map f := by
  induction t with
  | nil => rfl
  | cons e t ih => obtain ⟨k, v⟩ := e; simp only [List.map_cons, lookup]; split <;> simp_all

theorem mem_of_lookup {t : List (Nat × α)} {n : Nat} {a : α} (h : lookup t n = some a) : (n, a) ∈ t := by
  induction t with
  | nil => cases h
  | cons e t ih =>
    obtain ⟨k, v⟩ := e
    simp only [lookup] at h
    split at h
    · next hk => subst hk; cases h; simp
    · exact List.mem_cons_of_mem _ (ih h)

theorem mem_keys_of_lookup {t : List (Nat × α)} {n : Nat} {a : α} (h : lookup t n = some a) : n ∈ keys t :=
  List.mem_map.2 ⟨_, mem_of_lookup h, rfl⟩

/-! ## Rising keys -/

/-- Rising keys as a relation between the entries. -/
theorem risingKeys_iff (t : List (Nat × α)) : risingKeys t = true ↔ t.Pairwise fun a b => a.1 < b.1 := by
  induction t with
  | nil => simp [risingKeys]
  | cons e t ih =>
    obtain ⟨k, v⟩ := e
    cases t with
    | nil => simp [risingKeys]
    | cons e' t' =>
      obtain ⟨l, w⟩ := e'
      simp only [risingKeys, Bool.and_eq_true, decide_eq_true_eq, ih, List.pairwise_cons] at *
      constructor
      · rintro ⟨hkl, hl, ht⟩
        refine ⟨?_, hl, ht⟩
        intro x hx
        rcases List.mem_cons.1 hx with rfl | hx
        · exact hkl
        · exact lt_trans hkl (hl x hx)
      · rintro ⟨hk, hl, ht⟩
        exact ⟨hk (l, w) (by simp), hl, ht⟩

theorem mem_insertAt {t : List (Nat × α)} {n : Nat} {a : α} {e : Nat × α} (h : e ∈ insertAt t n a) :
    e = (n, a) ∨ e ∈ t := by
  induction t with
  | nil => simp [insertAt] at h; exact Or.inl h
  | cons x t ih =>
    obtain ⟨k, v⟩ := x
    simp only [insertAt] at h
    split at h
    · simpa using h
    · split at h
      · rcases List.mem_cons.1 h with h | h
        · exact Or.inl h
        · exact Or.inr (List.mem_cons_of_mem _ h)
      · rcases List.mem_cons.1 h with h | h
        · exact Or.inr (h ▸ List.mem_cons_self ..)
        · rcases ih h with h | h
          · exact Or.inl h
          · exact Or.inr (List.mem_cons_of_mem _ h)

/-- A write keeps the keys rising. -/
theorem risingKeys_insertAt {t : List (Nat × α)} (h : risingKeys t = true) (n : Nat) (a : α) :
    risingKeys (insertAt t n a) = true := by
  rw [risingKeys_iff] at *
  induction t with
  | nil => simp [insertAt]
  | cons e t ih =>
    obtain ⟨k, v⟩ := e
    rw [List.pairwise_cons] at h
    simp only [insertAt]
    split
    · next hn =>
      refine List.pairwise_cons.2 ⟨?_, List.pairwise_cons.2 h⟩
      intro x hx
      rcases List.mem_cons.1 hx with rfl | hx
      · exact hn
      · exact lt_trans hn (h.1 x hx)
    · split
      · next hk => subst hk; exact List.pairwise_cons.2 h
      · next hn hk =>
        refine List.pairwise_cons.2 ⟨?_, ih h.2⟩
        intro x hx
        rcases mem_insertAt hx with rfl | hx
        · exact lt_of_le_of_ne (not_lt.1 hn) hk
        · exact h.1 x hx

/-- A removal keeps the keys rising. -/
theorem risingKeys_removeAt {t : List (Nat × α)} (h : risingKeys t = true) (n : Nat) :
    risingKeys (removeAt t n) = true := by
  rw [risingKeys_iff] at *
  exact h.filter _

theorem risingKeys_writeAt [DecidableEq α] {t : List (Nat × α)} (h : risingKeys t = true) (d : α) (n : Nat) (a : α) :
    risingKeys (writeAt d t n a) = true := by
  unfold writeAt
  split
  · exact risingKeys_removeAt h n
  · exact risingKeys_insertAt h n a

/-- Where the keys rise, every listed entry is the one its key reads. -/
theorem lookup_of_mem {t : List (Nat × α)} (h : risingKeys t = true) {n : Nat} {a : α} (hm : (n, a) ∈ t) :
    lookup t n = some a := by
  rw [risingKeys_iff] at h
  induction t with
  | nil => cases hm
  | cons e t ih =>
    obtain ⟨k, v⟩ := e
    rw [List.pairwise_cons] at h
    rcases List.mem_cons.1 hm with hm | hm
    · cases hm; simp [lookup]
    · have := h.1 _ hm
      simp only [lookup]
      rw [if_neg (by simp at this; omega)]
      exact ih h.2 hm

/-! ## Accessors -/

theorem dynOf_setDyn (s : State) (p q : Nat) (d : PointDyn) :
    (s.setDyn p d).dynOf q = if q = p then d else s.dynOf q := getD_writeAt ..

theorem area_modArea (s : State) (a b : Nat) (f : Area → Area) :
    (s.modArea a f).area b = if b = a then f (s.area a) else s.area b := getD_writeAt ..

@[simp] theorem area_modArea_self (s : State) (a : Nat) (f : Area → Area) :
    (s.modArea a f).area a = f (s.area a) := by simp [area_modArea]

theorem area_modArea_of_ne (s : State) {a b : Nat} (h : b ≠ a) (f : Area → Area) :
    (s.modArea a f).area b = s.area b := by simp [area_modArea, h]

theorem lookup_modConsole (s : State) (a b : Nat) (f : Console → Console) :
    lookup (s.modConsole a f).consoles b = if b = a then (lookup s.consoles a).map f else lookup s.consoles b := by
  unfold State.modConsole
  split
  · next c h => simp only [lookup_insertAt, h]; split <;> rfl
  · next h => split
              · next hb => subst hb; rw [h]; rfl
              · rfl

theorem lookup_modController (s : State) (a b : Nat) (f : Controller → Controller) :
    lookup (s.modController a f).controllers b
      = if b = a then (lookup s.controllers a).map f else lookup s.controllers b := by
  unfold State.modController
  split
  · next c h => simp only [lookup_insertAt, h]; split <;> rfl
  · next h => split
              · next hb => subst hb; rw [h]; rfl
              · rfl

@[simp] theorem modConsole_modConsole (s : State) (a : Nat) (f g : Console → Console) :
    (s.modConsole a f).modConsole a g = s.modConsole a fun c => g (f c) := by
  cases h : lookup s.consoles a with
  | none => simp [State.modConsole, h]
  | some c => simp [State.modConsole, h]

@[simp] theorem port_modPort_self (s : State) (p : PortId) (f : Port → Port) :
    (s.modPort p f).port p = f (s.port p) := by cases p <;> rfl

@[simp] theorem port_modPort_other (s : State) (p : PortId) (f : Port → Port) :
    (s.modPort p f).port (otherPort p) = s.port (otherPort p) := by cases p <;> rfl

@[simp] theorem modPort_plant_plant (s : State) (f : Port → Port) : (s.modPort .plant f).plant = f s.plant := rfl
@[simp] theorem modPort_plant_console (s : State) (f : Port → Port) : (s.modPort .plant f).console = s.console := rfl
@[simp] theorem modPort_console_console (s : State) (f : Port → Port) :
    (s.modPort .console f).console = f s.console := rfl
@[simp] theorem modPort_console_plant (s : State) (f : Port → Port) : (s.modPort .console f).plant = s.plant := rfl

end Sys2Proof.Machine
end

