-- ==== Sys2Proof/Laws/Frames.lean ====
section
/-! SUPPORT. Frames: for each shared operation that sends, latches, notifies or sounds a horn, one equation that names the
fields it may change; every other field is as before. -/

namespace Sys2Proof.Machine

/-! ## Sending and latching (R174, R191): the ports, the latched flags and the STAT number -/

theorem sendStats_frame (f : StatusFlag) (l : List Nat) (s : State) :
    (sendStats f l s).1 = { s with plant := (sendStats f l s).1.plant } := by
  induction l generalizing s with
  | nil => rfl
  | cons a l ih => simp only [sendStats]; rw [ih]; rfl

theorem latchOnce_frame (f : StatusFlag) (s : State) :
    (latchOnce f s).1 = { s with
      plant := (latchOnce f s).1.plant, latched := (latchOnce f s).1.latched
      statSeq := (latchOnce f s).1.statSeq, statSent := (latchOnce f s).1.statSent } := by
  unfold latchOnce State.takeStatNumber
  split
  · rfl
  · dsimp only
    split
    · rw [sendStats_frame]; split <;> rfl
    · rfl

/-- Latching a flag changes the plant port, the latched values and the STAT number alone. -/
theorem latch_frame (s : State) (f : StatusFlag) :
    s.latch f = { s with
      plant := (s.latch f).plant, latched := (s.latch f).latched
      statSeq := (s.latch f).statSeq, statSent := (s.latch f).statSent } := by
  unfold State.latch
  dsimp only
  split
  · rw [latchOnce_frame, latchOnce_frame f]
  · rw [latchOnce_frame]

/-- A generated telegram changes its port, and where it is dropped the flags and their STATs. -/
theorem sendEntry_frame (s : State) (p : PortId) (e : OwnEntry) :
    s.sendEntry p e = { s with
      plant := (s.sendEntry p e).plant, console := (s.sendEntry p e).console, latched := (s.sendEntry p e).latched
      statSeq := (s.sendEntry p e).statSeq, statSent := (s.sendEntry p e).statSent } := by
  unfold State.sendEntry
  split
  · cases p <;> rfl
  · rw [latch_frame]

/-! ## Notices and horns (R78, R101): the consoles alone -/

theorem modConsole_frame (s : State) (a : Nat) (f : Console → Console) :
    s.modConsole a f = { s with consoles := (s.modConsole a f).consoles } := by
  unfold State.modConsole; split <;> rfl

theorem notify_frame (s : State) (a : Nat) (n : Notice) :
    s.notify a n = { s with consoles := (s.notify a n).consoles } := modConsole_frame ..

theorem notifyEach_frame (l : List Nat) (n : Notice) (s : State) :
    s.notifyEach l n = { s with consoles := (s.notifyEach l n).consoles } := by
  unfold State.notifyEach
  induction l generalizing s with
  | nil => rfl
  | cons a l ih => rw [List.foldl_cons, ih, notify_frame]

theorem setHorn_frame (s : State) (a : Nat) (h : Horn) :
    s.setHorn a h = { s with consoles := (s.setHorn a h).consoles } := by
  unfold State.setHorn
  split
  · split
    · rfl
    · rw [notify_frame, modConsole_frame]
  · rfl

theorem hornStep2_frame (s : State) (a : Nat) :
    s.hornStep2 a = { s with consoles := (s.hornStep2 a).consoles } := by
  unfold State.hornStep2
  split
  · split
    · rw [setHorn_frame]
    · rfl
  · rfl

theorem hornStep_frame (b : State) (cs : List SlotChange) (s : State) (a : Nat) :
    hornStep b cs s a = { s with consoles := (hornStep b cs s a).consoles } := by
  unfold hornStep
  split
  · split
    · rw [setHorn_frame]
    · rw [hornStep2_frame]
  · rfl

theorem evaluateHorns_frame (b : State) (cs : List SlotChange) (s : State) :
    evaluateHorns b cs s = { s with consoles := (evaluateHorns b cs s).consoles } := by
  unfold evaluateHorns
  generalize s.attachedConsoles = l
  induction l generalizing s with
  | nil => rfl
  | cons a l ih => rw [List.foldl_cons, ih, hornStep_frame]

theorem queueNewAlarms_frame (cs : List SlotChange) (s : State) :
    queueNewAlarms cs s = { s with consoles := (queueNewAlarms cs s).consoles } := by
  unfold queueNewAlarms
  suffices h : ∀ (l : List Nat) (t : State) (g : State → Nat → State),
      (∀ t a, g t a = { t with consoles := (g t a).consoles }) →
        l.foldl g t = { t with consoles := (l.foldl g t).consoles } by
    apply h
    intro t a
    split
    · rfl
    · unfold State.notifyArea; rw [notifyEach_frame]
  intro l
  induction l with
  | nil => intro t g _; rfl
  | cons a l ih => intro t g hg; rw [List.foldl_cons, ih _ _ hg, hg]

/-! ## Reports (R63): the sending fields, the AREP number and the high mark -/

theorem report_frame (s : State) (r : Report) :
    s.report r = { s with
      arepSeq := wrapUp s.arepSeq, time := { s.time with high := s.stamp }
      plant := (s.report r).plant, console := (s.report r).console, latched := (s.report r).latched
      statSeq := (s.report r).statSeq, statSent := (s.report r).statSent } := by
  unfold State.report State.send
  dsimp only
  rw [sendEntry_frame]
  rfl

/-! ## Handing on (R15, R16): generations, review lists, notices and horns -/

theorem engineEvent_frame (cs : List SlotChange) (xs : List ShelfEvent) (s : State) :
    engineEvent cs xs s = { s with
      records := (engineEvent cs xs s).records, consoles := (engineEvent cs xs s).consoles } := by
  unfold engineEvent
  suffices h : ∀ (l : List Handover) (t : State) (g : State → Handover → State),
      (∀ t h, g t h = { t with records := (g t h).records, consoles := (g t h).consoles }) →
        l.foldl g t = { t with records := (l.foldl g t).records, consoles := (l.foldl g t).consoles } by
    apply h
    intro t h
    dsimp only
    split
    · unfold State.noteHandover; rw [notify_frame]; rfl
    · rfl
  intro l
  induction l with
  | nil => intro t g _; rfl
  | cons a l ih => intro t g hg; rw [List.foldl_cons, ih _ _ hg, hg]

theorem advanceGenerations_frame (l : List Nat) (s : State) :
    advanceGenerations l s = { s with
      areas := (advanceGenerations l s).areas, request := (advanceGenerations l s).request } := by
  have h : ∀ (l : List Nat) (t : State) (f : Area → Area),
      l.foldl (fun acc a => acc.modArea a f) t
        = { t with areas := (l.foldl (fun acc a => acc.modArea a f) t).areas } := by
    intro l
    induction l with
    | nil => intro t f; rfl
    | cons a l ih => intro t f; rw [List.foldl_cons, ih]; rfl
  unfold advanceGenerations
  dsimp only
  rw [h]

/-- The open MREQ, if any, remembers which generations have advanced in it. -/
theorem advanceGenerations_request (l : List Nat) (s : State) :
    (advanceGenerations l s).request = s.request.map fun r =>
      { r with moved := r.moved ++ l.filter fun a => !s.movedAreas.contains a } := by
  have h : ∀ (l : List Nat) (t : State) (f : Area → Area),
      (l.foldl (fun acc a => acc.modArea a f) t).request = t.request := by
    intro l
    induction l with
    | nil => intro t f; rfl
    | cons a l ih => intro t f; rw [List.foldl_cons, ih]; rfl
  unfold advanceGenerations
  dsimp only
  rw [h]

/-- Outside an MREQ every named area's generation advances. -/
theorem advanceGenerations_of_none (l : List Nat) (s : State) (h : s.request = none) :
    advanceGenerations l s
      = l.foldl (fun acc a => acc.modArea a fun r => { r with generation := wrapUp r.generation }) s := by
  have hr : ∀ (l : List Nat) (t : State) (f : Area → Area), t.request = none →
      ({ l.foldl (fun acc a => acc.modArea a f) t with request := none } : State)
        = l.foldl (fun acc a => acc.modArea a f) t := by
    intro l
    induction l with
    | nil => intro t f ht; rw [← ht]; rfl
    | cons a l ih => intro t f ht; exact ih _ f ht
  have hn : ∀ (l : List Nat) (t : State) (f : Area → Area),
      (l.foldl (fun acc a => acc.modArea a f) t).request = t.request := by
    intro l
    induction l with
    | nil => intro t f; rfl
    | cons a l ih => intro t f; rw [List.foldl_cons, ih]; rfl
  have hf : (l.filter fun a => !s.movedAreas.contains a) = l := by simp [State.movedAreas, h]
  unfold advanceGenerations
  dsimp only
  rw [hf, hn, h]
  exact hr l s _ h

/-- Handing on changes generations, review lists, notices and horns alone, and what the open MREQ remembers of the
generations. -/
theorem handOn_frame (b : State) (e : Ev) (xs : List ShelfEvent) :
    handOn b e xs = { e.s with
      areas := (handOn b e xs).areas, records := (handOn b e xs).records, consoles := (handOn b e xs).consoles
      request := (handOn b e xs).request } := by
  unfold handOn
  dsimp only
  split
  · rw [engineEvent_frame, advanceGenerations_frame]
  · rw [evaluateHorns_frame, queueNewAlarms_frame, engineEvent_frame, advanceGenerations_frame]

/-- The open MREQ after handing on. -/
theorem handOn_request (b : State) (e : Ev) (xs : List ShelfEvent) :
    (handOn b e xs).request = e.s.request.map fun r =>
      { r with moved := r.moved ++ (namedAreas e.changes).filter fun a => !e.s.movedAreas.contains a } := by
  rw [← advanceGenerations_request]
  unfold handOn
  dsimp only
  split
  · rw [engineEvent_frame]
  · rw [evaluateHorns_frame, queueNewAlarms_frame, engineEvent_frame]

end Sys2Proof.Machine
end

