-- ==== Sys2Proof/Laws/Fields.lean ====
section
/-! SUPPORT. The frames of Sys2Proof/Laws/Frames.lean field by field, for rewriting: each field that a shared operation
leaves as it was. -/

namespace Sys2Proof.Machine

/-! ## latch -/

@[simp] theorem State.latch_tables (s : State) (f : StatusFlag) : (s.latch f).tables = s.tables :=
  (congrArg State.tables (latch_frame s f) :)
@[simp] theorem State.latch_memory (s : State) (f : StatusFlag) : (s.latch f).memory = s.memory :=
  (congrArg State.memory (latch_frame s f) :)
@[simp] theorem State.latch_retained (s : State) (f : StatusFlag) : (s.latch f).retained = s.retained :=
  (congrArg State.retained (latch_frame s f) :)
@[simp] theorem State.latch_dyn (s : State) (f : StatusFlag) : (s.latch f).dyn = s.dyn :=
  (congrArg State.dyn (latch_frame s f) :)
@[simp] theorem State.latch_slots (s : State) (f : StatusFlag) : (s.latch f).slots = s.slots :=
  (congrArg State.slots (latch_frame s f) :)
@[simp] theorem State.latch_queue (s : State) (f : StatusFlag) : (s.latch f).queue = s.queue :=
  (congrArg State.queue (latch_frame s f) :)
@[simp] theorem State.latch_shelf (s : State) (f : StatusFlag) : (s.latch f).shelf = s.shelf :=
  (congrArg State.shelf (latch_frame s f) :)
@[simp] theorem State.latch_areas (s : State) (f : StatusFlag) : (s.latch f).areas = s.areas :=
  (congrArg State.areas (latch_frame s f) :)
@[simp] theorem State.latch_consoles (s : State) (f : StatusFlag) : (s.latch f).consoles = s.consoles :=
  (congrArg State.consoles (latch_frame s f) :)
@[simp] theorem State.latch_turn (s : State) (f : StatusFlag) : (s.latch f).turn = s.turn :=
  (congrArg State.turn (latch_frame s f) :)
@[simp] theorem State.latch_controllers (s : State) (f : StatusFlag) : (s.latch f).controllers = s.controllers :=
  (congrArg State.controllers (latch_frame s f) :)
@[simp] theorem State.latch_commands (s : State) (f : StatusFlag) : (s.latch f).commands = s.commands :=
  (congrArg State.commands (latch_frame s f) :)
@[simp] theorem State.latch_tagCounter (s : State) (f : StatusFlag) : (s.latch f).tagCounter = s.tagCounter :=
  (congrArg State.tagCounter (latch_frame s f) :)
@[simp] theorem State.latch_records (s : State) (f : StatusFlag) : (s.latch f).records = s.records :=
  (congrArg State.records (latch_frame s f) :)
@[simp] theorem State.latch_arepSeq (s : State) (f : StatusFlag) : (s.latch f).arepSeq = s.arepSeq :=
  (congrArg State.arepSeq (latch_frame s f) :)
@[simp] theorem State.latch_time (s : State) (f : StatusFlag) : (s.latch f).time = s.time :=
  (congrArg State.time (latch_frame s f) :)
@[simp] theorem State.latch_console (s : State) (f : StatusFlag) : (s.latch f).console = s.console :=
  (congrArg State.console (latch_frame s f) :)
@[simp] theorem State.latch_request (s : State) (f : StatusFlag) : (s.latch f).request = s.request :=
  (congrArg State.request (latch_frame s f) :)
@[simp] theorem State.latch_store (s : State) (f : StatusFlag) : (s.latch f).store = s.store :=
  (congrArg State.store (latch_frame s f) :)
@[simp] theorem State.latch_heldMreps (s : State) (f : StatusFlag) : (s.latch f).heldMreps = s.heldMreps :=
  (congrArg State.heldMreps (latch_frame s f) :)
@[simp] theorem State.latch_resetWaits (s : State) (f : StatusFlag) : (s.latch f).resetWaits = s.resetWaits :=
  (congrArg State.resetWaits (latch_frame s f) :)
@[simp] theorem State.latch_owed (s : State) (f : StatusFlag) : (s.latch f).owed = s.owed :=
  (congrArg State.owed (latch_frame s f) :)
@[simp] theorem State.latch_freeCount (s : State) (f : StatusFlag) : (s.latch f).freeCount = s.freeCount :=
  (congrArg State.freeCount (latch_frame s f) :)
@[simp] theorem State.latch_pending (s : State) (f : StatusFlag) : (s.latch f).pending = s.pending :=
  (congrArg State.pending (latch_frame s f) :)

/-! ## sendEntry -/

@[simp] theorem State.sendEntry_tables (s : State) (p : PortId) (e : OwnEntry) : (s.sendEntry p e).tables = s.tables :=
  (congrArg State.tables (sendEntry_frame s p e) :)
@[simp] theorem State.sendEntry_memory (s : State) (p : PortId) (e : OwnEntry) : (s.sendEntry p e).memory = s.memory :=
  (congrArg State.memory (sendEntry_frame s p e) :)
@[simp] theorem State.sendEntry_retained (s : State) (p : PortId) (e : OwnEntry) : (s.sendEntry p e).retained = s.retained :=
  (congrArg State.retained (sendEntry_frame s p e) :)
@[simp] theorem State.sendEntry_dyn (s : State) (p : PortId) (e : OwnEntry) : (s.sendEntry p e).dyn = s.dyn :=
  (congrArg State.dyn (sendEntry_frame s p e) :)
@[simp] theorem State.sendEntry_slots (s : State) (p : PortId) (e : OwnEntry) : (s.sendEntry p e).slots = s.slots :=
  (congrArg State.slots (sendEntry_frame s p e) :)
@[simp] theorem State.sendEntry_queue (s : State) (p : PortId) (e : OwnEntry) : (s.sendEntry p e).queue = s.queue :=
  (congrArg State.queue (sendEntry_frame s p e) :)
@[simp] theorem State.sendEntry_shelf (s : State) (p : PortId) (e : OwnEntry) : (s.sendEntry p e).shelf = s.shelf :=
  (congrArg State.shelf (sendEntry_frame s p e) :)
@[simp] theorem State.sendEntry_areas (s : State) (p : PortId) (e : OwnEntry) : (s.sendEntry p e).areas = s.areas :=
  (congrArg State.areas (sendEntry_frame s p e) :)
@[simp] theorem State.sendEntry_consoles (s : State) (p : PortId) (e : OwnEntry) : (s.sendEntry p e).consoles = s.consoles :=
  (congrArg State.consoles (sendEntry_frame s p e) :)
@[simp] theorem State.sendEntry_turn (s : State) (p : PortId) (e : OwnEntry) : (s.sendEntry p e).turn = s.turn :=
  (congrArg State.turn (sendEntry_frame s p e) :)
@[simp] theorem State.sendEntry_controllers (s : State) (p : PortId) (e : OwnEntry) : (s.sendEntry p e).controllers = s.controllers :=
  (congrArg State.controllers (sendEntry_frame s p e) :)
@[simp] theorem State.sendEntry_commands (s : State) (p : PortId) (e : OwnEntry) : (s.sendEntry p e).commands = s.commands :=
  (congrArg State.commands (sendEntry_frame s p e) :)
@[simp] theorem State.sendEntry_tagCounter (s : State) (p : PortId) (e : OwnEntry) : (s.sendEntry p e).tagCounter = s.tagCounter :=
  (congrArg State.tagCounter (sendEntry_frame s p e) :)
@[simp] theorem State.sendEntry_records (s : State) (p : PortId) (e : OwnEntry) : (s.sendEntry p e).records = s.records :=
  (congrArg State.records (sendEntry_frame s p e) :)
@[simp] theorem State.sendEntry_arepSeq (s : State) (p : PortId) (e : OwnEntry) : (s.sendEntry p e).arepSeq = s.arepSeq :=
  (congrArg State.arepSeq (sendEntry_frame s p e) :)
@[simp] theorem State.sendEntry_time (s : State) (p : PortId) (e : OwnEntry) : (s.sendEntry p e).time = s.time :=
  (congrArg State.time (sendEntry_frame s p e) :)
@[simp] theorem State.sendEntry_request (s : State) (p : PortId) (e : OwnEntry) : (s.sendEntry p e).request = s.request :=
  (congrArg State.request (sendEntry_frame s p e) :)
@[simp] theorem State.sendEntry_store (s : State) (p : PortId) (e : OwnEntry) : (s.sendEntry p e).store = s.store :=
  (congrArg State.store (sendEntry_frame s p e) :)
@[simp] theorem State.sendEntry_heldMreps (s : State) (p : PortId) (e : OwnEntry) : (s.sendEntry p e).heldMreps = s.heldMreps :=
  (congrArg State.heldMreps (sendEntry_frame s p e) :)
@[simp] theorem State.sendEntry_resetWaits (s : State) (p : PortId) (e : OwnEntry) : (s.sendEntry p e).resetWaits = s.resetWaits :=
  (congrArg State.resetWaits (sendEntry_frame s p e) :)
@[simp] theorem State.sendEntry_owed (s : State) (p : PortId) (e : OwnEntry) : (s.sendEntry p e).owed = s.owed :=
  (congrArg State.owed (sendEntry_frame s p e) :)
@[simp] theorem State.sendEntry_freeCount (s : State) (p : PortId) (e : OwnEntry) : (s.sendEntry p e).freeCount = s.freeCount :=
  (congrArg State.freeCount (sendEntry_frame s p e) :)
@[simp] theorem State.sendEntry_pending (s : State) (p : PortId) (e : OwnEntry) : (s.sendEntry p e).pending = s.pending :=
  (congrArg State.pending (sendEntry_frame s p e) :)

/-! ## send -/

@[simp] theorem State.send_tables (s : State) (p : PortId) (t : Telegram) : (s.send p t).tables = s.tables :=
  (congrArg State.tables (sendEntry_frame s p ⟨t, false⟩) :)
@[simp] theorem State.send_memory (s : State) (p : PortId) (t : Telegram) : (s.send p t).memory = s.memory :=
  (congrArg State.memory (sendEntry_frame s p ⟨t, false⟩) :)
@[simp] theorem State.send_retained (s : State) (p : PortId) (t : Telegram) : (s.send p t).retained = s.retained :=
  (congrArg State.retained (sendEntry_frame s p ⟨t, false⟩) :)
@[simp] theorem State.send_dyn (s : State) (p : PortId) (t : Telegram) : (s.send p t).dyn = s.dyn :=
  (congrArg State.dyn (sendEntry_frame s p ⟨t, false⟩) :)
@[simp] theorem State.send_slots (s : State) (p : PortId) (t : Telegram) : (s.send p t).slots = s.slots :=
  (congrArg State.slots (sendEntry_frame s p ⟨t, false⟩) :)
@[simp] theorem State.send_queue (s : State) (p : PortId) (t : Telegram) : (s.send p t).queue = s.queue :=
  (congrArg State.queue (sendEntry_frame s p ⟨t, false⟩) :)
@[simp] theorem State.send_shelf (s : State) (p : PortId) (t : Telegram) : (s.send p t).shelf = s.shelf :=
  (congrArg State.shelf (sendEntry_frame s p ⟨t, false⟩) :)
@[simp] theorem State.send_areas (s : State) (p : PortId) (t : Telegram) : (s.send p t).areas = s.areas :=
  (congrArg State.areas (sendEntry_frame s p ⟨t, false⟩) :)
@[simp] theorem State.send_consoles (s : State) (p : PortId) (t : Telegram) : (s.send p t).consoles = s.consoles :=
  (congrArg State.consoles (sendEntry_frame s p ⟨t, false⟩) :)
@[simp] theorem State.send_turn (s : State) (p : PortId) (t : Telegram) : (s.send p t).turn = s.turn :=
  (congrArg State.turn (sendEntry_frame s p ⟨t, false⟩) :)
@[simp] theorem State.send_controllers (s : State) (p : PortId) (t : Telegram) : (s.send p t).controllers = s.controllers :=
  (congrArg State.controllers (sendEntry_frame s p ⟨t, false⟩) :)
@[simp] theorem State.send_commands (s : State) (p : PortId) (t : Telegram) : (s.send p t).commands = s.commands :=
  (congrArg State.commands (sendEntry_frame s p ⟨t, false⟩) :)
@[simp] theorem State.send_tagCounter (s : State) (p : PortId) (t : Telegram) : (s.send p t).tagCounter = s.tagCounter :=
  (congrArg State.tagCounter (sendEntry_frame s p ⟨t, false⟩) :)
@[simp] theorem State.send_records (s : State) (p : PortId) (t : Telegram) : (s.send p t).records = s.records :=
  (congrArg State.records (sendEntry_frame s p ⟨t, false⟩) :)
@[simp] theorem State.send_arepSeq (s : State) (p : PortId) (t : Telegram) : (s.send p t).arepSeq = s.arepSeq :=
  (congrArg State.arepSeq (sendEntry_frame s p ⟨t, false⟩) :)
@[simp] theorem State.send_time (s : State) (p : PortId) (t : Telegram) : (s.send p t).time = s.time :=
  (congrArg State.time (sendEntry_frame s p ⟨t, false⟩) :)
@[simp] theorem State.send_request (s : State) (p : PortId) (t : Telegram) : (s.send p t).request = s.request :=
  (congrArg State.request (sendEntry_frame s p ⟨t, false⟩) :)
@[simp] theorem State.send_store (s : State) (p : PortId) (t : Telegram) : (s.send p t).store = s.store :=
  (congrArg State.store (sendEntry_frame s p ⟨t, false⟩) :)
@[simp] theorem State.send_heldMreps (s : State) (p : PortId) (t : Telegram) : (s.send p t).heldMreps = s.heldMreps :=
  (congrArg State.heldMreps (sendEntry_frame s p ⟨t, false⟩) :)
@[simp] theorem State.send_resetWaits (s : State) (p : PortId) (t : Telegram) : (s.send p t).resetWaits = s.resetWaits :=
  (congrArg State.resetWaits (sendEntry_frame s p ⟨t, false⟩) :)
@[simp] theorem State.send_owed (s : State) (p : PortId) (t : Telegram) : (s.send p t).owed = s.owed :=
  (congrArg State.owed (sendEntry_frame s p ⟨t, false⟩) :)
@[simp] theorem State.send_freeCount (s : State) (p : PortId) (t : Telegram) : (s.send p t).freeCount = s.freeCount :=
  (congrArg State.freeCount (sendEntry_frame s p ⟨t, false⟩) :)
@[simp] theorem State.send_pending (s : State) (p : PortId) (t : Telegram) : (s.send p t).pending = s.pending :=
  (congrArg State.pending (sendEntry_frame s p ⟨t, false⟩) :)

/-! ## respond -/

@[simp] theorem State.respond_tables (s : State) (a n : Nat) (q : Half) (o : Nat) (r : List Rec) : (s.respond a n q o r).tables = s.tables :=
  (congrArg State.tables (sendEntry_frame s .console _) :)
@[simp] theorem State.respond_memory (s : State) (a n : Nat) (q : Half) (o : Nat) (r : List Rec) : (s.respond a n q o r).memory = s.memory :=
  (congrArg State.memory (sendEntry_frame s .console _) :)
@[simp] theorem State.respond_retained (s : State) (a n : Nat) (q : Half) (o : Nat) (r : List Rec) : (s.respond a n q o r).retained = s.retained :=
  (congrArg State.retained (sendEntry_frame s .console _) :)
@[simp] theorem State.respond_dyn (s : State) (a n : Nat) (q : Half) (o : Nat) (r : List Rec) : (s.respond a n q o r).dyn = s.dyn :=
  (congrArg State.dyn (sendEntry_frame s .console _) :)
@[simp] theorem State.respond_slots (s : State) (a n : Nat) (q : Half) (o : Nat) (r : List Rec) : (s.respond a n q o r).slots = s.slots :=
  (congrArg State.slots (sendEntry_frame s .console _) :)
@[simp] theorem State.respond_queue (s : State) (a n : Nat) (q : Half) (o : Nat) (r : List Rec) : (s.respond a n q o r).queue = s.queue :=
  (congrArg State.queue (sendEntry_frame s .console _) :)
@[simp] theorem State.respond_shelf (s : State) (a n : Nat) (q : Half) (o : Nat) (r : List Rec) : (s.respond a n q o r).shelf = s.shelf :=
  (congrArg State.shelf (sendEntry_frame s .console _) :)
@[simp] theorem State.respond_areas (s : State) (a n : Nat) (q : Half) (o : Nat) (r : List Rec) : (s.respond a n q o r).areas = s.areas :=
  (congrArg State.areas (sendEntry_frame s .console _) :)
@[simp] theorem State.respond_consoles (s : State) (a n : Nat) (q : Half) (o : Nat) (r : List Rec) : (s.respond a n q o r).consoles = s.consoles :=
  (congrArg State.consoles (sendEntry_frame s .console _) :)
@[simp] theorem State.respond_turn (s : State) (a n : Nat) (q : Half) (o : Nat) (r : List Rec) : (s.respond a n q o r).turn = s.turn :=
  (congrArg State.turn (sendEntry_frame s .console _) :)
@[simp] theorem State.respond_controllers (s : State) (a n : Nat) (q : Half) (o : Nat) (r : List Rec) : (s.respond a n q o r).controllers = s.controllers :=
  (congrArg State.controllers (sendEntry_frame s .console _) :)
@[simp] theorem State.respond_commands (s : State) (a n : Nat) (q : Half) (o : Nat) (r : List Rec) : (s.respond a n q o r).commands = s.commands :=
  (congrArg State.commands (sendEntry_frame s .console _) :)
@[simp] theorem State.respond_tagCounter (s : State) (a n : Nat) (q : Half) (o : Nat) (r : List Rec) : (s.respond a n q o r).tagCounter = s.tagCounter :=
  (congrArg State.tagCounter (sendEntry_frame s .console _) :)
@[simp] theorem State.respond_records (s : State) (a n : Nat) (q : Half) (o : Nat) (r : List Rec) : (s.respond a n q o r).records = s.records :=
  (congrArg State.records (sendEntry_frame s .console _) :)
@[simp] theorem State.respond_arepSeq (s : State) (a n : Nat) (q : Half) (o : Nat) (r : List Rec) : (s.respond a n q o r).arepSeq = s.arepSeq :=
  (congrArg State.arepSeq (sendEntry_frame s .console _) :)
@[simp] theorem State.respond_time (s : State) (a n : Nat) (q : Half) (o : Nat) (r : List Rec) : (s.respond a n q o r).time = s.time :=
  (congrArg State.time (sendEntry_frame s .console _) :)
@[simp] theorem State.respond_request (s : State) (a n : Nat) (q : Half) (o : Nat) (r : List Rec) : (s.respond a n q o r).request = s.request :=
  (congrArg State.request (sendEntry_frame s .console _) :)
@[simp] theorem State.respond_store (s : State) (a n : Nat) (q : Half) (o : Nat) (r : List Rec) : (s.respond a n q o r).store = s.store :=
  (congrArg State.store (sendEntry_frame s .console _) :)
@[simp] theorem State.respond_heldMreps (s : State) (a n : Nat) (q : Half) (o : Nat) (r : List Rec) : (s.respond a n q o r).heldMreps = s.heldMreps :=
  (congrArg State.heldMreps (sendEntry_frame s .console _) :)
@[simp] theorem State.respond_resetWaits (s : State) (a n : Nat) (q : Half) (o : Nat) (r : List Rec) : (s.respond a n q o r).resetWaits = s.resetWaits :=
  (congrArg State.resetWaits (sendEntry_frame s .console _) :)
@[simp] theorem State.respond_owed (s : State) (a n : Nat) (q : Half) (o : Nat) (r : List Rec) : (s.respond a n q o r).owed = s.owed :=
  (congrArg State.owed (sendEntry_frame s .console _) :)
@[simp] theorem State.respond_freeCount (s : State) (a n : Nat) (q : Half) (o : Nat) (r : List Rec) : (s.respond a n q o r).freeCount = s.freeCount :=
  (congrArg State.freeCount (sendEntry_frame s .console _) :)
@[simp] theorem State.respond_pending (s : State) (a n : Nat) (q : Half) (o : Nat) (r : List Rec) : (s.respond a n q o r).pending = s.pending :=
  (congrArg State.pending (sendEntry_frame s .console _) :)

/-! ## answer -/

@[simp] theorem State.answer_tables (s : State) (f : Frame) (o : Nat) (r : Result) (d : List Rec) : (s.answer f o r d).tables = s.tables :=
  (congrArg State.tables (sendEntry_frame s .console _) :)
@[simp] theorem State.answer_memory (s : State) (f : Frame) (o : Nat) (r : Result) (d : List Rec) : (s.answer f o r d).memory = s.memory :=
  (congrArg State.memory (sendEntry_frame s .console _) :)
@[simp] theorem State.answer_retained (s : State) (f : Frame) (o : Nat) (r : Result) (d : List Rec) : (s.answer f o r d).retained = s.retained :=
  (congrArg State.retained (sendEntry_frame s .console _) :)
@[simp] theorem State.answer_dyn (s : State) (f : Frame) (o : Nat) (r : Result) (d : List Rec) : (s.answer f o r d).dyn = s.dyn :=
  (congrArg State.dyn (sendEntry_frame s .console _) :)
@[simp] theorem State.answer_slots (s : State) (f : Frame) (o : Nat) (r : Result) (d : List Rec) : (s.answer f o r d).slots = s.slots :=
  (congrArg State.slots (sendEntry_frame s .console _) :)
@[simp] theorem State.answer_queue (s : State) (f : Frame) (o : Nat) (r : Result) (d : List Rec) : (s.answer f o r d).queue = s.queue :=
  (congrArg State.queue (sendEntry_frame s .console _) :)
@[simp] theorem State.answer_shelf (s : State) (f : Frame) (o : Nat) (r : Result) (d : List Rec) : (s.answer f o r d).shelf = s.shelf :=
  (congrArg State.shelf (sendEntry_frame s .console _) :)
@[simp] theorem State.answer_areas (s : State) (f : Frame) (o : Nat) (r : Result) (d : List Rec) : (s.answer f o r d).areas = s.areas :=
  (congrArg State.areas (sendEntry_frame s .console _) :)
@[simp] theorem State.answer_consoles (s : State) (f : Frame) (o : Nat) (r : Result) (d : List Rec) : (s.answer f o r d).consoles = s.consoles :=
  (congrArg State.consoles (sendEntry_frame s .console _) :)
@[simp] theorem State.answer_turn (s : State) (f : Frame) (o : Nat) (r : Result) (d : List Rec) : (s.answer f o r d).turn = s.turn :=
  (congrArg State.turn (sendEntry_frame s .console _) :)
@[simp] theorem State.answer_controllers (s : State) (f : Frame) (o : Nat) (r : Result) (d : List Rec) : (s.answer f o r d).controllers = s.controllers :=
  (congrArg State.controllers (sendEntry_frame s .console _) :)
@[simp] theorem State.answer_commands (s : State) (f : Frame) (o : Nat) (r : Result) (d : List Rec) : (s.answer f o r d).commands = s.commands :=
  (congrArg State.commands (sendEntry_frame s .console _) :)
@[simp] theorem State.answer_tagCounter (s : State) (f : Frame) (o : Nat) (r : Result) (d : List Rec) : (s.answer f o r d).tagCounter = s.tagCounter :=
  (congrArg State.tagCounter (sendEntry_frame s .console _) :)
@[simp] theorem State.answer_records (s : State) (f : Frame) (o : Nat) (r : Result) (d : List Rec) : (s.answer f o r d).records = s.records :=
  (congrArg State.records (sendEntry_frame s .console _) :)
@[simp] theorem State.answer_arepSeq (s : State) (f : Frame) (o : Nat) (r : Result) (d : List Rec) : (s.answer f o r d).arepSeq = s.arepSeq :=
  (congrArg State.arepSeq (sendEntry_frame s .console _) :)
@[simp] theorem State.answer_time (s : State) (f : Frame) (o : Nat) (r : Result) (d : List Rec) : (s.answer f o r d).time = s.time :=
  (congrArg State.time (sendEntry_frame s .console _) :)
@[simp] theorem State.answer_request (s : State) (f : Frame) (o : Nat) (r : Result) (d : List Rec) : (s.answer f o r d).request = s.request :=
  (congrArg State.request (sendEntry_frame s .console _) :)
@[simp] theorem State.answer_store (s : State) (f : Frame) (o : Nat) (r : Result) (d : List Rec) : (s.answer f o r d).store = s.store :=
  (congrArg State.store (sendEntry_frame s .console _) :)
@[simp] theorem State.answer_heldMreps (s : State) (f : Frame) (o : Nat) (r : Result) (d : List Rec) : (s.answer f o r d).heldMreps = s.heldMreps :=
  (congrArg State.heldMreps (sendEntry_frame s .console _) :)
@[simp] theorem State.answer_resetWaits (s : State) (f : Frame) (o : Nat) (r : Result) (d : List Rec) : (s.answer f o r d).resetWaits = s.resetWaits :=
  (congrArg State.resetWaits (sendEntry_frame s .console _) :)
@[simp] theorem State.answer_owed (s : State) (f : Frame) (o : Nat) (r : Result) (d : List Rec) : (s.answer f o r d).owed = s.owed :=
  (congrArg State.owed (sendEntry_frame s .console _) :)
@[simp] theorem State.answer_freeCount (s : State) (f : Frame) (o : Nat) (r : Result) (d : List Rec) : (s.answer f o r d).freeCount = s.freeCount :=
  (congrArg State.freeCount (sendEntry_frame s .console _) :)
@[simp] theorem State.answer_pending (s : State) (f : Frame) (o : Nat) (r : Result) (d : List Rec) : (s.answer f o r d).pending = s.pending :=
  (congrArg State.pending (sendEntry_frame s .console _) :)

/-! ## notify -/

@[simp] theorem State.notify_tables (s : State) (a : Nat) (n : Notice) : (s.notify a n).tables = s.tables :=
  (congrArg State.tables (notify_frame s a n) :)
@[simp] theorem State.notify_memory (s : State) (a : Nat) (n : Notice) : (s.notify a n).memory = s.memory :=
  (congrArg State.memory (notify_frame s a n) :)
@[simp] theorem State.notify_retained (s : State) (a : Nat) (n : Notice) : (s.notify a n).retained = s.retained :=
  (congrArg State.retained (notify_frame s a n) :)
@[simp] theorem State.notify_dyn (s : State) (a : Nat) (n : Notice) : (s.notify a n).dyn = s.dyn :=
  (congrArg State.dyn (notify_frame s a n) :)
@[simp] theorem State.notify_slots (s : State) (a : Nat) (n : Notice) : (s.notify a n).slots = s.slots :=
  (congrArg State.slots (notify_frame s a n) :)
@[simp] theorem State.notify_queue (s : State) (a : Nat) (n : Notice) : (s.notify a n).queue = s.queue :=
  (congrArg State.queue (notify_frame s a n) :)
@[simp] theorem State.notify_shelf (s : State) (a : Nat) (n : Notice) : (s.notify a n).shelf = s.shelf :=
  (congrArg State.shelf (notify_frame s a n) :)
@[simp] theorem State.notify_areas (s : State) (a : Nat) (n : Notice) : (s.notify a n).areas = s.areas :=
  (congrArg State.areas (notify_frame s a n) :)
@[simp] theorem State.notify_turn (s : State) (a : Nat) (n : Notice) : (s.notify a n).turn = s.turn :=
  (congrArg State.turn (notify_frame s a n) :)
@[simp] theorem State.notify_controllers (s : State) (a : Nat) (n : Notice) : (s.notify a n).controllers = s.controllers :=
  (congrArg State.controllers (notify_frame s a n) :)
@[simp] theorem State.notify_commands (s : State) (a : Nat) (n : Notice) : (s.notify a n).commands = s.commands :=
  (congrArg State.commands (notify_frame s a n) :)
@[simp] theorem State.notify_tagCounter (s : State) (a : Nat) (n : Notice) : (s.notify a n).tagCounter = s.tagCounter :=
  (congrArg State.tagCounter (notify_frame s a n) :)
@[simp] theorem State.notify_records (s : State) (a : Nat) (n : Notice) : (s.notify a n).records = s.records :=
  (congrArg State.records (notify_frame s a n) :)
@[simp] theorem State.notify_arepSeq (s : State) (a : Nat) (n : Notice) : (s.notify a n).arepSeq = s.arepSeq :=
  (congrArg State.arepSeq (notify_frame s a n) :)
@[simp] theorem State.notify_time (s : State) (a : Nat) (n : Notice) : (s.notify a n).time = s.time :=
  (congrArg State.time (notify_frame s a n) :)
@[simp] theorem State.notify_plant (s : State) (a : Nat) (n : Notice) : (s.notify a n).plant = s.plant :=
  (congrArg State.plant (notify_frame s a n) :)
@[simp] theorem State.notify_console (s : State) (a : Nat) (n : Notice) : (s.notify a n).console = s.console :=
  (congrArg State.console (notify_frame s a n) :)
@[simp] theorem State.notify_latched (s : State) (a : Nat) (n : Notice) : (s.notify a n).latched = s.latched :=
  (congrArg State.latched (notify_frame s a n) :)
@[simp] theorem State.notify_statSeq (s : State) (a : Nat) (n : Notice) : (s.notify a n).statSeq = s.statSeq :=
  (congrArg State.statSeq (notify_frame s a n) :)
@[simp] theorem State.notify_request (s : State) (a : Nat) (n : Notice) : (s.notify a n).request = s.request :=
  (congrArg State.request (notify_frame s a n) :)
@[simp] theorem State.notify_store (s : State) (a : Nat) (n : Notice) : (s.notify a n).store = s.store :=
  (congrArg State.store (notify_frame s a n) :)
@[simp] theorem State.notify_heldMreps (s : State) (a : Nat) (n : Notice) : (s.notify a n).heldMreps = s.heldMreps :=
  (congrArg State.heldMreps (notify_frame s a n) :)
@[simp] theorem State.notify_resetWaits (s : State) (a : Nat) (n : Notice) : (s.notify a n).resetWaits = s.resetWaits :=
  (congrArg State.resetWaits (notify_frame s a n) :)
@[simp] theorem State.notify_owed (s : State) (a : Nat) (n : Notice) : (s.notify a n).owed = s.owed :=
  (congrArg State.owed (notify_frame s a n) :)
@[simp] theorem State.notify_statSent (s : State) (a : Nat) (n : Notice) : (s.notify a n).statSent = s.statSent :=
  (congrArg State.statSent (notify_frame s a n) :)
@[simp] theorem State.notify_freeCount (s : State) (a : Nat) (n : Notice) : (s.notify a n).freeCount = s.freeCount :=
  (congrArg State.freeCount (notify_frame s a n) :)
@[simp] theorem State.notify_pending (s : State) (a : Nat) (n : Notice) : (s.notify a n).pending = s.pending :=
  (congrArg State.pending (notify_frame s a n) :)

/-! ## notifyEach -/

@[simp] theorem State.notifyEach_tables (s : State) (l : List Nat) (n : Notice) : (s.notifyEach l n).tables = s.tables :=
  (congrArg State.tables (notifyEach_frame l n s) :)
@[simp] theorem State.notifyEach_memory (s : State) (l : List Nat) (n : Notice) : (s.notifyEach l n).memory = s.memory :=
  (congrArg State.memory (notifyEach_frame l n s) :)
@[simp] theorem State.notifyEach_retained (s : State) (l : List Nat) (n : Notice) : (s.notifyEach l n).retained = s.retained :=
  (congrArg State.retained (notifyEach_frame l n s) :)
@[simp] theorem State.notifyEach_dyn (s : State) (l : List Nat) (n : Notice) : (s.notifyEach l n).dyn = s.dyn :=
  (congrArg State.dyn (notifyEach_frame l n s) :)
@[simp] theorem State.notifyEach_slots (s : State) (l : List Nat) (n : Notice) : (s.notifyEach l n).slots = s.slots :=
  (congrArg State.slots (notifyEach_frame l n s) :)
@[simp] theorem State.notifyEach_queue (s : State) (l : List Nat) (n : Notice) : (s.notifyEach l n).queue = s.queue :=
  (congrArg State.queue (notifyEach_frame l n s) :)
@[simp] theorem State.notifyEach_shelf (s : State) (l : List Nat) (n : Notice) : (s.notifyEach l n).shelf = s.shelf :=
  (congrArg State.shelf (notifyEach_frame l n s) :)
@[simp] theorem State.notifyEach_areas (s : State) (l : List Nat) (n : Notice) : (s.notifyEach l n).areas = s.areas :=
  (congrArg State.areas (notifyEach_frame l n s) :)
@[simp] theorem State.notifyEach_turn (s : State) (l : List Nat) (n : Notice) : (s.notifyEach l n).turn = s.turn :=
  (congrArg State.turn (notifyEach_frame l n s) :)
@[simp] theorem State.notifyEach_controllers (s : State) (l : List Nat) (n : Notice) : (s.notifyEach l n).controllers = s.controllers :=
  (congrArg State.controllers (notifyEach_frame l n s) :)
@[simp] theorem State.notifyEach_commands (s : State) (l : List Nat) (n : Notice) : (s.notifyEach l n).commands = s.commands :=
  (congrArg State.commands (notifyEach_frame l n s) :)
@[simp] theorem State.notifyEach_tagCounter (s : State) (l : List Nat) (n : Notice) : (s.notifyEach l n).tagCounter = s.tagCounter :=
  (congrArg State.tagCounter (notifyEach_frame l n s) :)
@[simp] theorem State.notifyEach_records (s : State) (l : List Nat) (n : Notice) : (s.notifyEach l n).records = s.records :=
  (congrArg State.records (notifyEach_frame l n s) :)
@[simp] theorem State.notifyEach_arepSeq (s : State) (l : List Nat) (n : Notice) : (s.notifyEach l n).arepSeq = s.arepSeq :=
  (congrArg State.arepSeq (notifyEach_frame l n s) :)
@[simp] theorem State.notifyEach_time (s : State) (l : List Nat) (n : Notice) : (s.notifyEach l n).time = s.time :=
  (congrArg State.time (notifyEach_frame l n s) :)
@[simp] theorem State.notifyEach_plant (s : State) (l : List Nat) (n : Notice) : (s.notifyEach l n).plant = s.plant :=
  (congrArg State.plant (notifyEach_frame l n s) :)
@[simp] theorem State.notifyEach_console (s : State) (l : List Nat) (n : Notice) : (s.notifyEach l n).console = s.console :=
  (congrArg State.console (notifyEach_frame l n s) :)
@[simp] theorem State.notifyEach_latched (s : State) (l : List Nat) (n : Notice) : (s.notifyEach l n).latched = s.latched :=
  (congrArg State.latched (notifyEach_frame l n s) :)
@[simp] theorem State.notifyEach_statSeq (s : State) (l : List Nat) (n : Notice) : (s.notifyEach l n).statSeq = s.statSeq :=
  (congrArg State.statSeq (notifyEach_frame l n s) :)
@[simp] theorem State.notifyEach_request (s : State) (l : List Nat) (n : Notice) : (s.notifyEach l n).request = s.request :=
  (congrArg State.request (notifyEach_frame l n s) :)
@[simp] theorem State.notifyEach_store (s : State) (l : List Nat) (n : Notice) : (s.notifyEach l n).store = s.store :=
  (congrArg State.store (notifyEach_frame l n s) :)
@[simp] theorem State.notifyEach_heldMreps (s : State) (l : List Nat) (n : Notice) : (s.notifyEach l n).heldMreps = s.heldMreps :=
  (congrArg State.heldMreps (notifyEach_frame l n s) :)
@[simp] theorem State.notifyEach_resetWaits (s : State) (l : List Nat) (n : Notice) : (s.notifyEach l n).resetWaits = s.resetWaits :=
  (congrArg State.resetWaits (notifyEach_frame l n s) :)
@[simp] theorem State.notifyEach_owed (s : State) (l : List Nat) (n : Notice) : (s.notifyEach l n).owed = s.owed :=
  (congrArg State.owed (notifyEach_frame l n s) :)
@[simp] theorem State.notifyEach_statSent (s : State) (l : List Nat) (n : Notice) : (s.notifyEach l n).statSent = s.statSent :=
  (congrArg State.statSent (notifyEach_frame l n s) :)
@[simp] theorem State.notifyEach_freeCount (s : State) (l : List Nat) (n : Notice) : (s.notifyEach l n).freeCount = s.freeCount :=
  (congrArg State.freeCount (notifyEach_frame l n s) :)
@[simp] theorem State.notifyEach_pending (s : State) (l : List Nat) (n : Notice) : (s.notifyEach l n).pending = s.pending :=
  (congrArg State.pending (notifyEach_frame l n s) :)

/-! ## notifyAll -/

@[simp] theorem State.notifyAll_tables (s : State) (n : Notice) : (s.notifyAll n).tables = s.tables :=
  (congrArg State.tables (notifyEach_frame _ n s) :)
@[simp] theorem State.notifyAll_memory (s : State) (n : Notice) : (s.notifyAll n).memory = s.memory :=
  (congrArg State.memory (notifyEach_frame _ n s) :)
@[simp] theorem State.notifyAll_retained (s : State) (n : Notice) : (s.notifyAll n).retained = s.retained :=
  (congrArg State.retained (notifyEach_frame _ n s) :)
@[simp] theorem State.notifyAll_dyn (s : State) (n : Notice) : (s.notifyAll n).dyn = s.dyn :=
  (congrArg State.dyn (notifyEach_frame _ n s) :)
@[simp] theorem State.notifyAll_slots (s : State) (n : Notice) : (s.notifyAll n).slots = s.slots :=
  (congrArg State.slots (notifyEach_frame _ n s) :)
@[simp] theorem State.notifyAll_queue (s : State) (n : Notice) : (s.notifyAll n).queue = s.queue :=
  (congrArg State.queue (notifyEach_frame _ n s) :)
@[simp] theorem State.notifyAll_shelf (s : State) (n : Notice) : (s.notifyAll n).shelf = s.shelf :=
  (congrArg State.shelf (notifyEach_frame _ n s) :)
@[simp] theorem State.notifyAll_areas (s : State) (n : Notice) : (s.notifyAll n).areas = s.areas :=
  (congrArg State.areas (notifyEach_frame _ n s) :)
@[simp] theorem State.notifyAll_turn (s : State) (n : Notice) : (s.notifyAll n).turn = s.turn :=
  (congrArg State.turn (notifyEach_frame _ n s) :)
@[simp] theorem State.notifyAll_controllers (s : State) (n : Notice) : (s.notifyAll n).controllers = s.controllers :=
  (congrArg State.controllers (notifyEach_frame _ n s) :)
@[simp] theorem State.notifyAll_commands (s : State) (n : Notice) : (s.notifyAll n).commands = s.commands :=
  (congrArg State.commands (notifyEach_frame _ n s) :)
@[simp] theorem State.notifyAll_tagCounter (s : State) (n : Notice) : (s.notifyAll n).tagCounter = s.tagCounter :=
  (congrArg State.tagCounter (notifyEach_frame _ n s) :)
@[simp] theorem State.notifyAll_records (s : State) (n : Notice) : (s.notifyAll n).records = s.records :=
  (congrArg State.records (notifyEach_frame _ n s) :)
@[simp] theorem State.notifyAll_arepSeq (s : State) (n : Notice) : (s.notifyAll n).arepSeq = s.arepSeq :=
  (congrArg State.arepSeq (notifyEach_frame _ n s) :)
@[simp] theorem State.notifyAll_time (s : State) (n : Notice) : (s.notifyAll n).time = s.time :=
  (congrArg State.time (notifyEach_frame _ n s) :)
@[simp] theorem State.notifyAll_plant (s : State) (n : Notice) : (s.notifyAll n).plant = s.plant :=
  (congrArg State.plant (notifyEach_frame _ n s) :)
@[simp] theorem State.notifyAll_console (s : State) (n : Notice) : (s.notifyAll n).console = s.console :=
  (congrArg State.console (notifyEach_frame _ n s) :)
@[simp] theorem State.notifyAll_latched (s : State) (n : Notice) : (s.notifyAll n).latched = s.latched :=
  (congrArg State.latched (notifyEach_frame _ n s) :)
@[simp] theorem State.notifyAll_statSeq (s : State) (n : Notice) : (s.notifyAll n).statSeq = s.statSeq :=
  (congrArg State.statSeq (notifyEach_frame _ n s) :)
@[simp] theorem State.notifyAll_request (s : State) (n : Notice) : (s.notifyAll n).request = s.request :=
  (congrArg State.request (notifyEach_frame _ n s) :)
@[simp] theorem State.notifyAll_store (s : State) (n : Notice) : (s.notifyAll n).store = s.store :=
  (congrArg State.store (notifyEach_frame _ n s) :)
@[simp] theorem State.notifyAll_heldMreps (s : State) (n : Notice) : (s.notifyAll n).heldMreps = s.heldMreps :=
  (congrArg State.heldMreps (notifyEach_frame _ n s) :)
@[simp] theorem State.notifyAll_resetWaits (s : State) (n : Notice) : (s.notifyAll n).resetWaits = s.resetWaits :=
  (congrArg State.resetWaits (notifyEach_frame _ n s) :)
@[simp] theorem State.notifyAll_owed (s : State) (n : Notice) : (s.notifyAll n).owed = s.owed :=
  (congrArg State.owed (notifyEach_frame _ n s) :)
@[simp] theorem State.notifyAll_statSent (s : State) (n : Notice) : (s.notifyAll n).statSent = s.statSent :=
  (congrArg State.statSent (notifyEach_frame _ n s) :)
@[simp] theorem State.notifyAll_freeCount (s : State) (n : Notice) : (s.notifyAll n).freeCount = s.freeCount :=
  (congrArg State.freeCount (notifyEach_frame _ n s) :)
@[simp] theorem State.notifyAll_pending (s : State) (n : Notice) : (s.notifyAll n).pending = s.pending :=
  (congrArg State.pending (notifyEach_frame _ n s) :)

/-! ## notifyArea -/

@[simp] theorem State.notifyArea_tables (s : State) (a : Nat) (n : Notice) : (s.notifyArea a n).tables = s.tables :=
  (congrArg State.tables (notifyEach_frame _ n s) :)
@[simp] theorem State.notifyArea_memory (s : State) (a : Nat) (n : Notice) : (s.notifyArea a n).memory = s.memory :=
  (congrArg State.memory (notifyEach_frame _ n s) :)
@[simp] theorem State.notifyArea_retained (s : State) (a : Nat) (n : Notice) : (s.notifyArea a n).retained = s.retained :=
  (congrArg State.retained (notifyEach_frame _ n s) :)
@[simp] theorem State.notifyArea_dyn (s : State) (a : Nat) (n : Notice) : (s.notifyArea a n).dyn = s.dyn :=
  (congrArg State.dyn (notifyEach_frame _ n s) :)
@[simp] theorem State.notifyArea_slots (s : State) (a : Nat) (n : Notice) : (s.notifyArea a n).slots = s.slots :=
  (congrArg State.slots (notifyEach_frame _ n s) :)
@[simp] theorem State.notifyArea_queue (s : State) (a : Nat) (n : Notice) : (s.notifyArea a n).queue = s.queue :=
  (congrArg State.queue (notifyEach_frame _ n s) :)
@[simp] theorem State.notifyArea_shelf (s : State) (a : Nat) (n : Notice) : (s.notifyArea a n).shelf = s.shelf :=
  (congrArg State.shelf (notifyEach_frame _ n s) :)
@[simp] theorem State.notifyArea_areas (s : State) (a : Nat) (n : Notice) : (s.notifyArea a n).areas = s.areas :=
  (congrArg State.areas (notifyEach_frame _ n s) :)
@[simp] theorem State.notifyArea_turn (s : State) (a : Nat) (n : Notice) : (s.notifyArea a n).turn = s.turn :=
  (congrArg State.turn (notifyEach_frame _ n s) :)
@[simp] theorem State.notifyArea_controllers (s : State) (a : Nat) (n : Notice) : (s.notifyArea a n).controllers = s.controllers :=
  (congrArg State.controllers (notifyEach_frame _ n s) :)
@[simp] theorem State.notifyArea_commands (s : State) (a : Nat) (n : Notice) : (s.notifyArea a n).commands = s.commands :=
  (congrArg State.commands (notifyEach_frame _ n s) :)
@[simp] theorem State.notifyArea_tagCounter (s : State) (a : Nat) (n : Notice) : (s.notifyArea a n).tagCounter = s.tagCounter :=
  (congrArg State.tagCounter (notifyEach_frame _ n s) :)
@[simp] theorem State.notifyArea_records (s : State) (a : Nat) (n : Notice) : (s.notifyArea a n).records = s.records :=
  (congrArg State.records (notifyEach_frame _ n s) :)
@[simp] theorem State.notifyArea_arepSeq (s : State) (a : Nat) (n : Notice) : (s.notifyArea a n).arepSeq = s.arepSeq :=
  (congrArg State.arepSeq (notifyEach_frame _ n s) :)
@[simp] theorem State.notifyArea_time (s : State) (a : Nat) (n : Notice) : (s.notifyArea a n).time = s.time :=
  (congrArg State.time (notifyEach_frame _ n s) :)
@[simp] theorem State.notifyArea_plant (s : State) (a : Nat) (n : Notice) : (s.notifyArea a n).plant = s.plant :=
  (congrArg State.plant (notifyEach_frame _ n s) :)
@[simp] theorem State.notifyArea_console (s : State) (a : Nat) (n : Notice) : (s.notifyArea a n).console = s.console :=
  (congrArg State.console (notifyEach_frame _ n s) :)
@[simp] theorem State.notifyArea_latched (s : State) (a : Nat) (n : Notice) : (s.notifyArea a n).latched = s.latched :=
  (congrArg State.latched (notifyEach_frame _ n s) :)
@[simp] theorem State.notifyArea_statSeq (s : State) (a : Nat) (n : Notice) : (s.notifyArea a n).statSeq = s.statSeq :=
  (congrArg State.statSeq (notifyEach_frame _ n s) :)
@[simp] theorem State.notifyArea_request (s : State) (a : Nat) (n : Notice) : (s.notifyArea a n).request = s.request :=
  (congrArg State.request (notifyEach_frame _ n s) :)
@[simp] theorem State.notifyArea_store (s : State) (a : Nat) (n : Notice) : (s.notifyArea a n).store = s.store :=
  (congrArg State.store (notifyEach_frame _ n s) :)
@[simp] theorem State.notifyArea_heldMreps (s : State) (a : Nat) (n : Notice) : (s.notifyArea a n).heldMreps = s.heldMreps :=
  (congrArg State.heldMreps (notifyEach_frame _ n s) :)
@[simp] theorem State.notifyArea_resetWaits (s : State) (a : Nat) (n : Notice) : (s.notifyArea a n).resetWaits = s.resetWaits :=
  (congrArg State.resetWaits (notifyEach_frame _ n s) :)
@[simp] theorem State.notifyArea_owed (s : State) (a : Nat) (n : Notice) : (s.notifyArea a n).owed = s.owed :=
  (congrArg State.owed (notifyEach_frame _ n s) :)
@[simp] theorem State.notifyArea_statSent (s : State) (a : Nat) (n : Notice) : (s.notifyArea a n).statSent = s.statSent :=
  (congrArg State.statSent (notifyEach_frame _ n s) :)
@[simp] theorem State.notifyArea_freeCount (s : State) (a : Nat) (n : Notice) : (s.notifyArea a n).freeCount = s.freeCount :=
  (congrArg State.freeCount (notifyEach_frame _ n s) :)
@[simp] theorem State.notifyArea_pending (s : State) (a : Nat) (n : Notice) : (s.notifyArea a n).pending = s.pending :=
  (congrArg State.pending (notifyEach_frame _ n s) :)

/-! ## noteAuthority -/

@[simp] theorem State.noteAuthority_tables (s : State) (a : Nat) : (s.noteAuthority a).tables = s.tables :=
  (congrArg State.tables (notifyEach_frame _ _ s) :)
@[simp] theorem State.noteAuthority_memory (s : State) (a : Nat) : (s.noteAuthority a).memory = s.memory :=
  (congrArg State.memory (notifyEach_frame _ _ s) :)
@[simp] theorem State.noteAuthority_retained (s : State) (a : Nat) : (s.noteAuthority a).retained = s.retained :=
  (congrArg State.retained (notifyEach_frame _ _ s) :)
@[simp] theorem State.noteAuthority_dyn (s : State) (a : Nat) : (s.noteAuthority a).dyn = s.dyn :=
  (congrArg State.dyn (notifyEach_frame _ _ s) :)
@[simp] theorem State.noteAuthority_slots (s : State) (a : Nat) : (s.noteAuthority a).slots = s.slots :=
  (congrArg State.slots (notifyEach_frame _ _ s) :)
@[simp] theorem State.noteAuthority_queue (s : State) (a : Nat) : (s.noteAuthority a).queue = s.queue :=
  (congrArg State.queue (notifyEach_frame _ _ s) :)
@[simp] theorem State.noteAuthority_shelf (s : State) (a : Nat) : (s.noteAuthority a).shelf = s.shelf :=
  (congrArg State.shelf (notifyEach_frame _ _ s) :)
@[simp] theorem State.noteAuthority_areas (s : State) (a : Nat) : (s.noteAuthority a).areas = s.areas :=
  (congrArg State.areas (notifyEach_frame _ _ s) :)
@[simp] theorem State.noteAuthority_turn (s : State) (a : Nat) : (s.noteAuthority a).turn = s.turn :=
  (congrArg State.turn (notifyEach_frame _ _ s) :)
@[simp] theorem State.noteAuthority_controllers (s : State) (a : Nat) : (s.noteAuthority a).controllers = s.controllers :=
  (congrArg State.controllers (notifyEach_frame _ _ s) :)
@[simp] theorem State.noteAuthority_commands (s : State) (a : Nat) : (s.noteAuthority a).commands = s.commands :=
  (congrArg State.commands (notifyEach_frame _ _ s) :)
@[simp] theorem State.noteAuthority_tagCounter (s : State) (a : Nat) : (s.noteAuthority a).tagCounter = s.tagCounter :=
  (congrArg State.tagCounter (notifyEach_frame _ _ s) :)
@[simp] theorem State.noteAuthority_records (s : State) (a : Nat) : (s.noteAuthority a).records = s.records :=
  (congrArg State.records (notifyEach_frame _ _ s) :)
@[simp] theorem State.noteAuthority_arepSeq (s : State) (a : Nat) : (s.noteAuthority a).arepSeq = s.arepSeq :=
  (congrArg State.arepSeq (notifyEach_frame _ _ s) :)
@[simp] theorem State.noteAuthority_time (s : State) (a : Nat) : (s.noteAuthority a).time = s.time :=
  (congrArg State.time (notifyEach_frame _ _ s) :)
@[simp] theorem State.noteAuthority_plant (s : State) (a : Nat) : (s.noteAuthority a).plant = s.plant :=
  (congrArg State.plant (notifyEach_frame _ _ s) :)
@[simp] theorem State.noteAuthority_console (s : State) (a : Nat) : (s.noteAuthority a).console = s.console :=
  (congrArg State.console (notifyEach_frame _ _ s) :)
@[simp] theorem State.noteAuthority_latched (s : State) (a : Nat) : (s.noteAuthority a).latched = s.latched :=
  (congrArg State.latched (notifyEach_frame _ _ s) :)
@[simp] theorem State.noteAuthority_statSeq (s : State) (a : Nat) : (s.noteAuthority a).statSeq = s.statSeq :=
  (congrArg State.statSeq (notifyEach_frame _ _ s) :)
@[simp] theorem State.noteAuthority_request (s : State) (a : Nat) : (s.noteAuthority a).request = s.request :=
  (congrArg State.request (notifyEach_frame _ _ s) :)
@[simp] theorem State.noteAuthority_store (s : State) (a : Nat) : (s.noteAuthority a).store = s.store :=
  (congrArg State.store (notifyEach_frame _ _ s) :)
@[simp] theorem State.noteAuthority_heldMreps (s : State) (a : Nat) : (s.noteAuthority a).heldMreps = s.heldMreps :=
  (congrArg State.heldMreps (notifyEach_frame _ _ s) :)
@[simp] theorem State.noteAuthority_resetWaits (s : State) (a : Nat) : (s.noteAuthority a).resetWaits = s.resetWaits :=
  (congrArg State.resetWaits (notifyEach_frame _ _ s) :)
@[simp] theorem State.noteAuthority_owed (s : State) (a : Nat) : (s.noteAuthority a).owed = s.owed :=
  (congrArg State.owed (notifyEach_frame _ _ s) :)
@[simp] theorem State.noteAuthority_statSent (s : State) (a : Nat) : (s.noteAuthority a).statSent = s.statSent :=
  (congrArg State.statSent (notifyEach_frame _ _ s) :)
@[simp] theorem State.noteAuthority_freeCount (s : State) (a : Nat) : (s.noteAuthority a).freeCount = s.freeCount :=
  (congrArg State.freeCount (notifyEach_frame _ _ s) :)
@[simp] theorem State.noteAuthority_pending (s : State) (a : Nat) : (s.noteAuthority a).pending = s.pending :=
  (congrArg State.pending (notifyEach_frame _ _ s) :)

/-! ## noteHandover -/

@[simp] theorem State.noteHandover_tables (s : State) (c : Nat) (h : Handover) (x : HandoverState) (r : Option AbortReason) : (s.noteHandover c h x r).tables = s.tables :=
  (congrArg State.tables (notify_frame s c _) :)
@[simp] theorem State.noteHandover_memory (s : State) (c : Nat) (h : Handover) (x : HandoverState) (r : Option AbortReason) : (s.noteHandover c h x r).memory = s.memory :=
  (congrArg State.memory (notify_frame s c _) :)
@[simp] theorem State.noteHandover_retained (s : State) (c : Nat) (h : Handover) (x : HandoverState) (r : Option AbortReason) : (s.noteHandover c h x r).retained = s.retained :=
  (congrArg State.retained (notify_frame s c _) :)
@[simp] theorem State.noteHandover_dyn (s : State) (c : Nat) (h : Handover) (x : HandoverState) (r : Option AbortReason) : (s.noteHandover c h x r).dyn = s.dyn :=
  (congrArg State.dyn (notify_frame s c _) :)
@[simp] theorem State.noteHandover_slots (s : State) (c : Nat) (h : Handover) (x : HandoverState) (r : Option AbortReason) : (s.noteHandover c h x r).slots = s.slots :=
  (congrArg State.slots (notify_frame s c _) :)
@[simp] theorem State.noteHandover_queue (s : State) (c : Nat) (h : Handover) (x : HandoverState) (r : Option AbortReason) : (s.noteHandover c h x r).queue = s.queue :=
  (congrArg State.queue (notify_frame s c _) :)
@[simp] theorem State.noteHandover_shelf (s : State) (c : Nat) (h : Handover) (x : HandoverState) (r : Option AbortReason) : (s.noteHandover c h x r).shelf = s.shelf :=
  (congrArg State.shelf (notify_frame s c _) :)
@[simp] theorem State.noteHandover_areas (s : State) (c : Nat) (h : Handover) (x : HandoverState) (r : Option AbortReason) : (s.noteHandover c h x r).areas = s.areas :=
  (congrArg State.areas (notify_frame s c _) :)
@[simp] theorem State.noteHandover_turn (s : State) (c : Nat) (h : Handover) (x : HandoverState) (r : Option AbortReason) : (s.noteHandover c h x r).turn = s.turn :=
  (congrArg State.turn (notify_frame s c _) :)
@[simp] theorem State.noteHandover_controllers (s : State) (c : Nat) (h : Handover) (x : HandoverState) (r : Option AbortReason) : (s.noteHandover c h x r).controllers = s.controllers :=
  (congrArg State.controllers (notify_frame s c _) :)
@[simp] theorem State.noteHandover_commands (s : State) (c : Nat) (h : Handover) (x : HandoverState) (r : Option AbortReason) : (s.noteHandover c h x r).commands = s.commands :=
  (congrArg State.commands (notify_frame s c _) :)
@[simp] theorem State.noteHandover_tagCounter (s : State) (c : Nat) (h : Handover) (x : HandoverState) (r : Option AbortReason) : (s.noteHandover c h x r).tagCounter = s.tagCounter :=
  (congrArg State.tagCounter (notify_frame s c _) :)
@[simp] theorem State.noteHandover_records (s : State) (c : Nat) (h : Handover) (x : HandoverState) (r : Option AbortReason) : (s.noteHandover c h x r).records = s.records :=
  (congrArg State.records (notify_frame s c _) :)
@[simp] theorem State.noteHandover_arepSeq (s : State) (c : Nat) (h : Handover) (x : HandoverState) (r : Option AbortReason) : (s.noteHandover c h x r).arepSeq = s.arepSeq :=
  (congrArg State.arepSeq (notify_frame s c _) :)
@[simp] theorem State.noteHandover_time (s : State) (c : Nat) (h : Handover) (x : HandoverState) (r : Option AbortReason) : (s.noteHandover c h x r).time = s.time :=
  (congrArg State.time (notify_frame s c _) :)
@[simp] theorem State.noteHandover_plant (s : State) (c : Nat) (h : Handover) (x : HandoverState) (r : Option AbortReason) : (s.noteHandover c h x r).plant = s.plant :=
  (congrArg State.plant (notify_frame s c _) :)
@[simp] theorem State.noteHandover_console (s : State) (c : Nat) (h : Handover) (x : HandoverState) (r : Option AbortReason) : (s.noteHandover c h x r).console = s.console :=
  (congrArg State.console (notify_frame s c _) :)
@[simp] theorem State.noteHandover_latched (s : State) (c : Nat) (h : Handover) (x : HandoverState) (r : Option AbortReason) : (s.noteHandover c h x r).latched = s.latched :=
  (congrArg State.latched (notify_frame s c _) :)
@[simp] theorem State.noteHandover_statSeq (s : State) (c : Nat) (h : Handover) (x : HandoverState) (r : Option AbortReason) : (s.noteHandover c h x r).statSeq = s.statSeq :=
  (congrArg State.statSeq (notify_frame s c _) :)
@[simp] theorem State.noteHandover_request (s : State) (c : Nat) (h : Handover) (x : HandoverState) (r : Option AbortReason) : (s.noteHandover c h x r).request = s.request :=
  (congrArg State.request (notify_frame s c _) :)
@[simp] theorem State.noteHandover_store (s : State) (c : Nat) (h : Handover) (x : HandoverState) (r : Option AbortReason) : (s.noteHandover c h x r).store = s.store :=
  (congrArg State.store (notify_frame s c _) :)
@[simp] theorem State.noteHandover_heldMreps (s : State) (c : Nat) (h : Handover) (x : HandoverState) (r : Option AbortReason) : (s.noteHandover c h x r).heldMreps = s.heldMreps :=
  (congrArg State.heldMreps (notify_frame s c _) :)
@[simp] theorem State.noteHandover_resetWaits (s : State) (c : Nat) (h : Handover) (x : HandoverState) (r : Option AbortReason) : (s.noteHandover c h x r).resetWaits = s.resetWaits :=
  (congrArg State.resetWaits (notify_frame s c _) :)
@[simp] theorem State.noteHandover_owed (s : State) (c : Nat) (h : Handover) (x : HandoverState) (r : Option AbortReason) : (s.noteHandover c h x r).owed = s.owed :=
  (congrArg State.owed (notify_frame s c _) :)
@[simp] theorem State.noteHandover_statSent (s : State) (c : Nat) (h : Handover) (x : HandoverState) (r : Option AbortReason) : (s.noteHandover c h x r).statSent = s.statSent :=
  (congrArg State.statSent (notify_frame s c _) :)
@[simp] theorem State.noteHandover_freeCount (s : State) (c : Nat) (h : Handover) (x : HandoverState) (r : Option AbortReason) : (s.noteHandover c h x r).freeCount = s.freeCount :=
  (congrArg State.freeCount (notify_frame s c _) :)
@[simp] theorem State.noteHandover_pending (s : State) (c : Nat) (h : Handover) (x : HandoverState) (r : Option AbortReason) : (s.noteHandover c h x r).pending = s.pending :=
  (congrArg State.pending (notify_frame s c _) :)

/-! ## setHorn -/

@[simp] theorem State.setHorn_tables (s : State) (a : Nat) (h : Horn) : (s.setHorn a h).tables = s.tables :=
  (congrArg State.tables (setHorn_frame s a h) :)
@[simp] theorem State.setHorn_memory (s : State) (a : Nat) (h : Horn) : (s.setHorn a h).memory = s.memory :=
  (congrArg State.memory (setHorn_frame s a h) :)
@[simp] theorem State.setHorn_retained (s : State) (a : Nat) (h : Horn) : (s.setHorn a h).retained = s.retained :=
  (congrArg State.retained (setHorn_frame s a h) :)
@[simp] theorem State.setHorn_dyn (s : State) (a : Nat) (h : Horn) : (s.setHorn a h).dyn = s.dyn :=
  (congrArg State.dyn (setHorn_frame s a h) :)
@[simp] theorem State.setHorn_slots (s : State) (a : Nat) (h : Horn) : (s.setHorn a h).slots = s.slots :=
  (congrArg State.slots (setHorn_frame s a h) :)
@[simp] theorem State.setHorn_queue (s : State) (a : Nat) (h : Horn) : (s.setHorn a h).queue = s.queue :=
  (congrArg State.queue (setHorn_frame s a h) :)
@[simp] theorem State.setHorn_shelf (s : State) (a : Nat) (h : Horn) : (s.setHorn a h).shelf = s.shelf :=
  (congrArg State.shelf (setHorn_frame s a h) :)
@[simp] theorem State.setHorn_areas (s : State) (a : Nat) (h : Horn) : (s.setHorn a h).areas = s.areas :=
  (congrArg State.areas (setHorn_frame s a h) :)
@[simp] theorem State.setHorn_turn (s : State) (a : Nat) (h : Horn) : (s.setHorn a h).turn = s.turn :=
  (congrArg State.turn (setHorn_frame s a h) :)
@[simp] theorem State.setHorn_controllers (s : State) (a : Nat) (h : Horn) : (s.setHorn a h).controllers = s.controllers :=
  (congrArg State.controllers (setHorn_frame s a h) :)
@[simp] theorem State.setHorn_commands (s : State) (a : Nat) (h : Horn) : (s.setHorn a h).commands = s.commands :=
  (congrArg State.commands (setHorn_frame s a h) :)
@[simp] theorem State.setHorn_tagCounter (s : State) (a : Nat) (h : Horn) : (s.setHorn a h).tagCounter = s.tagCounter :=
  (congrArg State.tagCounter (setHorn_frame s a h) :)
@[simp] theorem State.setHorn_records (s : State) (a : Nat) (h : Horn) : (s.setHorn a h).records = s.records :=
  (congrArg State.records (setHorn_frame s a h) :)
@[simp] theorem State.setHorn_arepSeq (s : State) (a : Nat) (h : Horn) : (s.setHorn a h).arepSeq = s.arepSeq :=
  (congrArg State.arepSeq (setHorn_frame s a h) :)
@[simp] theorem State.setHorn_time (s : State) (a : Nat) (h : Horn) : (s.setHorn a h).time = s.time :=
  (congrArg State.time (setHorn_frame s a h) :)
@[simp] theorem State.setHorn_plant (s : State) (a : Nat) (h : Horn) : (s.setHorn a h).plant = s.plant :=
  (congrArg State.plant (setHorn_frame s a h) :)
@[simp] theorem State.setHorn_console (s : State) (a : Nat) (h : Horn) : (s.setHorn a h).console = s.console :=
  (congrArg State.console (setHorn_frame s a h) :)
@[simp] theorem State.setHorn_latched (s : State) (a : Nat) (h : Horn) : (s.setHorn a h).latched = s.latched :=
  (congrArg State.latched (setHorn_frame s a h) :)
@[simp] theorem State.setHorn_statSeq (s : State) (a : Nat) (h : Horn) : (s.setHorn a h).statSeq = s.statSeq :=
  (congrArg State.statSeq (setHorn_frame s a h) :)
@[simp] theorem State.setHorn_request (s : State) (a : Nat) (h : Horn) : (s.setHorn a h).request = s.request :=
  (congrArg State.request (setHorn_frame s a h) :)
@[simp] theorem State.setHorn_store (s : State) (a : Nat) (h : Horn) : (s.setHorn a h).store = s.store :=
  (congrArg State.store (setHorn_frame s a h) :)
@[simp] theorem State.setHorn_heldMreps (s : State) (a : Nat) (h : Horn) : (s.setHorn a h).heldMreps = s.heldMreps :=
  (congrArg State.heldMreps (setHorn_frame s a h) :)
@[simp] theorem State.setHorn_resetWaits (s : State) (a : Nat) (h : Horn) : (s.setHorn a h).resetWaits = s.resetWaits :=
  (congrArg State.resetWaits (setHorn_frame s a h) :)
@[simp] theorem State.setHorn_owed (s : State) (a : Nat) (h : Horn) : (s.setHorn a h).owed = s.owed :=
  (congrArg State.owed (setHorn_frame s a h) :)
@[simp] theorem State.setHorn_statSent (s : State) (a : Nat) (h : Horn) : (s.setHorn a h).statSent = s.statSent :=
  (congrArg State.statSent (setHorn_frame s a h) :)
@[simp] theorem State.setHorn_freeCount (s : State) (a : Nat) (h : Horn) : (s.setHorn a h).freeCount = s.freeCount :=
  (congrArg State.freeCount (setHorn_frame s a h) :)
@[simp] theorem State.setHorn_pending (s : State) (a : Nat) (h : Horn) : (s.setHorn a h).pending = s.pending :=
  (congrArg State.pending (setHorn_frame s a h) :)

/-! ## hornStep2 -/

@[simp] theorem State.hornStep2_tables (s : State) (a : Nat) : (s.hornStep2 a).tables = s.tables :=
  (congrArg State.tables (hornStep2_frame s a) :)
@[simp] theorem State.hornStep2_memory (s : State) (a : Nat) : (s.hornStep2 a).memory = s.memory :=
  (congrArg State.memory (hornStep2_frame s a) :)
@[simp] theorem State.hornStep2_retained (s : State) (a : Nat) : (s.hornStep2 a).retained = s.retained :=
  (congrArg State.retained (hornStep2_frame s a) :)
@[simp] theorem State.hornStep2_dyn (s : State) (a : Nat) : (s.hornStep2 a).dyn = s.dyn :=
  (congrArg State.dyn (hornStep2_frame s a) :)
@[simp] theorem State.hornStep2_slots (s : State) (a : Nat) : (s.hornStep2 a).slots = s.slots :=
  (congrArg State.slots (hornStep2_frame s a) :)
@[simp] theorem State.hornStep2_queue (s : State) (a : Nat) : (s.hornStep2 a).queue = s.queue :=
  (congrArg State.queue (hornStep2_frame s a) :)
@[simp] theorem State.hornStep2_shelf (s : State) (a : Nat) : (s.hornStep2 a).shelf = s.shelf :=
  (congrArg State.shelf (hornStep2_frame s a) :)
@[simp] theorem State.hornStep2_areas (s : State) (a : Nat) : (s.hornStep2 a).areas = s.areas :=
  (congrArg State.areas (hornStep2_frame s a) :)
@[simp] theorem State.hornStep2_turn (s : State) (a : Nat) : (s.hornStep2 a).turn = s.turn :=
  (congrArg State.turn (hornStep2_frame s a) :)
@[simp] theorem State.hornStep2_controllers (s : State) (a : Nat) : (s.hornStep2 a).controllers = s.controllers :=
  (congrArg State.controllers (hornStep2_frame s a) :)
@[simp] theorem State.hornStep2_commands (s : State) (a : Nat) : (s.hornStep2 a).commands = s.commands :=
  (congrArg State.commands (hornStep2_frame s a) :)
@[simp] theorem State.hornStep2_tagCounter (s : State) (a : Nat) : (s.hornStep2 a).tagCounter = s.tagCounter :=
  (congrArg State.tagCounter (hornStep2_frame s a) :)
@[simp] theorem State.hornStep2_records (s : State) (a : Nat) : (s.hornStep2 a).records = s.records :=
  (congrArg State.records (hornStep2_frame s a) :)
@[simp] theorem State.hornStep2_arepSeq (s : State) (a : Nat) : (s.hornStep2 a).arepSeq = s.arepSeq :=
  (congrArg State.arepSeq (hornStep2_frame s a) :)
@[simp] theorem State.hornStep2_time (s : State) (a : Nat) : (s.hornStep2 a).time = s.time :=
  (congrArg State.time (hornStep2_frame s a) :)
@[simp] theorem State.hornStep2_plant (s : State) (a : Nat) : (s.hornStep2 a).plant = s.plant :=
  (congrArg State.plant (hornStep2_frame s a) :)
@[simp] theorem State.hornStep2_console (s : State) (a : Nat) : (s.hornStep2 a).console = s.console :=
  (congrArg State.console (hornStep2_frame s a) :)
@[simp] theorem State.hornStep2_latched (s : State) (a : Nat) : (s.hornStep2 a).latched = s.latched :=
  (congrArg State.latched (hornStep2_frame s a) :)
@[simp] theorem State.hornStep2_statSeq (s : State) (a : Nat) : (s.hornStep2 a).statSeq = s.statSeq :=
  (congrArg State.statSeq (hornStep2_frame s a) :)
@[simp] theorem State.hornStep2_request (s : State) (a : Nat) : (s.hornStep2 a).request = s.request :=
  (congrArg State.request (hornStep2_frame s a) :)
@[simp] theorem State.hornStep2_store (s : State) (a : Nat) : (s.hornStep2 a).store = s.store :=
  (congrArg State.store (hornStep2_frame s a) :)
@[simp] theorem State.hornStep2_heldMreps (s : State) (a : Nat) : (s.hornStep2 a).heldMreps = s.heldMreps :=
  (congrArg State.heldMreps (hornStep2_frame s a) :)
@[simp] theorem State.hornStep2_resetWaits (s : State) (a : Nat) : (s.hornStep2 a).resetWaits = s.resetWaits :=
  (congrArg State.resetWaits (hornStep2_frame s a) :)
@[simp] theorem State.hornStep2_owed (s : State) (a : Nat) : (s.hornStep2 a).owed = s.owed :=
  (congrArg State.owed (hornStep2_frame s a) :)
@[simp] theorem State.hornStep2_statSent (s : State) (a : Nat) : (s.hornStep2 a).statSent = s.statSent :=
  (congrArg State.statSent (hornStep2_frame s a) :)
@[simp] theorem State.hornStep2_freeCount (s : State) (a : Nat) : (s.hornStep2 a).freeCount = s.freeCount :=
  (congrArg State.freeCount (hornStep2_frame s a) :)
@[simp] theorem State.hornStep2_pending (s : State) (a : Nat) : (s.hornStep2 a).pending = s.pending :=
  (congrArg State.pending (hornStep2_frame s a) :)

/-! ## report -/

@[simp] theorem State.report_tables (s : State) (r : Report) : (s.report r).tables = s.tables :=
  (congrArg State.tables (report_frame s r) :)
@[simp] theorem State.report_memory (s : State) (r : Report) : (s.report r).memory = s.memory :=
  (congrArg State.memory (report_frame s r) :)
@[simp] theorem State.report_retained (s : State) (r : Report) : (s.report r).retained = s.retained :=
  (congrArg State.retained (report_frame s r) :)
@[simp] theorem State.report_dyn (s : State) (r : Report) : (s.report r).dyn = s.dyn :=
  (congrArg State.dyn (report_frame s r) :)
@[simp] theorem State.report_slots (s : State) (r : Report) : (s.report r).slots = s.slots :=
  (congrArg State.slots (report_frame s r) :)
@[simp] theorem State.report_queue (s : State) (r : Report) : (s.report r).queue = s.queue :=
  (congrArg State.queue (report_frame s r) :)
@[simp] theorem State.report_shelf (s : State) (r : Report) : (s.report r).shelf = s.shelf :=
  (congrArg State.shelf (report_frame s r) :)
@[simp] theorem State.report_areas (s : State) (r : Report) : (s.report r).areas = s.areas :=
  (congrArg State.areas (report_frame s r) :)
@[simp] theorem State.report_consoles (s : State) (r : Report) : (s.report r).consoles = s.consoles :=
  (congrArg State.consoles (report_frame s r) :)
@[simp] theorem State.report_turn (s : State) (r : Report) : (s.report r).turn = s.turn :=
  (congrArg State.turn (report_frame s r) :)
@[simp] theorem State.report_controllers (s : State) (r : Report) : (s.report r).controllers = s.controllers :=
  (congrArg State.controllers (report_frame s r) :)
@[simp] theorem State.report_commands (s : State) (r : Report) : (s.report r).commands = s.commands :=
  (congrArg State.commands (report_frame s r) :)
@[simp] theorem State.report_tagCounter (s : State) (r : Report) : (s.report r).tagCounter = s.tagCounter :=
  (congrArg State.tagCounter (report_frame s r) :)
@[simp] theorem State.report_records (s : State) (r : Report) : (s.report r).records = s.records :=
  (congrArg State.records (report_frame s r) :)
@[simp] theorem State.report_request (s : State) (r : Report) : (s.report r).request = s.request :=
  (congrArg State.request (report_frame s r) :)
@[simp] theorem State.report_store (s : State) (r : Report) : (s.report r).store = s.store :=
  (congrArg State.store (report_frame s r) :)
@[simp] theorem State.report_heldMreps (s : State) (r : Report) : (s.report r).heldMreps = s.heldMreps :=
  (congrArg State.heldMreps (report_frame s r) :)
@[simp] theorem State.report_resetWaits (s : State) (r : Report) : (s.report r).resetWaits = s.resetWaits :=
  (congrArg State.resetWaits (report_frame s r) :)
@[simp] theorem State.report_owed (s : State) (r : Report) : (s.report r).owed = s.owed :=
  (congrArg State.owed (report_frame s r) :)
@[simp] theorem State.report_freeCount (s : State) (r : Report) : (s.report r).freeCount = s.freeCount :=
  (congrArg State.freeCount (report_frame s r) :)
@[simp] theorem State.report_pending (s : State) (r : Report) : (s.report r).pending = s.pending :=
  (congrArg State.pending (report_frame s r) :)

/-! ## handOn -/

@[simp] theorem handOn_tables (b : State) (e : Ev) (xs : List ShelfEvent) : (handOn b e xs).tables = e.s.tables :=
  (congrArg State.tables (handOn_frame b e xs) :)
@[simp] theorem handOn_memory (b : State) (e : Ev) (xs : List ShelfEvent) : (handOn b e xs).memory = e.s.memory :=
  (congrArg State.memory (handOn_frame b e xs) :)
@[simp] theorem handOn_retained (b : State) (e : Ev) (xs : List ShelfEvent) : (handOn b e xs).retained = e.s.retained :=
  (congrArg State.retained (handOn_frame b e xs) :)
@[simp] theorem handOn_dyn (b : State) (e : Ev) (xs : List ShelfEvent) : (handOn b e xs).dyn = e.s.dyn :=
  (congrArg State.dyn (handOn_frame b e xs) :)
@[simp] theorem handOn_slots (b : State) (e : Ev) (xs : List ShelfEvent) : (handOn b e xs).slots = e.s.slots :=
  (congrArg State.slots (handOn_frame b e xs) :)
@[simp] theorem handOn_queue (b : State) (e : Ev) (xs : List ShelfEvent) : (handOn b e xs).queue = e.s.queue :=
  (congrArg State.queue (handOn_frame b e xs) :)
@[simp] theorem handOn_shelf (b : State) (e : Ev) (xs : List ShelfEvent) : (handOn b e xs).shelf = e.s.shelf :=
  (congrArg State.shelf (handOn_frame b e xs) :)
@[simp] theorem handOn_turn (b : State) (e : Ev) (xs : List ShelfEvent) : (handOn b e xs).turn = e.s.turn :=
  (congrArg State.turn (handOn_frame b e xs) :)
@[simp] theorem handOn_controllers (b : State) (e : Ev) (xs : List ShelfEvent) : (handOn b e xs).controllers = e.s.controllers :=
  (congrArg State.controllers (handOn_frame b e xs) :)
@[simp] theorem handOn_commands (b : State) (e : Ev) (xs : List ShelfEvent) : (handOn b e xs).commands = e.s.commands :=
  (congrArg State.commands (handOn_frame b e xs) :)
@[simp] theorem handOn_tagCounter (b : State) (e : Ev) (xs : List ShelfEvent) : (handOn b e xs).tagCounter = e.s.tagCounter :=
  (congrArg State.tagCounter (handOn_frame b e xs) :)
@[simp] theorem handOn_arepSeq (b : State) (e : Ev) (xs : List ShelfEvent) : (handOn b e xs).arepSeq = e.s.arepSeq :=
  (congrArg State.arepSeq (handOn_frame b e xs) :)
@[simp] theorem handOn_time (b : State) (e : Ev) (xs : List ShelfEvent) : (handOn b e xs).time = e.s.time :=
  (congrArg State.time (handOn_frame b e xs) :)
@[simp] theorem handOn_plant (b : State) (e : Ev) (xs : List ShelfEvent) : (handOn b e xs).plant = e.s.plant :=
  (congrArg State.plant (handOn_frame b e xs) :)
@[simp] theorem handOn_console (b : State) (e : Ev) (xs : List ShelfEvent) : (handOn b e xs).console = e.s.console :=
  (congrArg State.console (handOn_frame b e xs) :)
@[simp] theorem handOn_latched (b : State) (e : Ev) (xs : List ShelfEvent) : (handOn b e xs).latched = e.s.latched :=
  (congrArg State.latched (handOn_frame b e xs) :)
@[simp] theorem handOn_statSeq (b : State) (e : Ev) (xs : List ShelfEvent) : (handOn b e xs).statSeq = e.s.statSeq :=
  (congrArg State.statSeq (handOn_frame b e xs) :)
@[simp] theorem handOn_isSome_request (b : State) (e : Ev) (xs : List ShelfEvent) :
    (handOn b e xs).request.isSome = e.s.request.isSome := by rw [handOn_request, Option.isSome_map]
@[simp] theorem handOn_store (b : State) (e : Ev) (xs : List ShelfEvent) : (handOn b e xs).store = e.s.store :=
  (congrArg State.store (handOn_frame b e xs) :)
@[simp] theorem handOn_heldMreps (b : State) (e : Ev) (xs : List ShelfEvent) : (handOn b e xs).heldMreps = e.s.heldMreps :=
  (congrArg State.heldMreps (handOn_frame b e xs) :)
@[simp] theorem handOn_resetWaits (b : State) (e : Ev) (xs : List ShelfEvent) : (handOn b e xs).resetWaits = e.s.resetWaits :=
  (congrArg State.resetWaits (handOn_frame b e xs) :)
@[simp] theorem handOn_owed (b : State) (e : Ev) (xs : List ShelfEvent) : (handOn b e xs).owed = e.s.owed :=
  (congrArg State.owed (handOn_frame b e xs) :)
@[simp] theorem handOn_statSent (b : State) (e : Ev) (xs : List ShelfEvent) : (handOn b e xs).statSent = e.s.statSent :=
  (congrArg State.statSent (handOn_frame b e xs) :)
@[simp] theorem handOn_freeCount (b : State) (e : Ev) (xs : List ShelfEvent) : (handOn b e xs).freeCount = e.s.freeCount :=
  (congrArg State.freeCount (handOn_frame b e xs) :)
@[simp] theorem handOn_pending (b : State) (e : Ev) (xs : List ShelfEvent) : (handOn b e xs).pending = e.s.pending :=
  (congrArg State.pending (handOn_frame b e xs) :)

end Sys2Proof.Machine
end

