-- ==== Sys2Proof/Laws/Ports.lean ====
section
/-! SUPPORT. The ports: what each operation of a port answers, that each keeps a sound port sound, and what sending and
latching do to the ports and the flags. -/

namespace Sys2Proof.Machine

/-! ## One port -/

/-- The arbiter's choice changes nothing where it is not free, the link is DOWN or nothing waits. -/
theorem startNext_busy (q : Port) (h : q.up = false ∨ q.sending ≠ none) : q.startNext = q := by
  unfold Port.startNext
  rw [if_neg]
  rintro hc
  simp only [Bool.and_eq_true, Option.isNone_iff_eq_none] at hc
  rcases h with h | h
  · rw [h] at hc; exact Bool.false_ne_true hc.1
  · exact h hc.2

@[simp] theorem startNext_up (q : Port) : q.startNext.up = q.up := by
  unfold Port.startNext; split <;> (try split) <;> (try split) <;> rfl
@[simp] theorem startNext_malformed (q : Port) : q.startNext.malformed = q.malformed := by
  unfold Port.startNext; split <;> (try split) <;> (try split) <;> rfl
@[simp] theorem startNext_dropped (q : Port) : q.startNext.dropped = q.dropped := by
  unfold Port.startNext; split <;> (try split) <;> (try split) <;> rfl
@[simp] theorem joinOwn_up (q : Port) (e : OwnEntry) : (q.joinOwn e).up = q.up := by
  unfold Port.joinOwn; split <;> simp
@[simp] theorem joinForward_up (q : Port) (t : Telegram) : (q.joinForward t).up = q.up := by
  unfold Port.joinForward; split <;> simp
@[simp] theorem endTransmission_up (q : Port) : q.endTransmission.up = q.up := by simp [Port.endTransmission]

/-- A full or DOWN port takes no generated telegram. -/
theorem joinOwn_noRoom (q : Port) (e : OwnEntry) (h : q.ownRoom = false) : q.joinOwn e = q := by
  simp [Port.joinOwn, h]

/-- The bounds hold after the arbiter's choice, and nothing waits while nothing is sent. -/
theorem startNext_sound (q : Port) (hf : q.forward.length ≤ Config.forwardCap) (ho : q.own.length ≤ Config.ownCap)
    (ht : q.ownTurn ≤ 2) (hu : q.up = false → q.sending = none ∧ q.forward = [] ∧ q.own = []) :
    q.startNext.Sound := by
  unfold Port.startNext
  split
  · next hc =>
    simp only [Bool.and_eq_true, Option.isNone_iff_eq_none] at hc
    obtain ⟨hup, hs⟩ := hc
    split <;> (try split) <;> simp_all [Port.Sound] <;> omega
  · next hc =>
    simp only [Bool.and_eq_true, Option.isNone_iff_eq_none, not_and] at hc
    refine ⟨hf, ho, ht, fun h => (hu h).1, fun hs => ?_⟩
    cases hup : q.up with
    | false => exact (hu hup).2
    | true => exact absurd hs (hc hup)

theorem joinOwn_sound {q : Port} (h : q.Sound) (e : OwnEntry) : (q.joinOwn e).Sound := by
  obtain ⟨hf, ho, ht, hu, hs⟩ := h
  unfold Port.joinOwn
  split
  · next hr =>
    simp only [Port.ownRoom, Bool.and_eq_true, decide_eq_true_eq] at hr
    refine startNext_sound _ hf ?_ ht ?_
    · simp; omega
    · intro h; simp_all
  · exact ⟨hf, ho, ht, hu, hs⟩

theorem joinForward_sound {q : Port} (h : q.Sound) (t : Telegram) : (q.joinForward t).Sound := by
  obtain ⟨hf, ho, ht, hu, hs⟩ := h
  unfold Port.joinForward
  split
  · next hr =>
    simp only [Bool.and_eq_true, decide_eq_true_eq] at hr
    refine startNext_sound _ ?_ ho ht ?_
    · simp; omega
    · intro h; simp_all
  · exact ⟨hf, ho, ht, hu, hs⟩

theorem endTransmission_sound {q : Port} (h : q.Sound) : q.endTransmission.Sound := by
  obtain ⟨hf, ho, ht, hu, hs⟩ := h
  refine startNext_sound _ hf ho ht fun h => ⟨rfl, hs (hu h)⟩

theorem goDown_sound {q : Port} (h : q.Sound) : q.goDown.Sound := by
  obtain ⟨hf, ho, ht, hu, hs⟩ := h
  exact ⟨Nat.zero_le _, Nat.zero_le _, ht, fun _ => rfl, fun _ => ⟨rfl, rfl⟩⟩

/-! ## Sending and latching -/

/-- The STATs of a flag find no room where the plant port has none. -/
theorem sendStats_noRoom (f : StatusFlag) (l : List Nat) (s : State) (h : s.plant.ownRoom = false) :
    (sendStats f l s).1 = s := by
  induction l generalizing s with
  | nil => rfl
  | cons a l ih =>
    have : s.modPort .plant (·.joinOwn ⟨statTelegram s f a, false⟩) = s := by
      show { s with plant := s.plant.joinOwn _ } = s
      rw [joinOwn_noRoom _ _ h]
    simp only [sendStats, this]
    exact ih s h

theorem latchOnce_noRoom (f : StatusFlag) (s : State) (h : s.plant.ownRoom = false) :
    (latchOnce f s).1.plant = s.plant := by
  unfold latchOnce State.takeStatNumber
  split
  · rfl
  · dsimp only
    split
    · rw [sendStats_noRoom]
      · split <;> rfl
      · split <;> exact h
    · rfl

/-- Latching leaves a plant port without room as it is. -/
theorem latch_plant_noRoom (s : State) (f : StatusFlag) (h : s.plant.ownRoom = false) : (s.latch f).plant = s.plant := by
  unfold State.latch
  dsimp only
  split
  · rw [latchOnce_noRoom, latchOnce_noRoom _ _ h]
    rw [latchOnce_noRoom _ _ h]; exact h
  · exact latchOnce_noRoom _ _ h

/-- A generated telegram for the console port joins its OWN queue, or leaves it as it is. -/
@[simp] theorem sendEntry_console_console (s : State) (e : OwnEntry) :
    (s.sendEntry .console e).console = s.console.joinOwn e := by
  unfold State.sendEntry
  split
  · rfl
  · next h => rw [State.latch_console, joinOwn_noRoom _ _ (by simpa [State.port] using h)]

/-- A generated telegram for the plant port joins its OWN queue, or leaves it as it is. -/
@[simp] theorem sendEntry_plant_plant (s : State) (e : OwnEntry) :
    (s.sendEntry .plant e).plant = s.plant.joinOwn e := by
  unfold State.sendEntry
  split
  · rfl
  · next h =>
    have hr : s.plant.ownRoom = false := by simpa [State.port] using h
    rw [latch_plant_noRoom _ _ hr, joinOwn_noRoom _ _ hr]

@[simp] theorem sendEntry_plant_console (s : State) (e : OwnEntry) :
    (s.sendEntry .plant e).console = s.console := by
  unfold State.sendEntry
  split
  · rfl
  · simp

@[simp] theorem send_console_console (s : State) (t : Telegram) :
    (s.send .console t).console = s.console.joinOwn ⟨t, false⟩ := sendEntry_console_console ..

@[simp] theorem send_plant_plant (s : State) (t : Telegram) :
    (s.send .plant t).plant = s.plant.joinOwn ⟨t, false⟩ := sendEntry_plant_plant ..

@[simp] theorem send_plant_console (s : State) (t : Telegram) : (s.send .plant t).console = s.console :=
  sendEntry_plant_console ..

@[simp] theorem report_console (s : State) (r : Report) : (s.report r).console = s.console := by
  simp [State.report]

/-- The answer to a request joins the console port's OWN queue, or leaves it as it is. -/
@[simp] theorem answer_console (s : State) (f : Frame) (op : Nat) (r : Result) (d : List Rec) :
    (s.answer f op r d).console = s.console.joinOwn (respTo s f op r d) := send_console_console ..

/-! ## Both ports stay sound -/

theorem modPort_portsSound {s : State} (h : s.PortsSound) (p : PortId) {f : Port → Port}
    (hf : ∀ q : Port, q.Sound → (f q).Sound) : (s.modPort p f).PortsSound := by
  cases p
  · exact ⟨hf _ h.1, h.2⟩
  · exact ⟨h.1, hf _ h.2⟩

theorem sendStats_portsSound (f : StatusFlag) (l : List Nat) {s : State} (h : s.PortsSound) :
    (sendStats f l s).1.PortsSound := by
  induction l generalizing s with
  | nil => exact h
  | cons a l ih => exact ih (modPort_portsSound h .plant fun _ hq => joinOwn_sound hq _)

theorem latchOnce_portsSound (f : StatusFlag) {s : State} (h : s.PortsSound) : (latchOnce f s).1.PortsSound := by
  unfold latchOnce State.takeStatNumber
  split
  · exact h
  · dsimp only
    split
    · refine sendStats_portsSound _ _ ?_
      split <;> exact h
    · exact h

theorem latch_portsSound {s : State} (h : s.PortsSound) (f : StatusFlag) : (s.latch f).PortsSound := by
  unfold State.latch
  dsimp only
  split
  · exact latchOnce_portsSound _ (latchOnce_portsSound _ h)
  · exact latchOnce_portsSound _ h

theorem sendEntry_portsSound {s : State} (h : s.PortsSound) (p : PortId) (e : OwnEntry) :
    (s.sendEntry p e).PortsSound := by
  unfold State.sendEntry
  split
  · exact modPort_portsSound h p fun _ hq => joinOwn_sound hq e
  · exact latch_portsSound h _

theorem report_portsSound {s : State} (h : s.PortsSound) (r : Report) : (s.report r).PortsSound :=
  sendEntry_portsSound (s := { s.marked with arepSeq := wrapUp s.arepSeq }) h _ _

/-! ## The flags -/

theorem isLatched_or (s : State) (w : Half) (f : StatusFlag) :
    (s.latched ||| w).getLsbD f.position = (s.isLatched f || w.getLsbD f.position) := by
  simp [State.isLatched]

theorem bit_position (f : StatusFlag) : f.bit.getLsbD f.position = true := by cases f <;> decide

theorem sendStats_latched (f : StatusFlag) (l : List Nat) (s : State) : (sendStats f l s).1.latched = s.latched := by
  rw [sendStats_frame]

theorem latchOnce_isLatched (f : StatusFlag) (s : State) : (latchOnce f s).1.isLatched f = true := by
  unfold latchOnce
  split
  · assumption
  · dsimp only
    have h : (s.latched ||| f.bit).getLsbD f.position = true := by rw [isLatched_or, bit_position, Bool.or_true]
    split
    · unfold State.isLatched State.takeStatNumber; rw [sendStats_latched]; split <;> exact h
    · exact h

theorem latchOnce_keeps (f g : StatusFlag) (s : State) (h : s.isLatched g = true) :
    (latchOnce f s).1.isLatched g = true := by
  unfold latchOnce
  split
  · exact h
  · dsimp only
    have h' : (s.latched ||| f.bit).getLsbD g.position = true := by rw [isLatched_or, h, Bool.true_or]
    split
    · unfold State.isLatched State.takeStatNumber; rw [sendStats_latched]; split <;> exact h'
    · exact h'

/-- A latched flag reads yes (R191). -/
@[simp] theorem latch_isLatched (s : State) (f : StatusFlag) : (s.latch f).isLatched f = true := by
  unfold State.latch
  dsimp only
  split
  · exact latchOnce_keeps _ _ _ (latchOnce_isLatched _ _)
  · exact latchOnce_isLatched _ _

/-- No latching clears a flag (R191). -/
theorem latch_keeps (s : State) (f g : StatusFlag) (h : s.isLatched g = true) : (s.latch f).isLatched g = true := by
  unfold State.latch
  dsimp only
  split
  · exact latchOnce_keeps _ _ _ (latchOnce_keeps _ _ _ h)
  · exact latchOnce_keeps _ _ _ h

end Sys2Proof.Machine
end

