-- ==== Sys2Proof/Laws/Arrivals.lean ====
section
/-! SUPPORT. What a command finds: on a settled machine nothing is taken before it, a telegram is heard and handed to its
block, and a request that passes the intake checks reaches its owner with its console counted. -/

namespace Sys2Proof.Machine

theorem finishOpen_of_none (n : Nat) {s : State} (h : s.request = none) : finishOpen n s = s := by
  cases n <;> simp [finishOpen, closeRequest, h]

theorem takeDueReset_of_not {s : State} (h : s.resetWaits = false) : takeDueReset s = s := by
  simp [takeDueReset, resetDue, h]

theorem settled_iff (s : State) : s.settled = true ↔ s.request = none ∧ s.resetWaits = false := by
  simp [State.settled]

theorem ready_iff (s : State) : s.ready = true ↔ s.settled = true ∧ TickItem.time ∉ s.owed := by
  simp [State.ready]

/-- On a settled machine a command is taken on the state as it stands. -/
theorem enter_of_settled {s : State} (h : s.settled = true) : enter s = s.beginEvent := by
  obtain ⟨hr, hw⟩ := (settled_iff s).1 h
  simp [enter, settle, finishOpen_of_none _ hr, takeDueReset_of_not hw]

/-- A telegram at a ready machine finds it as `atArrival` says. -/
theorem arriveAt_of_ready {s : State} (h : s.ready = true) (ms : Nat) : arriveAt ms (enter s) = s.atArrival ms := by
  obtain ⟨hs, ho⟩ := (ready_iff s).1 h
  rw [enter_of_settled hs]
  simp [arriveAt, ho, State.beginEvent, State.atArrival]

@[simp] theorem atArrival_ownAddress (s : State) (ms : Nat) : (s.atArrival ms).ownAddress = s.ownAddress := rfl

@[simp] theorem atArrival_port (s : State) (ms : Nat) (p : PortId) : (s.atArrival ms).port p = s.port p := by
  cases p <;> rfl

/-- A telegram that passes the line checks is heard, then taken. -/
theorem receive_of_arrives {p : PortId} {s : State} {f : Frame} (h : arrives p s f = true) (ms : Nat)
    (k : Bool → State → State) :
    receive p ms f k s = k (liveness p f.source.toNat (s.atArrival ms)).2 (s.heard ms p f) := by
  simp only [arrives, Bool.and_eq_true] at h
  obtain ⟨⟨hr, hu⟩, hl⟩ := h
  simp [receive, hu, arriveAt_of_ready hr, hl, State.heard]

/-- A console's telegram changes its silence count alone. -/
theorem heard_console (s : State) (ms : Nat) (f : Frame) :
    s.heard ms .console f = (s.atArrival ms).modConsole f.source.toNat fun c => { c with silence := 0 } := by
  unfold State.heard liveness
  rw [modConsole_frame]
  rfl

theorem heard_eq_taken (s : State) (ms : Nat) (f : Frame) : s.heard ms .console f = s.taken ms 0 f := by
  rw [heard_console]; rfl

/-- The console of a request, as its owner finds it. -/
theorem lookup_taken (s : State) (ms n : Nat) (f : Frame) :
    lookup (s.taken ms n f).consoles f.source.toNat
      = (lookup s.consoles f.source.toNat).map fun c => { c with silence := 0, requests := c.requests + n } := by
  simp [State.taken, lookup_modConsole]

theorem lookup_taken_of_ne (s : State) (ms n : Nat) (f : Frame) {a : Nat} (h : a ≠ f.source.toNat) :
    lookup (s.taken ms n f).consoles a = lookup s.consoles a := by
  simp [State.taken, lookup_modConsole, h]

/-- A telegram from an ATTACHED console, addressed to the part, is handed on. -/
theorem fromConsole_of_attached {s : State} {f : Frame} {q : Console → Bool} (h : fromAttached s f q = true) (ms : Nat)
    (kind : Byte) (k : State → State) : fromConsole ms kind f k s = k (s.taken ms 0 f) := by
  simp only [fromAttached, Bool.and_eq_true, Option.any_eq_true] at h
  obtain ⟨⟨ha, ho⟩, c, hc, hq⟩ := h
  unfold fromConsole
  rw [receive_of_arrives ha]
  simp only [heard_eq_taken]
  rw [if_pos (by rw [lookup_taken, hc]; rfl), if_pos]
  have : (s.taken ms 0 f).ownAddress = s.ownAddress := by unfold State.ownAddress State.taken; simp
  simpa [toOwn, this] using ho

/-- An ATTACHED console is not attached again. -/
theorem silentAttach_taken {s : State} {f : Frame} {q : Console → Bool} (h : fromAttached s f q = true) (ms n : Nat) :
    silentAttach f.source.toNat (s.taken ms n f) = s.taken ms n f := by
  simp only [fromAttached, Bool.and_eq_true, Option.any_eq_true] at h
  obtain ⟨-, c, hc, hq⟩ := h
  unfold silentAttach State.taken
  rw [modConsole_modConsole]
  have ha : c.attached = true := hq.1
  unfold State.modConsole
  simp only [State.atArrival_consoles, hc]
  rw [if_pos (by simpa [Console.attached] using ha)]

/-- The console of a request that has been handed on. -/
theorem lookup_of_fromAttached {s : State} {f : Frame} {q : Console → Bool} (h : fromAttached s f q = true) :
    ∃ c, lookup s.consoles f.source.toNat = some c ∧ c.attached = true ∧ q c = true := by
  simp only [fromAttached, Bool.and_eq_true, Option.any_eq_true] at h
  obtain ⟨-, c, hc, hq⟩ := h
  exact ⟨c, hc, hq.1, hq.2⟩

/-- An uncounted request that passes checks 1 to 3 of R92 reaches its owner. -/
theorem intakeLogged_taken {s : State} {f : Frame} {op : Nat} (h : requestFrom s f op = true) (ms : Nat)
    (v : View) (k : Requester → State → State) :
    intakeLogged f v k (s.taken ms 0 f) = k (senderOf f op) (s.taken ms 0 f) := by
  obtain ⟨c, hc, ha, hq⟩ := lookup_of_fromAttached h
  simp only [seatedAs, Bool.and_eq_true, beq_iff_eq] at hq
  obtain ⟨⟨hs, ho⟩, hf⟩ := hq
  unfold intakeLogged intakeSeat
  rw [lookup_taken, hc]
  have ha' : Console.attached { c with silence := 0, requests := c.requests + 0 } = true := ha
  have hs' : Console.hasSeat { c with silence := 0, requests := c.requests + 0 } f.seat.toNat = true := hs
  have ho' : Console.seatOp { c with silence := 0, requests := c.requests + 0 } f.seat.toNat = some op := ho
  dsimp only [Option.map_some]
  rw [ha', hs']
  simp only [Bool.not_true, Bool.false_eq_true, if_false]
  rw [ho']
  simp only [hf, if_true, senderOf]

/-- A counted request that passes the intake checks reaches its owner, counted. -/
theorem intakeCounted_taken {s : State} {f : Frame} {op : Nat} (h : countedFrom s f op = true) (ms : Nat)
    (v : View) (k : Requester → State → State) :
    intakeCounted f v k (s.taken ms 0 f) = k (senderOf f op) (s.taken ms 1 f) := by
  obtain ⟨c, hc, ha, hq⟩ := lookup_of_fromAttached h
  simp only [Bool.and_eq_true] at hq
  obtain ⟨hseat, hrate⟩ := hq
  have hr : requestFrom s f op = true := by
    simp only [countedFrom, requestFrom, fromAttached, Bool.and_eq_true, Option.any_eq_true] at h ⊢
    obtain ⟨h1, c', h2, h3⟩ := h
    exact ⟨h1, c', h2, h3.1, h3.2.1⟩
  unfold intakeCounted
  rw [intakeLogged_taken hr]
  simp only [senderOf, lookup_taken, hc, Option.map_some]
  simp only [withinRate, Bool.and_eq_true, beq_iff_eq, decide_eq_true_eq] at hrate
  have hp : (s.taken ms 0 f).tables = s.tables := by unfold State.taken; simp
  have hcount : Console.countRequest { c with silence := 0, requests := c.requests + 0 } s.tables.params.rateLimit
      = ({ c with silence := 0, requests := c.requests + 1 }, true) := by
    unfold Console.countRequest
    dsimp only
    rw [if_neg (by omega), if_neg (by omega)]
  rw [hp, hcount]
  simp only [if_true]
  congr 1
  unfold State.taken
  rw [modConsole_modConsole]
  unfold State.modConsole
  simp only [State.atArrival_consoles, hc]

/-- A counted operator request reaches its owner. -/
theorem oreq_of_counted {s : State} {f : Frame} {op : Nat} (h : countedFrom s f op = true) (ms : Nat)
    (k : Requester → State → State) : oreq ms f k s = k (senderOf f op) (s.taken ms 1 f) := by
  unfold oreq
  rw [fromConsole_of_attached h, silentAttach_taken h, intakeCounted_taken h]

/-- A counted handover request reaches its step's checks. -/
theorem hovr_of_counted {s : State} {f : Frame} {op : Nat} (h : countedFrom s f op = true) (ms : Nat) (code : Byte)
    (l : List Byte → Bool) (k : List Byte → Requester → State → State) :
    hovr ms code l f k s = hovrStep code l f k (senderOf f op) (s.taken ms 1 f) := by
  unfold hovr
  rw [fromConsole_of_attached h, silentAttach_taken h, intakeCounted_taken h]

/-! ## What the owner reads of the state is as before the arrival -/

@[simp] theorem taken_tables (s : State) (ms n : Nat) (f : Frame) : (s.taken ms n f).tables = s.tables := by
  unfold State.taken; simp
@[simp] theorem taken_slots (s : State) (ms n : Nat) (f : Frame) : (s.taken ms n f).slots = s.slots := by
  unfold State.taken; simp
@[simp] theorem taken_areas (s : State) (ms n : Nat) (f : Frame) : (s.taken ms n f).areas = s.areas := by
  unfold State.taken; simp
@[simp] theorem taken_queue (s : State) (ms n : Nat) (f : Frame) : (s.taken ms n f).queue = s.queue := by
  unfold State.taken; simp
@[simp] theorem taken_dyn (s : State) (ms n : Nat) (f : Frame) : (s.taken ms n f).dyn = s.dyn := by
  unfold State.taken; simp
@[simp] theorem taken_shelf (s : State) (ms n : Nat) (f : Frame) : (s.taken ms n f).shelf = s.shelf := by
  unfold State.taken; simp
@[simp] theorem taken_controllers (s : State) (ms n : Nat) (f : Frame) :
    (s.taken ms n f).controllers = s.controllers := by unfold State.taken; simp
@[simp] theorem taken_commands (s : State) (ms n : Nat) (f : Frame) : (s.taken ms n f).commands = s.commands := by
  unfold State.taken; simp
@[simp] theorem taken_records (s : State) (ms n : Nat) (f : Frame) : (s.taken ms n f).records = s.records := by
  unfold State.taken; simp
@[simp] theorem taken_retained (s : State) (ms n : Nat) (f : Frame) : (s.taken ms n f).retained = s.retained := by
  unfold State.taken; simp
@[simp] theorem taken_plant (s : State) (ms n : Nat) (f : Frame) : (s.taken ms n f).plant = s.plant := by
  unfold State.taken; simp
@[simp] theorem taken_console (s : State) (ms n : Nat) (f : Frame) : (s.taken ms n f).console = s.console := by
  unfold State.taken; simp
@[simp] theorem taken_stamp (s : State) (ms n : Nat) (f : Frame) : (s.taken ms n f).stamp = s.stampAt ms := by
  unfold State.taken State.stampAt State.stamp; rw [State.modConsole_time]

end Sys2Proof.Machine
end

