-- ==== Sys2Proof/Laws/Events.lean ====
section
/-! SUPPORT. The parts of an event at the alarm table: which slot changes are silenced and sound no horn,
the slot change of a chatter release, and what an event may change in a handover record with the counts it reports. -/

namespace Sys2Proof.Machine

/-! ## Silenced changes (R29, R100) -/

/-- A change with no slot is never of the silenced sort (R100). -/
theorem silencedChange_of_no_slot (s : State) (c : SlotChange) (h : c.slot = none) : silencedChange s c = false := by
  unfold silencedChange; rw [h]; split <;> simp_all

/-- Nor is one that leaves no slot (R100). -/
theorem silencedChange_of_freed (s : State) (c : SlotChange)
    (h : c.kind = .free ∨ c.kind = .evict ∨ c.kind = .discard) : silencedChange s c = false := by
  unfold silencedChange; obtain h | h | h := h <;> rw [h]

/-- What a silenced change concerns: a slot of its point that carries SHELVED, CHATTER or SUPPRESSED (R29). -/
theorem slot_of_silencedChange (s : State) (c : SlotChange) (h : silencedChange s c = true) :
    ∃ i sl, c.slot = some i ∧ lookup s.slots i = some sl ∧ sl.point = c.point ∧ sl.audible = false := by
  cases hi : c.slot with
  | none => rw [silencedChange_of_no_slot s c hi] at h; cases h
  | some i =>
    unfold silencedChange at h
    cases hl : lookup s.slots i with
    | none => cases hk : c.kind <;> simp [hk, hi, hl] at h
    | some sl =>
      refine ⟨i, sl, rfl, hl, ?_⟩
      cases hk : c.kind <;> first | (simp [hk, hi] at h; done) | simpa [hk, hi, hl] using h

/-- A change whose slot carries SHELVED, CHATTER or SUPPRESSED after the event is silenced, unless it has left no slot
(R29, R100); a ringback too. -/
theorem silencedChange_of_inaudible (s : State) (c : SlotChange) (i : Nat) (sl : Slot) (hi : c.slot = some i)
    (hl : lookup s.slots i = some sl) (hp : sl.point = c.point) (ha : sl.audible = false) (hf : c.kind ≠ .free)
    (he : c.kind ≠ .evict) (hd : c.kind ≠ .discard) : silencedChange s c = true := by
  unfold silencedChange
  cases hk : c.kind <;> simp_all

/-- A slot that carries SHELVED, CHATTER or SUPPRESSED is no qualifying alarm (R78). -/
theorem not_qualifies_of_inaudible (s : State) (a : Nat) (c : Console) (sl : Slot) (h : sl.audible = false) :
    qualifies s a c sl = false := by
  simp [qualifies, h]

/-- What sounds a horn: a change of the event whose slot is a qualifying alarm after it (R78 step 1). -/
theorem qualifies_of_sounds (before after : State) (cs : List SlotChange) (a : Nat) (c : Console)
    (h : sounds before after cs a c = true) :
    ∃ x ∈ cs, ∃ i sl, x.slot = some i ∧ lookup after.slots i = some sl ∧ qualifies after a c sl = true := by
  obtain ⟨x, hx, h⟩ := List.any_eq_true.1 h
  cases hi : x.slot with
  | none => simp [hi] at h
  | some i =>
    cases hl : lookup after.slots i with
    | none => simp [hi, hl] at h
    | some sl =>
      simp only [hi, hl, Bool.and_eq_true] at h
      exact ⟨x, hx, i, sl, hi, hl, h.1⟩

/-! ## The slot change of a chatter release (R52) -/

/-- The release of a point whose slot carries CHATTER is one OVERLAY change, marked as a chatter release; another changes
no slot. -/
theorem clearChatter_cases (p : Nat) (s : State) :
    (∃ i sl, s.slotOf p = some (i, sl) ∧ sl.chatter = true
      ∧ clearChatter p { s := s } = { s := s.setSlot i { sl with chatter := false }, changes := [
          { kind := .overlay, point := sl.point, area := (s.pointDef sl.point).area, slot := some i
            oldState := some sl.state, newState := some sl.state, oldOcc := some sl.occ, newOcc := some sl.occ
            released := true }] })
    ∨ ((∀ i sl, s.slotOf p = some (i, sl) → sl.chatter = false) ∧ clearChatter p { s := s } = { s := s }) := by
  unfold clearChatter
  cases h : s.slotOf p with
  | none => exact .inr ⟨by simp, rfl⟩
  | some x =>
    obtain ⟨i, sl⟩ := x
    cases hc : sl.chatter with
    | true => exact .inl ⟨i, sl, rfl, hc, by simp [hc, moveSlot, Ev.push, Ev.markChatterRelease]⟩
    | false => exact .inr ⟨by rintro _ _ ⟨⟩; exact hc, by simp [hc]⟩

/-! ## Handover records (R120, R127) -/

/-- The counts that a HANDOVER notice reports are those of the record's list. -/
theorem Handover.tally_eq (h : Handover) : h.tally = countsOf h.list := by
  simp [Handover.tally, countsOf, Handover.reviewed, Handover.resolved, Handover.unreviewed, List.countP_eq_length_filter]

/-- A record but for its review list and INCOMPLETE, which alone an alarm event may change. -/
def Handover.bare (h : Handover) : Handover := { h with list := [], incomplete := false }

theorem resetEntry_bare (s : State) (p occ : Nat) (r : Reviewed) : (resetEntry s p occ r).1.bare = r.1.bare := rfl

theorem resolveEntry_bare (p : Nat) (r : Reviewed) : (resolveEntry p r).1.bare = r.1.bare := by
  unfold resolveEntry; split
  · split <;> rfl
  · rfl

theorem appendEntry_bare (s : State) (p occ : Nat) (r : Reviewed) : (appendEntry s p occ r).1.bare = r.1.bare := by
  unfold appendEntry; split <;> rfl

theorem reviewChange_bare (s : State) (c : SlotChange) (r : Reviewed) : (reviewChange s c r).1.bare = r.1.bare := by
  unfold reviewChange
  split
  · split
    · exact resetEntry_bare ..
    · split
      · rfl
      all_goals first | rfl | exact resolveEntry_bare .. | (split <;> first | rfl | exact resolveEntry_bare ..)
  · split
    · exact appendEntry_bare ..
    · rfl

theorem reviewShelf_bare (s : State) (x : ShelfEvent) (r : Reviewed) : (reviewShelf s x r).1.bare = r.1.bare := by
  cases x with
  | shelved p =>
    unfold reviewShelf; dsimp only; split
    · exact resetEntry_bare ..
    · split
      · exact appendEntry_bare ..
      · rfl
  | unshelved p advanced =>
    unfold reviewShelf; dsimp only; split
    · split
      · exact resetEntry_bare ..
      · split
        · exact resolveEntry_bare ..
        · rfl
    · rfl

/-- An alarm event keeps every field of a record but its list and INCOMPLETE. -/
theorem reviewEvent_bare (s : State) (cs : List SlotChange) (xs : List ShelfEvent) (h : Handover) :
    (reviewEvent s cs xs h).1.bare = h.bare := by
  have fold {α : Type} (f : Reviewed → α → Reviewed) (hf : ∀ r a, (f r a).1.bare = r.1.bare) :
      ∀ (l : List α) (r : Reviewed), (l.foldl f r).1.bare = r.1.bare := by
    intro l
    induction l with
    | nil => intro r; rfl
    | cons a l ih => intro r; rw [List.foldl_cons, ih, hf]
  unfold reviewEvent
  rw [fold _ fun r x => reviewShelf_bare s x r, fold _ fun r c => reviewChange_bare s c r]

end Sys2Proof.Machine
end

