-- ==== Sys2Proof/Tests/Slice0.lean ====
section
/-! SUPPORT. Tests: an ill-formed term for each check of WellFormed, worked values from the spec, and for each statement
with hypotheses a concrete state and operands that meet them, clause by clause. -/

namespace Sys2Proof.Tests

-- The evaluations below run one after another: side by side they would each hold a thread of their own.
set_option Elab.async false

open Sys2Proof Sys2Proof.Machine

/-! ## A small mill -/

/-- The same right level in every area. -/
def rights (l : RightLevel) : List RightLevel := List.replicate 16 l

/-- A console's station entry with every class and feature on offer. -/
def desk (address : Nat) : Station := ⟨address, .console, some .console, ⟨true, true, true⟩, ⟨true, true, true⟩, .low⟩

/-- A station of the plant segment. -/
def plantStation (address : Nat) (k : StationKind) : Station := ⟨address, k, some .plant, { view := true }, {}, .low⟩

/-- Four points in areas 7 and 3, four operators, two controllers, three consoles, an engineering station and the time
master. -/
def tables : Tables where
  points := [
    (10, { defined := true, area := 7, controller := 12, priority := .high, latch := .latched, shelveLimit := 60 }),
    (11, { defined := true, area := 7, controller := 12, priority := .urgent, latch := .ringback }),
    (12, { defined := true, area := 7, controller := 12, shelveLimit := 30, suppressible := true }),
    (13, { defined := true, area := 3, controller := 13, priority := .medium, latch := .ringback, shelveLimit := 480 })]
  roster := [(0, ⟨204, true, 1000, .operator, rights .operate⟩), (1, ⟨301, true, 2000, .shiftLead, rights .operate⟩),
    (2, ⟨400, true, 3000, .engineer, rights .view⟩), (3, ⟨205, true, 1001, .observer, rights .none⟩)]
  stations := [(0, plantStation 12 .controller), (1, desk 49), (2, desk 47), (3, plantStation 5 .engineering),
    (4, plantStation 9 .timeMaster), (5, plantStation 13 .controller), (6, desk 50)]

/-- An ATTACHED console of class FULL with every feature. -/
def fullConsole (op : Nat) : Console := { cls := some .full, features := ⟨true, true, true⟩, seat1 := some op }

def noon : Stamp := ⟨false, 1000, 0⟩

/-- Operator 204 holds area 7 at console 49, 301 sits at console 47, console 50 is DETACHED; controller 12 is LIVE and
13 STALE; three alarms stand in area 7. -/
def mill : State := { State.reset with
  tables := tables
  memory := { copy := tables, valid := true }
  latched := 0
  slots := [(0, ⟨10, .activeUnack, 1, noon, noon, none, false, false, false, false⟩),
    (1, ⟨11, .returnedUnack, 3, noon, noon, none, false, false, false, false⟩),
    (2, ⟨12, .activeAcked, 2, noon, noon, some 204, false, false, false, false⟩)]
  areas := [(7, { authority := .held, holder := some ⟨204, 49, 1⟩, load := 100 })]
  consoles := [(47, fullConsole 301), (49, fullConsole 204), (50, {})]
  controllers := [(12, { live := true, beenLive := true }), (13, {})]
  time := { state := .locked, sec := 1000, high := noon } }

/-- A telegram to the part. -/
def tel (source seat : Byte) (op : Half) (recs : List Rec) : Frame :=
  { dest := 254#8, source := source, seat := seat, seq := 880#16, operator := op, recs := recs }

/-- A request of operator 204 at console 49, seat 1; of 301 at console 47, seat 1. -/
def by204 (recs : List Rec) : Frame := tel 49#8 1#8 204#16 recs
def by301 (recs : List Rec) : Frame := tel 47#8 1#8 301#16 recs

/-- A telegram of controller 12. -/
def by12 (recs : List Rec) : Frame := tel 12#8 0#8 0#16 recs

/-- An open MREQ with one record left. -/
def asked (r : Rec) (selected : Option TableId := none) (s : State := mill) : State := { s with
  request := some { source := 5#8, seq := 1#16, operator := 400#16, selected := selected, todo := [r]
                    results := [⟨0x90#8, [0#8]⟩] } }

/-- The request of `asked`. -/
def request (r : Rec) (selected : Option TableId := none) : Request :=
  { source := 5#8, seq := 1#16, operator := 400#16, selected := selected, todo := [r], results := [⟨0x90#8, [0#8]⟩] }

/-- A record OFFERED by 204 to 301 for area 7. -/
def offered : Handover :=
  { number := 5, kind := .shift, outOp := 204, outConsole := 49, outSeat := 1, inOp := 301, inConsole := 47, inSeat := 1
    areas := [7], state := .offered, attendLeft := 120, left := 900, list := [⟨10, 1, .high, .unreviewed⟩]
    incomplete := false }

/-- The mill with a record open on area 7. -/
def handing (h : Handover) : State := { mill with
  areas := [(7, { authority := .held, holder := some ⟨204, 49, 1⟩, openRecord := some h.number })], records := [h] }

/-- A command outstanding to controller 12. -/
def sent (ticks : Nat) : Command := ⟨42, 49, 1, 204, 880#16, 12, 10, ticks⟩

/-- The state after a step. -/
def after (c : Instr) (s : State) : State :=
  match exec c s with
  | .next t => t
  | .fault f => nomatch f
  | .refused _ => s

/-! ## Well-formedness: an ill-formed term for each check -/

/-- 1000 milliseconds after the tick is the next tick (R161). -/
theorem test_wf_elapsed : Instr.wf (.linkDown 1000 .plant) = false := by decide
/-- A telegram from station 0 (R170). -/
theorem test_wf_source : Instr.wf (.prep 0 (tel 0#8 0#8 0#16 [])) = false := by decide
/-- Seventeen records (R170). -/
theorem test_wf_records : Instr.wf (.prep 0 (by12 (List.replicate 17 ⟨0x01#8, []⟩))) = false := by decide
/-- A record of 256 bytes (R170). -/
theorem test_wf_record_length : Instr.wf (.prep 0 (by12 [⟨0x01#8, List.replicate 256 0#8⟩])) = false := by
  decide +kernel
/-- A body of more than 1200 bytes (R170). -/
theorem test_wf_body : Instr.wf (.prep 0 (by12 (List.replicate 5 ⟨0x01#8, List.replicate 250 0#8⟩))) = false := by
  decide +kernel
/-- A SHELVE record in an ACK (R177). -/
theorem test_wf_ack_record : Instr.wf (.ack 0 (by204 [⟨0x23#8, [0#8, 10#8, 0#8, 1#8]⟩])) = false := by decide
/-- An ACK without a record is a SILENCE (R177). -/
theorem test_wf_ack_empty : Instr.wf (.ack 0 (by204 [])) = false := by decide
/-- A SILENCE carries no record (R80). -/
theorem test_wf_silence : Instr.wf (.silence 0 (by204 [⟨0x21#8, []⟩])) = false := by decide
/-- An OFFER record in an ATTEND (R178). -/
theorem test_wf_attend : Instr.wf (.attend 0 (by204 [⟨0x41#8, []⟩])) = false := by decide
/-- A page number in a PAGE_ALL, and ALL in a PAGE (R73). -/
theorem test_wf_page_all : Instr.wf (.pageAll 0 (by204 [⟨0x34#8, [7#8, 0#8]⟩])) = false := by decide
theorem test_wf_page : Instr.wf (.page 0 (by204 [⟨0x34#8, [7#8, 0xFF#8]⟩])) = false := by decide
/-- PREP is never forwarded, an unnamed kind never discarded (R172). -/
theorem test_wf_pass_through : Instr.wf (.passThrough 0 .plant 0x10#8 (by12 [])) = false := by decide
theorem test_wf_discarded : Instr.wf (.discardedTelegram 0 .plant 0x77#8 (by12 [])) = false := by decide
/-- Area 16, point 8192, station 0 and 255, record 0 (R1, R120, R185). -/
theorem test_wf_area : Instr.wf (.floodExit 16) = false := by decide
theorem test_wf_point : Instr.wf (.chatterRelease 8192) = false := by decide
theorem test_wf_address_low : Instr.wf (.rateHoldEnd 0) = false := by decide
theorem test_wf_address_high : Instr.wf (.rateHoldEnd 255) = false := by decide
theorem test_wf_number : Instr.wf (.notAttended 0) = false := by decide

/-! ## Worked values of the spec -/

/-- The note of R3: chatter on 40 and chatter off 30 store chatter off 24. -/
theorem test_clamp_chatter : (clampPoint { defined := true, chatterOn := 40, chatterOff := 30 }).chatterOff = 24 := by
  decide
/-- The note of R3: URGENT with a shelve limit of 120 stores 0. -/
theorem test_clamp_urgent :
    (clampPoint { defined := true, priority := .urgent, shelveLimit := 120 }).shelveLimit = 0 := by decide
/-- Section 3.6: a load of 768 decays by 12, one of 701 by 10, one of 252 by 4 over four ticks of 16. -/
theorem test_decay_768 : decayed 768 = 756 := by decide
theorem test_decay_701 : decayed 701 = 691 := by decide
theorem test_decay_one : decayed 1 = 0 := by decide
/-- R8 and R16: an occurrence goes from 65535 to 1, a generation from 65535 to 0. -/
theorem test_occurrence_wraps : wrapUpToOne 65535 = 1 := by decide
theorem test_generation_wraps : wrapUp 65535 = 0 := by decide
/-- R9: a timestamp with UNSYNC is older than any without it. -/
theorem test_unsync_is_older : Stamp.older ⟨true, 9, 0⟩ ⟨false, 1, 0⟩ = true := by decide
/-- Section 10.2: two-byte fields stand most significant byte first. -/
theorem test_bytes_of_880 : b2 880 = [0x03#8, 0x70#8] := by decide
/-- R191: SLOT_EVICTION is flag 4. -/
theorem test_eviction_bit : StatusFlag.bit .slotEviction = 0x0010#16 := by decide

/-! ## One step of a command -/

/-- R10, R26: the first ACTIVE report of point 13, with no slot, is an onset in the lowest free slot. -/
theorem test_prep_onset :
    (lookup (after (.prep 0 (tel 13#8 0#8 0#16 [⟨0x01#8, [0#8, 13#8, 1#8]⟩])) mill).slots 3).map (·.state)
      = some .activeUnack := by decide +kernel
/-- R45: it adds the weight of MEDIUM to the load of its area. -/
theorem test_prep_load :
    ((after (.prep 0 (tel 13#8 0#8 0#16 [⟨0x01#8, [0#8, 13#8, 1#8]⟩])) mill).area 3).load = 16 := by decide +kernel
/-- The acknowledged slot of point 13, suppressed at its onset in area 3 in FLOOD; its NORMAL report is a ringback. -/
def suppressed13 : State := { mill with
  slots := [(0, ⟨13, .activeAcked, 1, noon, noon, some 204, false, false, true, false⟩)]
  areas := [(3, { flood := true, load := 800 })] }
def rung13 : State := after (.prep 0 (tel 13#8 0#8 0#16 [⟨0x01#8, [0#8, 13#8, 0#8]⟩])) suppressed13
/-- R14: a ringback in FLOOD leaves SUPPRESSED as it is. -/
theorem test_ringback_keeps_suppressed :
    (lookup rung13.slots 0).map (fun x => (x.state, x.suppressed)) = some (.returnedUnack, true) := by decide +kernel
/-- R29, R78, R100: it is then silent. -/
theorem test_suppressed_ringback_is_silent :
    (lookup rung13.consoles 49).map (fun c => (c.horn, c.notices)) = some (.quiet, []) := by decide +kernel
/-- R46: in FLOOD a ringback of a slot not SUPPRESSED is annunciated and sounds the horn, also of a LOW point that is
suppressible. -/
theorem test_ringback_in_flood_sounds :
    (lookup (after (.prep 0 (tel 13#8 0#8 0#16 [⟨0x01#8, [0#8, 13#8, 0#8]⟩])) { mill with
      tables := { tables with points :=
        [(13, { defined := true, area := 3, controller := 13, latch := .ringback, suppressible := true })] }
      slots := [(0, ⟨13, .activeAcked, 1, noon, noon, some 204, false, false, false, false⟩)]
      areas := [(3, { flood := true, load := 800 })] }).consoles 49).map (fun c => (c.horn, c.notices))
      = some (.sounding, [.newAlarm 3 1 0 0 0 1 0, .horn .sounding]) := by decide +kernel
/-- R100: a change that leaves no slot tells of its area, also where its point is shelved. -/
theorem test_free_of_shelved_tells :
    (lookup (after (.prep 0 (by12 [⟨0x01#8, [0#8, 12#8, 0#8]⟩])) { mill with
      slots := [(2, ⟨12, .activeAcked, 2, noon, noon, some 204, true, false, false, false⟩)]
      shelf := [⟨12, 204, noon, 600, false⟩] }).consoles 49).map (·.notices)
      = some [.newAlarm 7 1 0 0 0 0 0] := by decide +kernel
/-- R52: the slot change of a chatter release is marked as one. -/
theorem test_chatter_release_marked :
    ((clearChatter 12 { s := { mill with
      slots := [(2, ⟨12, .activeUnack, 2, noon, noon, none, false, true, false, false⟩)] } }).changes.map
        fun c => (c.kind, c.released)) = [(.overlay, true)] := by decide +kernel
/-- R120: a HANDOVER notice reports the counts of the review list. -/
theorem test_handover_notice_counts :
    (lookup (after (.attend 0 (by301 [⟨0x42#8, b2 5⟩])) (handing { offered with
      list := [⟨10, 1, .high, .unreviewed⟩, ⟨12, 2, .low, .resolved⟩] })).consoles 49).map (·.notices)
      = some [.handover 5 .shift .review none ⟨2, 0, 1, 1⟩] := by decide +kernel
/-- R58: an acknowledgement of another occurrence changes no slot. -/
theorem test_ack_stale : (after (.ack 0 (by204 [⟨0x21#8, [0#8, 10#8, 0#8, 2#8]⟩])) mill).slots = mill.slots := by
  decide +kernel
/-- R10 to R12: an acknowledged active alarm is ACTIVE_ACKED. -/
theorem test_ack_ok :
    (lookup (after (.ack 0 (by204 [⟨0x21#8, [0#8, 10#8, 0#8, 1#8]⟩])) mill).slots 0).map (·.state)
      = some .activeAcked := by decide +kernel
/-- R57, R12: a SHIFT_LEAD acknowledges the returned URGENT alarm of an area another holds, and its slot is freed. -/
theorem test_ack_urgent_by_shift_lead :
    lookup (after (.ack 0 (by301 [⟨0x21#8, [0#8, 11#8, 0#8, 3#8]⟩])) mill).slots 1 = none := by decide +kernel
/-- R66: a shelve of 90 minutes at a limit of 60 is granted 60, 3600 ticks. -/
theorem test_shelve_clamped :
    ((after (.shelve 0 (by204 [⟨0x23#8, [0#8, 10#8, 0#8, 90#8]⟩])) mill).shelf.map (·.ticks)) = [3600] := by
  decide +kernel
/-- R113: a HELD area is not another's to claim. -/
theorem test_claim_held : ((after (.claim 0 (by301 [⟨0x26#8, [7#8]⟩])) mill).area 7).holder
    = some ⟨204, 49, 1⟩ := by decide +kernel
/-- R114: an UNHELD one is. -/
theorem test_claim_unheld : ((after (.claim 0 (by301 [⟨0x26#8, [3#8]⟩])) mill).area 3).holder
    = some ⟨301, 47, 1⟩ := by decide +kernel
/-- R108: the area of a console that falls silent is in GRACE for 60 ticks. -/
theorem test_console_lost :
    ((after (.consoleSilenceExpiry 49) { mill with
      owed := [.consoleSilence 49], consoles := [(47, fullConsole 301), (49, { fullConsole 204 with silence := 2 })]
    }).area 7).graceLeft = 60 := by decide +kernel
/-- Section 8, worked example: the tag counter stands at 41 and the command takes tag 42. -/
theorem test_opcmd_tag :
    (after (.opcmd 0 (by204 [⟨0x29#8, [0#8, 10#8]⟩])) { mill with tagCounter := 41 }).commands.map (·.tag) = [42] := by
  decide +kernel
/-- R155: unconfirmed, it ends and counts for its controller. -/
theorem test_confirm_limit :
    (lookup (after .confirmLimitExpiry { mill with commands := [sent 1], owed := [.confirm 42] }).controllers 12).map
      (·.slow) = some 1 := by decide +kernel
/-- R47: a tick takes a load of 100 to 99. -/
theorem test_tick_load : ((after .tick mill).area 7).load = 99 := by decide +kernel
/-- R165: without a mark the time value gains one second at a tick. -/
theorem test_tick_time : (after .tick mill).time.sec = 1001 := by decide +kernel
/-- R98: the holder of an area HELD is not logged out. -/
theorem test_logout_holder :
    ((lookup (after (.logout 0 (by204 [])) mill).consoles 49).bind fun c => c.seatOp 1) = some 204 := by
  decide +kernel
/-- R98: another operator is. -/
theorem test_logout :
    ((lookup (after (.logout 0 (by301 [])) mill).consoles 47).bind fun c => c.seatOp 1) = none := by decide +kernel
/-- R184: a READ before any SELECT is answered NO_SELECT (0x40). -/
theorem test_read_no_select :
    ((after .mreqRead (asked ⟨0x82#8, [0#8, 0#8]⟩)).plant.sending.map fun x => match x with
      | .own e => e.telegram.frame.recs | .forward t => t.frame.recs)
      = some [⟨0x90#8, [0x00#8]⟩, ⟨0x90#8, [0x40#8]⟩] := by decide +kernel
/-- Log 78: a READ of a wrong length is BAD_REQUEST (0x02) also before any SELECT. -/
theorem test_read_wrong_length : (readOp (request ⟨0x82#8, [0#8]⟩) [0#8] mill).code = 0x02#8 := by decide +kernel
/-- Log 77: with bits 1 to 7 of the options set and FORCE not, a WRITE to a point with a slot is still IN_USE (0x41, R4). -/
theorem test_write_options_bits :
    (writeOp .points writePoint (request ⟨0x83#8, []⟩) [0#8, 10#8, 0xFE#8, 1#8, 1#8, 0#8] mill).code
      = 0x41#8 := by decide +kernel

/-! ## Records, requests and states of the witnesses -/

def one (c : Byte) (d : List Byte) : List Rec := [⟨c, d⟩]
def ackRec (p n : Nat) : List Rec := one 0x21#8 (b2 p ++ b2 n)
def pairRecs (l : List (Nat × Nat)) : List Rec := l.map fun x => ⟨0x22#8, b2 x.1 ++ b2 x.2⟩
def shelveRec (p m : Nat) : List Rec := one 0x23#8 (b2 p ++ b2 m)
def unshelveRec (p : Nat) : List Rec := one 0x24#8 (b2 p)
def claimRec (a : Nat) : List Rec := one 0x26#8 (b1 a)
def clearRec (a : Nat) : List Rec := one 0x27#8 (b1 a)
def opRecs (p : Nat) (rest : List Rec) : List Rec := ⟨0x29#8, b2 p⟩ :: rest
def pageRec (a n : Nat) : List Rec := one 0x34#8 (b1 a ++ b1 n)
def reportRec (p n : Nat) : List Byte := b2 p ++ b1 n
def snapRec (marker p : Nat) : List Byte := b1 marker ++ b2 p
def credential (op code : Nat) : List Byte := b2 op ++ b4 code
def offerData (k op areas : Nat) : List Byte := b1 k ++ b2 op ++ b2 areas
def pairsData (page : Nat) (l : List (Nat × Nat)) : List Byte :=
  b2 5 ++ b1 page ++ l.flatMap fun x => b1 x.1 ++ b2 x.2
def markRecs (sec ms : Nat) : List Rec := one 0x02#8 (b4 sec ++ b2 ms)
def confirmed (code : Byte) : Frame := by12 (one 0x28#8 (b2 42 ++ [code, 9#8]))
def loginAt (console seat : Byte) (op code : Nat) : Frame := tel console seat 0#16 (one 0x31#8 (credential op code))
def mreqOf (source : Byte) (recs : List Rec) : Frame := tel source 0#8 400#16 recs
def by205 (recs : List Rec) : Frame := tel 49#8 1#8 205#16 recs

/-- An item, a WRITE and its open MREQ. -/
def it (code : Nat) (value : List Byte) : List Byte := b1 code ++ b1 value.length ++ value
def writeData (i flags : Nat) (items : List Byte) : List Byte := b2 i ++ b1 flags ++ items
def writing (t : TableId) (d : List Byte) (s : State := mill) : State := asked ⟨0x83#8, d⟩ (some t) s
def writeReq (t : TableId) (d : List Byte) : Request := request ⟨0x83#8, d⟩ (some t)
def itemsOf (t : TableId) (d : List Byte) : List Item := (checkedItems t (d.drop 3)).getD []

/-- Point items of area 7 and controller 12 with a priority code, a shelve limit of 120 and chatter 40 and 30; area
items out of range; part items out of range; station items. -/
def pointItems (priority : Nat) : List Byte :=
  it 1 [1#8] ++ it 2 [7#8] ++ it 3 [12#8] ++ it 4 (b1 priority) ++ it 5 [1#8] ++ it 6 (b2 120) ++ it 7 [40#8]
    ++ it 8 [30#8] ++ it 9 [1#8]
def areaItems : List Byte := it 1 (b2 10) ++ it 2 (b2 5000) ++ it 3 (b2 1) ++ it 4 (b2 9999) ++ it 6 (b2 0)
def partItems : List Byte := it 1 (b1 255) ++ it 2 (b1 0) ++ it 3 (b2 0x123) ++ it 5 (b2 0)
def stationItems (address kind side : Nat) : List Byte := it 1 (b1 address) ++ it 2 (b1 kind) ++ it 3 (b1 side)
def newStation (items : List Byte) : Station :=
  (stationWritten none (itemsOf .stations (writeData 95 0 items))).getD (desk 1)

/-- An OWN entry, and a telegram of a kind the part does not name. -/
def note : OwnEntry := ⟨generated mill 0x3A#8 49 0 1 0 [⟨0x50#8, [2#8]⟩], false⟩
def alien : Telegram := ⟨0x77#8, by12 []⟩

/-- The mill sending at a port, with the queues given. -/
def busyConsole (own : List OwnEntry) (s : State := mill) : State :=
  { s with console := { s.console with sending := some (.own note), own := own, ownTurn := 1 } }
def busyPlant (forward : List Telegram) : State :=
  { mill with plant := { mill.plant with sending := some (.forward alien), forward := forward } }
def bothWait (turn : Nat) : Port := { own := [note], forward := [alien], ownTurn := turn }
def downPort : Port := { up := false }
def plantDown : State := { mill with plant := downPort }

/-- The mill with one console, the areas, the time base, tick work, controllers, commands or the shelf list changed. -/
def withConsole (a : Nat) (c : Console) (s : State := mill) : State := s.modConsole a fun _ => c
def withArea (a : Nat) (r : Area) (s : State := mill) : State := s.modArea a fun _ => r
def withTime (b : TimeBase) : State := { mill with time := b }
def owing (items : List TickItem) (s : State := mill) : State := { s with owed := items }
def withController (c : Controller) (s : State := mill) : State := { s with controllers := [(12, c), (13, {})] }
def withCommands (l : List Command) (s : State := mill) : State := { s with commands := l }
def withShelf (l : List ShelfEntry) (s : State := mill) : State := { s with shelf := l }
def withQueue (l : List QEntry) : State := { mill with queue := l }
def storing (s : State) : State := { s with store := some ⟨tables, 2⟩ }
def fullyLatched (s : State) : State := { s with latched := 0xFFFF#16 }
def unplanned : State := { mill with tables := {} }

/-- Area 7 held by 204; in GRACE or ORPHANED under him; with relief contexts of 301 and 205. -/
def held7 : Area := { authority := .held, holder := some ⟨204, 49, 1⟩ }
def graced : Area := { authority := .grace, graceLeft := 1, holder := some ⟨204, 49, 1⟩ }
def orphaned : Area := { authority := .orphaned, holder := some ⟨204, 49, 1⟩ }
def relieved : Area := { held7 with relief := [⟨301, 47, noon, 1⟩, ⟨205, 50, noon, 2⟩] }

/-- A table of `m` slots, the first as listed and the rest ACTIVE_ACKED, and a queue of `n`. -/
def crowdOf (m : Nat) (states : List AlarmState) (n : Nat) : State := { mill with
  slots := (List.range m).map fun i =>
    (i, ⟨100 + i, states[i]?.getD .activeAcked, 1, noon, noon, none, false, false, false, false⟩)
  queue := (List.range n).map fun i => ⟨2000 + i, noon, false⟩ }
abbrev crowded (states : List AlarmState) (n : Nat) : State := crowdOf 1024 states n

theorem lookup_isSome_of_key {α : Type} (t : List (Nat × α)) (n : Nat) (h : n ∈ t.map Prod.fst) :
    (lookup t n).isSome = true := by
  induction t with
  | nil => simp at h
  | cons e t ih =>
    obtain ⟨k, v⟩ := e
    simp only [lookup]
    split
    · rfl
    · rename_i hk
      refine ih ?_
      simp only [List.map_cons, List.mem_cons] at h
      exact h.resolve_left fun hn => hk hn.symm

theorem crowded_is_full (states : List AlarmState) (n : Nat) : (crowded states n).lowestFree = none := by
  simp only [State.lowestFree, List.find?_eq_none, List.mem_range, Bool.not_eq_true, Option.isNone_eq_false_iff]
  intro i hi
  refine lookup_isSome_of_key _ _ ?_
  simp only [crowded, crowdOf, List.map_map, List.mem_map, List.mem_range]
  exact ⟨i, hi, rfl⟩

def returned101 : Nat × Slot := (1, ⟨101, .returnedUnack, 1, noon, noon, none, false, false, false, false⟩)
def slot10 : Slot := ⟨10, .activeUnack, 1, noon, noon, none, false, false, false, false⟩
def slot11 : Slot := ⟨11, .returnedUnack, 3, noon, noon, none, false, false, false, false⟩
def slot12 : Slot := ⟨12, .activeAcked, 2, noon, noon, some 204, false, false, false, false⟩
def waiter : QEntry := ⟨13, noon, true⟩
def shelved10 : ShelfEntry := ⟨10, 204, noon, 1, false⟩
def shelved12 : ShelfEntry := ⟨12, 204, noon, 1, true⟩
def latchedShelf : State := fullyLatched (withShelf [shelved12])

/-- Consoles: at its silence limit, its holds at 1, one or two failed logins, a lower class, a horn, a transfer. -/
def silent : Console := { fullConsole 204 with silence := 2 }
def onHold : Console := { fullConsole 204 with rateHold := 1, loginHold := 1 }
def empty50 (failed hold : Nat) : Console :=
  { cls := some .full, features := ⟨true, true, true⟩, failed := failed, loginHold := hold }
def classed (k : ConsoleClass) (op : Nat) : Console := { fullConsole op with cls := some k }
def plain (op : Nat) : Console := { fullConsole op with features := {} }
def horned (h : Horn) : Console := { fullConsole 204 with horn := h }
def noted (l : List Notice) : Console := { fullConsole 204 with notices := l }
def paging (x : Transfer) : Console := { noted [.horn .quiet] with transfer := some x }
def transfer (area position page generation : Nat) : Transfer := ⟨area, 1, 204, 3#16, generation, position, page⟩

/-- Controllers: receiving a snapshot, silent, and in FAULT. -/
def receiving (sent wait : Nat) : Controller :=
  { phase := .receiving, snapNumber := 880, sent := sent, wait := wait, snapSet := [11, 12] }
def asking : Controller := { receiving 1 3 with phase := .requested, snapSet := [] }
def mute : Controller := { live := true, beenLive := true, silence := 2 }
def faulty : Controller := { live := true, beenLive := true, faultHeld := true }
def live12 : Controller := { live := true, beenLive := true }

/-- Handovers in REVIEW: with an open entry, and with none. -/
def reviewing : Handover := { offered with
  state := .review, attendLeft := 0
  list := [⟨10, 1, .high, .unreviewed⟩, ⟨12, 2, .low, .reviewed⟩, ⟨13, 0, .medium, .resolved⟩] }
def reviewed (k : HandoverKind) : Handover := { reviewing with kind := k, list := [⟨12, 2, .low, .reviewed⟩] }
def entry10 : ReviewEntry := ⟨10, 1, .high, .unreviewed⟩
def entry13 : ReviewEntry := ⟨13, 0, .medium, .resolved⟩
def incomplete : Handover := { reviewed .shift with incomplete := true }
def to205 : Handover := { reviewed .shift with inOp := 205 }
def unattended : Handover := { offered with attendLeft := 1 }
def overdue : Handover := { offered with left := 1 }

/-- Entries of the roster, and time bases in LOCKED: at the last time value, and two ticks without a mark. -/
def operator204 (enabled : Bool) : Operator := ⟨204, enabled, 1000, .operator, rights .operate⟩
def operator301 : Operator := ⟨301, true, 2000, .shiftLead, rights .operate⟩
def lastSecond : TimeBase :=
  { state := .locked, sec := 4294967295, ms := 999, pending := some (0, 0), high := noon }
def unmarked : TimeBase := { state := .locked, sec := 1000, high := noon, silence := 2 }

/-- A STORE's held MREP. -/
def heldMrep : Request :=
  { request ⟨0x88#8, []⟩ with todo := [], results := [⟨0x90#8, [0#8]⟩, ⟨0x90#8, [0#8]⟩], storeAt := some 1 }
def emptied : ConfigMemory := ⟨{}, false⟩
def completing : State := { storing mill with heldMreps := [heldMrep], memory := emptied }

/-- A flood of area 7 about to end, and a chatter hold of point 10. -/
def lifting : State := withArea 7 { load := 259, flood := true, generation := 65535 } (owing [.load 7])
def chattering : State := { owing [.chatter 10] with dyn := [(10, { cond := .active, score := 33, held := true })] }

/-- The load of area 3 below F_on by less than the weight of MEDIUM. -/
def rising : State := withArea 3 { load := 760 }

def selecting : Request := { request ⟨0x81#8, [6#8]⟩ with todo := [⟨0x81#8, [6#8]⟩, ⟨0x82#8, [0#8, 0#8]⟩] }
def selectingMill : State := { mill with request := some selecting }
def resetWaiting : State := { mill with resetWaits := true }
def waitingSent : State :=
  { resetWaiting with plant := { mill.plant with sending := some (.own { note with resets := true }) } }
theorem resetWaiting_moment : resetWaiting.resetMoment :=
  ⟨rfl, rfl, by decide +kernel, by decide +kernel, fun _ h => nomatch (show none = some _ from h)⟩
theorem waitingSent_waits : ¬ waitingSent.resetMoment :=
  fun h => absurd (h.2.2.2.2 { note with resets := true } rfl) (by decide +kernel)
/-- R189: the reset that has waited and the reset line are two start-ups. -/
theorem test_reset_line_after_due_reset :
    (after .resetLine resetWaiting).retained.count = mill.retained.count + 2 := by decide +kernel
/-- R65: an entry of 180 ticks stands between those of 60 and of 240, and behind another of 180. -/
def shelfOf (l : List (Nat × Nat)) : State := withShelf (l.map fun x => ⟨x.1, 204, noon, x.2, false⟩)
theorem test_shelve_by_ticks :
    ((after (.shelve 0 (by204 (shelveRec 10 3))) (shelfOf [(12, 60), (13, 180), (11, 240)])).shelf.map (·.point))
      = [12, 13, 10, 11] := by decide +kernel
/-- R165: a mark half a second behind the candidate starts a hold at the tick value; three seconds ahead it is a step. -/
def marked (ms : Nat) : State := withTime { state := .locked, sec := 1000, pending := some (1000 + ms / 1000, ms % 1000) }
theorem test_hold_begins :
    (after .tick (marked 500)).time.held = true ∧ (after .tick (marked 500)).time.sec = 1000 := by decide +kernel
theorem test_step_latches : (after .tick (marked 4001)).isLatched .timeStep = true
    ∧ (after .tick (marked 3000)).isLatched .timeStep = false := by decide +kernel
/-- R51: the report that brings the score to chatter on sends the AREP CHATTER_HOLD (action 7, point 10). -/
def scored : State := { mill with dyn := [(10, { cond := .active, score := 200 })] }
theorem test_chatter_hold_reported :
    ((after (.prep 0 (by12 (one 0x01#8 (reportRec 10 0)))) scored).plant.sending.any fun x => match x with
      | .own e => e.telegram.frame.recs.any fun r => r.data.take 3 == [7#8, 0#8, 10#8]
      | .forward _ => false) = true := by decide +kernel
/-- R37: in RECEIVING an ACTIVE report joins the snapshot set. -/
theorem test_snapshot_follows :
    (after (.prep 0 (by12 (one 0x01#8 (reportRec 10 1)))) (withController (receiving 1 3))).inSnapshot 12 10 = true := by
  decide +kernel
/-- R121: the number held by an open record is skipped. -/
theorem test_number_skipped : nextNumber { handing offered with retained := { counter := 4 } } = 6 := by decide +kernel
/-- R69: a point shelved again owes no decrement of the tick before. -/
theorem test_shelve_drops_decrement :
    (after (.shelve 0 (by204 [⟨0x23#8, [0#8, 10#8, 0#8, 5#8]⟩])) (owing [.shelf 10, .load 7] (withShelf [shelved10]))).owed
      = [.load 7] := by decide +kernel

/-- A request that selects SLOTS and writes there. -/
def overwriting : Request :=
  { request ⟨0x81#8, [6#8]⟩ with todo := [⟨0x81#8, [6#8]⟩, ⟨0x83#8, writeData 0 0 []⟩] }
def overwritten : State := { mill with request := some overwriting }

/-- A request of the console `c`, seat `n`, for another station; a console of `k` requests, and one in its rate hold. -/
def stray : Frame := { by204 (ackRec 10 1) with dest := 7#8 }
def eager (k hold : Nat) : Console := { fullConsole 204 with requests := k, rateHold := hold }

/-- A second console of 301 at his seat, and a login that moves 204 from console 49, whose area is in GRACE. -/
def moving : State := withConsole 50 (empty50 1 0) (withArea 7 { graced with relief := [⟨205, 50, noon, 2⟩] })

/-- A queue entry of area 7, and the mill where it waits beside two slots. -/
def waiter12 : QEntry := ⟨12, noon, false⟩
def queued12 : State := { mill with slots := [(0, slot10), (1, slot11)], queue := [waiter12] }

/-- The change of an onset of point 13 in slot 3, and one of another kind. -/
def onset13 : SlotChange :=
  { kind := .onset, point := 13, area := 3, slot := some 3, newOcc := some 1, origin := some .report, counted := true }
def changed (k : ChangeKind) (p a : Nat) (slot : Option Nat) : SlotChange :=
  { kind := k, point := p, area := a, slot := slot, oldOcc := some 1, newOcc := some 2, origin := some .ack }

/-- The onset of point 13 in the mill: an event whose change is not yet handed on. -/
def onsetEvent (s : State) : Ev := allocate 13 .report { s := s }

/-- A record open on area 3, and one whose review list is full. -/
def open3 (k : HandoverKind) : Handover :=
  { reviewing with kind := k, areas := [3], list := [⟨10, 1, .high, .unreviewed⟩] }
def opening3 (k : HandoverKind) : State := { handing (open3 k) with
  areas := [(3, { held7 with openRecord := some 5, relief := [⟨301, 47, ⟨true, 0, 0⟩, 1⟩] }), (7, held7)] }
def fullList : Handover := { reviewing with
  areas := [3, 7], list := (List.range 256).map fun i => ⟨1000 + i, 1, .low, .reviewed⟩ }

def relievedHanding : State := withArea 7 { relieved with openRecord := some 5 } (handing offered)
def active10 : State := { mill with dyn := [(10, { cond := .active })] }

/-- A mill with an entry in every table. -/
def aborted5 : JournalEntry :=
  { kind := .aborted, seq := 2, time := noon, areas := [3, 7], number := some 5, recordKind := some .shift
    outgoing := some 204, incoming := some 301, reason := some .withdrawn, counts := some (3, 2, 1) }
def summary5 : Summary := ⟨5, .relief, 204, 301, [7], .review⟩
def rich : State := { handing offered with
  shelf := [shelved10, shelved12], commands := [sent 2], queue := [waiter]
  dyn := [(10, { cond := .active, score := 33, held := true })]
  areas := [(7, { relieved with evictions := 3, losts := 300, load := 700, flood := true, openRecord := some 5 })]
  retained := { mill.retained with
    journal := [{ kind := .force, seq := 1, areas := [7], outgoing := some 204, incoming := some 301
                  contexts := [(7, ⟨301, 47, noon, 1⟩)] },
      aborted5,
      { kind := .resetAbort, seq := 3, areas := [7], number := some 5, reached := some .review }]
    summaries := [summary5], areas := [(7, ⟨some ⟨204, 49, 1⟩, [⟨301, 47, noon, 1⟩]⟩)] } }

/-- STOREs in their third and in their fourth tick. -/
def job2 : StoreJob := ⟨tables, 2⟩
def job3 : StoreJob := ⟨{}, 3⟩
def storingLate : State := { mill with store := some job3, heldMreps := [heldMrep], memory := ⟨tables, false⟩ }

/-- The part's own address stands in the table at index 7. -/
def ownEntry : State := { mill with
  tables := { tables with stations := tables.stations ++ [(7, ⟨254, .self, none, { view := true }, {}, .low⟩)] } }

/-- Roster items: every field; a station entry rewritten. -/
def rosterItems (op enabled role : Nat) : List Byte :=
  it 1 (b2 op) ++ it 2 (b1 enabled) ++ it 3 (b4 7) ++ it 4 (b1 role) ++ it 5 (List.replicate 16 2#8)
def newOperator (op role : Nat) (i : Nat := 0) (old : Operator := operator204 true) : Operator :=
  (operatorWritten old (itemsOf .roster (writeData i 0 (rosterItems op 1 role)))).getD old
def rewritten (st : Station) (items : List Byte) : Station :=
  (stationWritten (some st) (itemsOf .stations (writeData 1 0 items))).getD st

/-! ## A state and operands that meet the hypotheses of each statement, clause by clause -/

theorem part_counts : ∀ n v : Nat, 4 ≤ n → n ≤ 7 →
    itemValue (itemsOf TableId.params (writeData 0 0 partItems)) n = some v → v = 0 := by
  intro n v h4 h7 h
  have e : itemValue (itemsOf TableId.params (writeData 0 0 partItems)) n = none
      ∨ itemValue (itemsOf TableId.params (writeData 0 0 partItems)) n = some 0 := by
    interval_cases n <;> decide +kernel
  rcases e with e | e <;> rw [e] at h <;> simp_all

theorem area_counts : ∀ n v : Nat, n = 6 ∨ n = 7 →
    itemValue (itemsOf TableId.areas (writeData 15 0 areaItems)) n = some v → v = 0 := by
  intro n v hn h
  have e : itemValue (itemsOf TableId.areas (writeData 15 0 areaItems)) n = none
      ∨ itemValue (itemsOf TableId.areas (writeData 15 0 areaItems)) n = some 0 := by
    rcases hn with rfl | rfl <;> decide +kernel
  rcases e with e | e <;> rw [e] at h <;> simp_all

theorem witness_StepKeepsPortsSound :
    (busyConsole [note]).PortsSound ∧ step { busyConsole [note] with pending := [.tick] }
      = .next (after .tick (busyConsole [note])) := ⟨by decide +kernel, rfl⟩

theorem witness_StepKeepsCapacities :
    (handing offered).WithinCapacity ∧ step { handing offered with pending := [.tick] }
      = .next (after .tick (handing offered)) := ⟨by decide +kernel, rfl⟩

theorem witness_StepKeepsCanonicalForm :
    (handing offered).KeysRise ∧ (handing offered).NumbersApart
      ∧ (withShelf [shelved10, shelved12]).NumbersApart ∧ (withShelf [shelved10, shelved12]).ShelfOrdered
      ∧ step { handing offered with pending := [.tick] } = .next (after .tick (handing offered))
      ∧ step { withShelf [shelved10, shelved12] with pending := [.tick] }
        = .next (after .tick (withShelf [shelved10, shelved12])) :=
  ⟨by decide +kernel, by decide +kernel, by decide +kernel, by decide +kernel, rfl, rfl⟩

theorem witness_StepKeepsAlarmTableSound :
    (withQueue [waiter]).AlarmTableSound ∧ step { withQueue [waiter] with pending := [.tick] }
      = .next (after .tick (withQueue [waiter])) := ⟨by decide +kernel, rfl⟩

theorem witness_StepKeepsTimeBaseSound :
    ((withTime lastSecond).time.Sound ∧ step { withTime lastSecond with pending := [.tick] }
      = .next (after .tick (withTime lastSecond)))
    ∧ (mill.time.Sound ∧ mill.settled = true
      ∧ exec (.prep 7 (by12 (one 0x01#8 (reportRec 10 0)))) mill
        = .next (after (.prep 7 (by12 (one 0x01#8 (reportRec 10 0)))) mill)) :=
  ⟨⟨by decide +kernel, rfl⟩, by decide +kernel, by decide +kernel, rfl⟩

/-- The areas, consoles and records of the mill with the record OFFERED for area 7. -/
theorem handing_lookups (a : Nat) :
    (handing offered).area a
        = (if 7 = a then { authority := .held, holder := some ⟨204, 49, 1⟩, openRecord := some 5 } else {})
      ∧ lookup (handing offered).consoles a = if 47 = a then some (fullConsole 301)
          else if 49 = a then some (fullConsole 204) else if 50 = a then some {} else none := by
  constructor
  · by_cases h : 7 = a <;> simp [State.area, handing, lookup, offered, h]
  · simp [handing, mill, lookup]

theorem handing_authoritySound : (handing offered).AuthoritySound where
  holders a _ h := by
    by_cases h7 : 7 = a
    · subst h7
      exact ⟨⟨204, 49, 1⟩, by decide +kernel, fullConsole 204, by decide +kernel, rfl, rfl⟩
    · simp [(handing_lookups a).1, h7] at h
  sessions a b n m op c d hc hd hn hm := by
    rw [(handing_lookups a).2] at hc
    rw [(handing_lookups b).2] at hd
    split_ifs at hc hd <;> cases hc <;> cases hd <;> simp [Console.seatOp, fullConsole] at hn hm <;> omega
  incoming h hm := by
    obtain rfl : h = offered := by simpa [handing] using hm
    exact ⟨fullConsole 301, by decide +kernel, rfl, rfl⟩
  records a n := by
    by_cases h7 : 7 = a
    · subst h7
      rw [(handing_lookups 7).1]
      simp [handing, offered]
    · rw [(handing_lookups a).1]
      simp [handing, offered, h7, Ne.symm h7]
  consoles a h := by
    rw [(handing_lookups a).2] at h
    split_ifs at h with h1 h2 h3
    · subst h1; decide +kernel
    · subst h2; decide +kernel
    · subst h3; decide +kernel
    · exact absurd rfl h

theorem witness_StepKeepsAuthoritySound :
    (handing offered).KeysRise ∧ (handing offered).NumbersApart ∧ (handing offered).AuthoritySound
      ∧ step { handing offered with pending := [.tick] } = .next (after .tick (handing offered)) :=
  ⟨by decide +kernel, by decide +kernel, handing_authoritySound, rfl⟩

theorem mill_urgentSound : mill.UrgentSound where
  tables := ⟨by decide +kernel, by decide +kernel, fun _ h => nomatch h⟩
  shelf _ h := nomatch h
  slots := by decide +kernel

theorem witness_StepKeepsUrgentAlarms :
    (mill.KeysRise ∧ mill.AlarmTableSound ∧ mill.UrgentSound
      ∧ step { mill with pending := [.tick] } = .next (after .tick mill))
    ∧ (mill.AlarmTableSound ∧ (mill.pointDef 11).priority = .urgent
      ∧ exec (.ack 0 (by301 (ackRec 11 3))) mill = .next (after (.ack 0 (by301 (ackRec 11 3))) mill)
      ∧ SlotSettled 11 mill (after (.ack 0 (by301 (ackRec 11 3))) mill)) := by
  refine ⟨⟨by decide +kernel, by decide +kernel, mill_urgentSound, rfl⟩, by decide +kernel, by decide +kernel, rfl,
    ⟨1, slot11, by decide +kernel, by decide +kernel⟩, ?_⟩
  have e : (after (.ack 0 (by301 (ackRec 11 3))) mill).slotOf 11 = none := by decide +kernel
  intro i sl h
  rw [e] at h
  cases h

theorem witness_ConfigurationCopyChangesOnlyAtCompletion :
    exec (.storeCompletion true) completing = .next (after (.storeCompletion true) completing)
      ∧ (after (.storeCompletion true) completing).memory.copy ≠ completing.memory.copy ∧ completing.settled = true :=
  ⟨rfl, by decide +kernel, by decide +kernel⟩

theorem witness_VictimIsTheLeastAndOldest :
    victim (crowded [.activeUnack, .returnedUnack] 0) .low = some returned101
      ∧ victimCandidate (crowded [.activeUnack, .returnedUnack] 0) .low returned101 = true
      ∧ victim (crowded [] 0) .low = none :=
  ⟨by decide +kernel, by decide +kernel, by decide +kernel⟩

theorem witness_StartUpFormsTheState :
    (mill.request = none ∧ (¬mill.resetMoment))
    ∧ (mill.request = none ∧ (¬mill.resetMoment))
    ∧ (resetWaiting.request = none ∧ resetWaiting.resetMoment)
    ∧ (mill.request = none ∧ (¬mill.resetMoment))
    ∧ (waitingSent.request = none ∧ (¬waitingSent.resetMoment)) :=
  ⟨⟨by decide +kernel, fun h => absurd h.1 (by decide)⟩, ⟨by decide +kernel, fun h => absurd h.1 (by decide)⟩,
    ⟨by decide +kernel, resetWaiting_moment⟩, ⟨by decide +kernel, fun h => absurd h.1 (by decide)⟩,
    ⟨by decide +kernel, waitingSent_waits⟩⟩

theorem witness_LinkStateFollowsTheLink :
    ((busyPlant [alien]).ready = true ∧ ((busyPlant [alien]).port PortId.plant).up = true)
    ∧ ((busyConsole [note]).ready = true ∧ ((busyConsole [note]).port PortId.console).up = true)
    ∧ (plantDown.settled = true) :=
  by decide +kernel

theorem witness_MalformedTelegramIsCounted :
    mill.ready = true ∧ (mill.port PortId.plant).up = true ∧ parseTelegram mill.ownAddress [1#8] = none :=
  by decide +kernel

theorem witness_TelegramBytesReadBack :
    (lineOk 254 alien.frame = true)
    ∧ (lineOk 254 (by12 (List.replicate 16 ⟨1#8, [0#8]⟩)) = true) :=
  by decide +kernel

theorem witness_ForwardedTelegramJoinsTheOtherPort :
    (arrives PortId.plant mill (by12 []) = true ∧ (namedKind 119#8 = false ∨ 119#8 = 64#8 ∧ (PortId.plant =
      PortId.console ∨ toOwn mill (by12 []) = false ∨ mreqTaken mill (BitVec.toNat (by12 []).source) = false) ∨
      PortId.plant = PortId.console ∧ consoleKind 119#8 = true ∧ lookup mill.consoles (BitVec.toNat (by12 []).source)
      = none))
    ∧ (arrives PortId.console mill (by204 []) = true ∧ (namedKind 64#8 = false ∨ 64#8 = 64#8 ∧ (PortId.console =
      PortId.console ∨ toOwn mill (by204 []) = false ∨ mreqTaken mill (BitVec.toNat (by204 []).source) = false) ∨
      PortId.console = PortId.console ∧ consoleKind 64#8 = true ∧ lookup mill.consoles (BitVec.toNat (by204
      []).source) = none))
    ∧ (arrives PortId.console mill (tel 60#8 0#8 0#16 []) = true ∧ (namedKind 50#8 = false ∨ 50#8 = 64#8 ∧
      (PortId.console = PortId.console ∨ toOwn mill (tel 60#8 0#8 0#16 []) = false ∨ mreqTaken mill (BitVec.toNat (tel
      60#8 0#8 0#16 []).source) = false) ∨ PortId.console = PortId.console ∧ consoleKind 50#8 = true ∧ lookup
      mill.consoles (BitVec.toNat (tel 60#8 0#8 0#16 []).source) = none))
    ∧ ((busyPlant (List.replicate 63 alien)).plant.up = true ∧ (busyPlant (List.replicate 63
      alien)).plant.forward.length < 64)
    ∧ ((downPort.up = false ∨ 64 ≤ downPort.forward.length))
    ∧ (((busyPlant (List.replicate 64 alien)).plant.up = false ∨ 64 ≤ (busyPlant (List.replicate 64
      alien)).plant.forward.length)) :=
  ⟨by decide +kernel, by decide +kernel, by decide +kernel, by decide +kernel, by decide +kernel, by decide +kernel⟩

theorem witness_DiscardedTelegramCountsForLiveness :
    (arrives PortId.plant mill (by12 []) = true)
    ∧ (arrives PortId.plant mill (by12 []) = true ∧ namedKind 50#8 = true ∧ 50#8 ≠ 64#8 ∧ (PortId.plant = PortId.plant ∨
      consoleKind 50#8 = false ∨ lookup mill.consoles (BitVec.toNat (by12 []).source) ≠ none))
    ∧ (arrives PortId.console mill (by204 []) = true ∧ namedKind 16#8 = true ∧ 16#8 ≠ 64#8 ∧ (PortId.console =
      PortId.plant ∨ consoleKind 16#8 = false ∨ lookup mill.consoles (BitVec.toNat (by204 []).source) ≠ none))
    ∧ (Option.all (fun c => c.live || c.phase != Phase.idle) (lookup mill.controllers (BitVec.toNat (by12 []).source)) =
      true)
    ∧ (lookup mill.controllers (BitVec.toNat (tel 13#8 0#8 0#16 []).source) = some {} ∧ ({} : Controller).live = false ∧
      ({} : Controller).phase = Phase.idle) :=
  ⟨by decide +kernel, by decide +kernel, by decide +kernel, by decide +kernel, by decide +kernel⟩

theorem witness_ArbiterChoosesTheNextTelegram :
    ((bothWait 1).up = true ∧ (bothWait 1).sending = none ∧ (bothWait 1).own = [note] ∧ ((bothWait 1).forward = [] ∨
      (bothWait 1).ownTurn < 2))
    ∧ ((bothWait 2).up = true ∧ (bothWait 2).sending = none ∧ (bothWait 2).forward = [alien] ∧ ((bothWait 2).own = [] ∨
      2 ≤ (bothWait 2).ownTurn))
    ∧ ((busyConsole (List.replicate 127 note)).settled = true ∧ ((busyConsole (List.replicate 127 note)).port
      PortId.console).sending = some (Sending.own note) ∧ (PortId.console = PortId.plant ∨ (busyConsole
      (List.replicate 127 note)).console.own.length < 128))
    ∧ ((busyConsole (List.replicate 128 note) (withConsole 49 (noted [Notice.horn Horn.quiet]))).settled = true ∧
      (busyConsole (List.replicate 128 note) (withConsole 49 (noted [Notice.horn Horn.quiet]))).console.sending = some
      (Sending.own note) ∧ 128 ≤ (busyConsole (List.replicate 128 note) (withConsole 49 (noted [Notice.horn
      Horn.quiet]))).console.own.length ∧ nextWaiting (busyConsole (List.replicate 128 note) (withConsole 49 (noted
      [Notice.horn Horn.quiet]))) = some 49 ∧ ({ (busyConsole (List.replicate 128 note) (withConsole 49 (noted
      [Notice.horn Horn.quiet]))).console with sending := none } : Port).startNext.ownRoom = true) :=
  ⟨by decide +kernel, by decide +kernel, by decide +kernel, by decide +kernel⟩

theorem witness_TimeMarkBecomesPending :
    (arrives PortId.plant mill (tel 9#8 0#8 0#16 (markRecs 4294967295 999)) = true ∧ mill.timeMaster = some
      (BitVec.toNat (tel 9#8 0#8 0#16 (markRecs 4294967295 999)).source) ∧ toOwnOrAll mill (tel 9#8 0#8 0#16 (markRecs
      4294967295 999)) = true ∧ (tel 9#8 0#8 0#16 (markRecs 4294967295 999)).recs = [⟨2#8, b4 4294967295 ++ b2 999⟩] ∧
      4294967295 ≤ 4294967295 ∧ 999 ≤ 999)
    ∧ (arrives PortId.plant mill (tel 13#8 0#8 0#16 (markRecs 1100 0)) = true ∧ mill.timeMaster ≠ some (BitVec.toNat
      (tel 13#8 0#8 0#16 (markRecs 1100 0)).source)) :=
  by decide +kernel

theorem witness_TimeValueNeverDecreases :
    (lastSecond.state ≠ TimeState.unset ∧ lastSecond.sec ≤ 4294967295 ∧ lastSecond.ms ≤ 999 ∧ (∀ (v : ℕ × ℕ),
      lastSecond.pending = some v → v.1 ≤ 4294967295 ∧ v.2 ≤ 999) ∧ (∀ (v : ℕ × ℕ), lastSecond.projection = some v →
      v.1 ≤ 4294967295 ∧ v.2 ≤ 999) ∧ lastSecond.high.sec ≤ 4294967295 ∧ lastSecond.high.ms ≤ 999)
    ∧ ((withTime lastSecond).time.Sound)
    ∧ ((withTime lastSecond).settled = true ∧ (withTime lastSecond).owed = [] ∧ (withTime lastSecond).store = none ∧
      (withTime lastSecond).time.Sound ∧ ((withTime lastSecond).time.state ≠ TimeState.locked ∨ (withTime
      lastSecond).time.pending ≠ none ∨ (withTime lastSecond).time.silence < 2)) :=
  by decide +kernel

theorem witness_ReportMovesTheSlotByItsClass :
    (PointReport mill (by12 (one 1#8 (reportRec 10 0))) (reportRec 10 0) 10 Condition.normal ∧ mill.SlotsDistinct ∧
      (0, slot10) ∈ mill.slots ∧ slot10.point = 10 ∧ mill.queue = [] ∧ ((mill.pointDef 10).latch = LatchClass.tracking
      → slot10.state ≠ AlarmState.returnedUnack))
    ∧ (PointReport mill (by12 (one 1#8 (reportRec 11 1))) (reportRec 11 1) 11 Condition.active ∧ mill.SlotsDistinct ∧
      (1, slot11) ∈ mill.slots ∧ slot11.point = 11 ∧ mill.queue = [] ∧ ((mill.pointDef 11).latch = LatchClass.tracking
      → slot11.state ≠ AlarmState.returnedUnack))
    ∧ (PointReport queued12 (by12 (one 1#8 (reportRec 12 0))) (reportRec 12 0) 12 Condition.normal ∧
      queued12.AlarmTableSound ∧ waiter12 ∈ queued12.queue ∧ waiter12.point = 12) :=
  ⟨by decide +kernel, by decide +kernel, by decide +kernel⟩

theorem witness_OnsetTakesTheLowestFreeSlot :
    (OnsetReport mill (tel 13#8 0#8 0#16 (one 1#8 (reportRec 13 1))) (reportRec 13 1) 13 3 3)
    ∧ (OnsetReport rising (tel 13#8 0#8 0#16 (one 1#8 (reportRec 13 1))) (reportRec 13 1) 13 3 3 ∧ (rising.area 3).flood
      = false ∧ ((after (.prep 0 (tel 13#8 0#8 0#16 (one 1#8 (reportRec 13 1)))) rising).area 3).flood = true ∧
      risingKeys rising.consoles = true ∧ lookup rising.consoles 49 = some (fullConsole 204) ∧ (fullConsole
      204).attached = true ∧ (fullConsole 204).notices.length + rising.records.length + rising.pointAreas.length + 2 ≤
      32) :=
  ⟨by decide +kernel, by decide +kernel⟩

theorem witness_FullTableEvictsOrQueues :
    ((crowded [AlarmState.activeUnack, AlarmState.returnedUnack] 0).lowestFree = none ∧ (crowded
      [AlarmState.activeUnack, AlarmState.returnedUnack] 0).time.Sound ∧ victim (crowded [AlarmState.activeUnack,
      AlarmState.returnedUnack] 0) ((crowded [AlarmState.activeUnack, AlarmState.returnedUnack] 0).pointDef
      13).priority = some returned101)
    ∧ ((crowded [] 255).lowestFree = none ∧ (crowded [] 255).time.Sound ∧ victim (crowded [] 255) ((crowded []
      255).pointDef 13).priority = none ∧ (crowded [] 255).queue.length < 256)
    ∧ ((crowded [] 256).lowestFree = none ∧ (crowded [] 256).time.Sound ∧ victim (crowded [] 256) ((crowded []
      256).pointDef 13).priority = none ∧ 256 ≤ (crowded [] 256).queue.length) :=
  ⟨⟨crowded_is_full _ _, by decide +kernel⟩, ⟨crowded_is_full _ _, by decide +kernel⟩, ⟨crowded_is_full _ _,
    by decide +kernel⟩⟩

theorem witness_FreedSlotAdmitsTheHead :
    (withQueue [waiter]).queue = [waiter] :=
  by decide +kernel

theorem witness_SnapshotRebuildsTheController :
    (arrives PortId.plant (withController (receiving 1 3)) (by12 (one 17#8 [2#8])) = true ∧ toOwnOrAll (withController
      (receiving 1 3)) (by12 (one 17#8 [2#8])) = true ∧ lookup (withController (receiving 1 3)).controllers
      (BitVec.toNat (by12 (one 17#8 [2#8])).source) = some (receiving 1 3) ∧ (receiving 1 3).live = false ∧ (receiving
      1 3).phase ≠ Phase.idle ∧ BitVec.toNat (by12 (one 17#8 [2#8])).seq = (receiving 1 3).snapNumber ∧ (by12 (one
      17#8 [2#8])).recs = [⟨17#8, [2#8]⟩] ∧ ([2#8].length = 1 ∨ [2#8].length = 3) ∧ (field1 [2#8] 0 = 3 ∨ field1 [2#8]
      0 = 2 ∧ (receiving 1 3).phase = Phase.receiving) ∧ risingKeys (withController (receiving 1 3)).slots = true)
    ∧ (arrives PortId.plant (withController (receiving 1 3)) (by12 (one 17#8 (snapRec 1 12))) = true ∧ toOwnOrAll
      (withController (receiving 1 3)) (by12 (one 17#8 (snapRec 1 12))) = true ∧ lookup (withController (receiving 1
      3)).controllers (BitVec.toNat (by12 (one 17#8 (snapRec 1 12))).source) = some (receiving 1 3) ∧ (receiving 1
      3).live = false ∧ (receiving 1 3).phase ≠ Phase.idle ∧ BitVec.toNat (by12 (one 17#8 (snapRec 1 12))).seq =
      (receiving 1 3).snapNumber ∧ (by12 (one 17#8 (snapRec 1 12))).recs = [⟨17#8, snapRec 1 12⟩] ∧ ((snapRec 1
      12).length = 1 ∨ (snapRec 1 12).length = 3) ∧ (field1 (snapRec 1 12) 0 = 1 ∨ field1 (snapRec 1 12) 0 = 0 ∧
      (receiving 1 3).phase = Phase.receiving))
    ∧ (arrives PortId.plant (withController (receiving 1 3)) (by12 (one 17#8 (snapRec 0 10))) = true ∧ toOwnOrAll
      (withController (receiving 1 3)) (by12 (one 17#8 (snapRec 0 10))) = true ∧ lookup (withController (receiving 1
      3)).controllers (BitVec.toNat (by12 (one 17#8 (snapRec 0 10))).source) = some (receiving 1 3) ∧ (receiving 1
      3).live = false ∧ (receiving 1 3).phase ≠ Phase.idle ∧ BitVec.toNat (by12 (one 17#8 (snapRec 0 10))).seq =
      (receiving 1 3).snapNumber ∧ (by12 (one 17#8 (snapRec 0 10))).recs = [⟨17#8, snapRec 0 10⟩] ∧ ((snapRec 0
      10).length = 1 ∨ (snapRec 0 10).length = 3) ∧ (field1 (snapRec 0 10) 0 = 1 ∨ field1 (snapRec 0 10) 0 = 0 ∧
      (receiving 1 3).phase = Phase.receiving))
    ∧ (arrives PortId.plant (withController asking) (by12 (one 17#8 [2#8])) = true ∧ toOwnOrAll (withController asking)
      (by12 (one 17#8 [2#8])) = true ∧ lookup (withController asking).controllers (BitVec.toNat (by12 (one 17#8
      [2#8])).source) = some asking ∧ asking.live = false ∧ asking.phase ≠ Phase.idle ∧ BitVec.toNat (by12 (one 17#8
      [2#8])).seq = asking.snapNumber ∧ (by12 (one 17#8 [2#8])).recs = [⟨17#8, [2#8]⟩] ∧ ([2#8].length = 1 ∨
      [2#8].length = 3) ∧ asking.phase = Phase.requested ∧ (field1 [2#8] 0 = 0 ∨ field1 [2#8] 0 = 2))
    ∧ ((withController (receiving 1 3)).queue = [] ∧ (withController (receiving 1 3)).AlarmTableSound ∧ (withController
      (receiving 1 3)).time.Sound ∧ (withController (receiving 1 3)).slots.length + (receiving 1 3).snapSet.length + 1
      ≤ 1024 ∧ (withController (receiving 1 3)).slotOf 12 = some (2, slot12)) :=
  ⟨by decide +kernel, by decide +kernel, by decide +kernel, by decide +kernel, by decide +kernel⟩

theorem witness_SilentControllerGoesStale :
    ((owing [TickItem.controllerSilence 12] (withController mute (withCommands [sent 2]))).settled = true ∧
      TickItem.controllerSilence 12 ∈ (owing [TickItem.controllerSilence 12] (withController mute (withCommands [sent
      2]))).owed ∧ lookup (owing [TickItem.controllerSilence 12] (withController mute (withCommands [sent
      2]))).controllers 12 = some mute ∧ mute.live = true ∧ 2 ≤ mute.silence)
    ∧ ((owing [TickItem.resyncWait 12] (withController (receiving 3 1))).settled = true ∧ TickItem.resyncWait 12 ∈
      (owing [TickItem.resyncWait 12] (withController (receiving 3 1))).owed ∧ lookup (owing [TickItem.resyncWait 12]
      (withController (receiving 3 1))).controllers 12 = some (receiving 3 1) ∧ (receiving 3 1).phase ≠ Phase.idle ∧
      (receiving 3 1).wait ≤ 1)
    ∧ ((owing [TickItem.resyncWait 12] (withController (receiving 4 1))).settled = true ∧ TickItem.resyncWait 12 ∈
      (owing [TickItem.resyncWait 12] (withController (receiving 4 1))).owed ∧ lookup (owing [TickItem.resyncWait 12]
      (withController (receiving 4 1))).controllers 12 = some (receiving 4 1) ∧ (receiving 4 1).phase ≠ Phase.idle ∧
      (receiving 4 1).wait ≤ 1)
    ∧ (risingKeys mill.consoles = true ∧ lookup mill.consoles 49 = some (fullConsole 204) ∧ (fullConsole 204).attached =
      true ∧ (fullConsole 204).notices.length + mill.records.length + mill.pointAreas.length + 2 ≤ 32) :=
  ⟨by decide +kernel, by decide +kernel, by decide +kernel, by decide +kernel⟩

theorem witness_ConfirmationEndsItsCommand :
    (arrives PortId.plant (withCommands [sent 2]) (confirmed 30#8) = true ∧ toOwnOrAll (withCommands [sent 2])
      (confirmed 30#8) = true ∧ lookup (withCommands [sent 2]).controllers (BitVec.toNat (confirmed 30#8).source) =
      some live12 ∧ confirmation (confirmed 30#8).recs = some (42, Result.fault, [9#8]) ∧ List.find? (fun c => c.tag
      == 42 && c.controller == BitVec.toNat (confirmed 30#8).source) (withCommands [sent 2]).commands = some (sent 2))
    ∧ (arrives PortId.plant (withConsole 49 {} (withCommands [sent 2])) (confirmed 28#8) = true ∧ toOwnOrAll
      (withConsole 49 {} (withCommands [sent 2])) (confirmed 28#8) = true ∧ lookup (withConsole 49 {} (withCommands
      [sent 2])).controllers (BitVec.toNat (confirmed 28#8).source) = some live12 ∧ confirmation (confirmed 28#8).recs
      = some (42, Result.accepted, [9#8]) ∧ List.find? (fun c => c.tag == 42 && c.controller == BitVec.toNat
      (confirmed 28#8).source) (withConsole 49 {} (withCommands [sent 2])).commands = some (sent 2))
    ∧ (arrives PortId.plant mill (confirmed 29#8) = true ∧ toOwnOrAll mill (confirmed 29#8) = true ∧ lookup
      mill.controllers (BitVec.toNat (confirmed 29#8).source) ≠ none ∧ confirmation (confirmed 29#8).recs = some (42,
      Result.rejected, [9#8]) ∧ (∀ c ∈ mill.commands, c.tag = 42 → c.controller ≠ BitVec.toNat (confirmed
      29#8).source))
    ∧ ((owing [TickItem.confirm 42] (withCommands [sent 1])).settled = true ∧ (owing [TickItem.confirm 42] (withCommands
      [sent 1])).commands = [] ++ [sent 1] ∧ (sent 1).ticks ≤ 1 ∧ TickItem.confirm (sent 1).tag ∈ (owing
      [TickItem.confirm 42] (withCommands [sent 1])).owed ∧ (∀ x ∈ ([] : List Command), TickItem.confirm x.tag ∉
      (owing [TickItem.confirm 42] (withCommands [sent 1])).owed)) :=
  ⟨by decide +kernel, by decide +kernel, by decide +kernel, by decide +kernel⟩

theorem witness_HelloAttachesTheConsole :
    ((⟨true, true, false⟩ : Classes).has ConsoleClass.ack = true ∧ (desk 49).classes.has ConsoleClass.ack = true)
    ∧ ((∀ (k : ConsoleClass), ({} : Classes).has k = true → (desk 49).classes.has k = false))
    ∧ (arrives PortId.console mill (tel 50#8 0#8 0#16 (one 48#8 [7#8, 7#8])) = true ∧ toOwn mill (tel 50#8 0#8 0#16 (one
      48#8 [7#8, 7#8])) = true ∧ lookup mill.consoles (BitVec.toNat (tel 50#8 0#8 0#16 (one 48#8 [7#8, 7#8])).source)
      = some {} ∧ mill.stationAt (BitVec.toNat (tel 50#8 0#8 0#16 (one 48#8 [7#8, 7#8])).source) = some (desk 50) ∧
      (tel 50#8 0#8 0#16 (one 48#8 [7#8, 7#8])).recs = [⟨48#8, [7#8, 7#8]⟩] ∧ ({} : Console).cls = none)
    ∧ (arrives PortId.console mill (tel 49#8 0#8 0#16 (one 48#8 [7#8, 7#8])) = true ∧ toOwn mill (tel 49#8 0#8 0#16 (one
      48#8 [7#8, 7#8])) = true ∧ lookup mill.consoles (BitVec.toNat (tel 49#8 0#8 0#16 (one 48#8 [7#8, 7#8])).source)
      = some (fullConsole 204) ∧ mill.stationAt (BitVec.toNat (tel 49#8 0#8 0#16 (one 48#8 [7#8, 7#8])).source) = some
      (desk 49) ∧ (tel 49#8 0#8 0#16 (one 48#8 [7#8, 7#8])).recs = [⟨48#8, [7#8, 7#8]⟩] ∧ (fullConsole 204).cls = some
      (resolveAttach (desk 49) (classesOf (7#8).toNat) (featuresOf (7#8).toNat)).1 ∧ (fullConsole 204).features =
      (resolveAttach (desk 49) (classesOf (7#8).toNat) (featuresOf (7#8).toNat)).2.1)
    ∧ (arrives PortId.console mill (tel 49#8 0#8 0#16 (one 48#8 [3#8, 7#8])) = true ∧ toOwn mill (tel 49#8 0#8 0#16 (one
      48#8 [3#8, 7#8])) = true ∧ lookup mill.consoles (BitVec.toNat (tel 49#8 0#8 0#16 (one 48#8 [3#8, 7#8])).source)
      = some (fullConsole 204) ∧ mill.stationAt (BitVec.toNat (tel 49#8 0#8 0#16 (one 48#8 [3#8, 7#8])).source) = some
      (desk 49) ∧ (tel 49#8 0#8 0#16 (one 48#8 [3#8, 7#8])).recs = [⟨48#8, [3#8, 7#8]⟩] ∧ (fullConsole 204).attached =
      true ∧ ((fullConsole 204).cls ≠ some (resolveAttach (desk 49) (classesOf (3#8).toNat) (featuresOf
      (7#8).toNat)).1 ∨ (fullConsole 204).features ≠ (resolveAttach (desk 49) (classesOf (3#8).toNat) (featuresOf
      (7#8).toNat)).2.1))
    ∧ (arrives PortId.console mill (tel 49#8 0#8 0#16 []) = true ∧ toOwn mill (tel 49#8 0#8 0#16 []) = true ∧ lookup
      mill.consoles (BitVec.toNat (tel 49#8 0#8 0#16 []).source) ≠ none ∧ mill.stationAt (BitVec.toNat (tel 49#8 0#8
      0#16 []).source) ≠ none ∧ capability (tel 49#8 0#8 0#16 []).recs = none) :=
  ⟨by decide +kernel, fun k => by cases k <;> decide, by decide +kernel, by decide +kernel, by decide +kernel,
    by decide +kernel⟩

theorem witness_RequestsPassTheIntake :
    (Instr.ack 0 stray ∈ requestRows 0 stray ∧ arrives PortId.console mill stray = true ∧ lookup mill.consoles
      (BitVec.toNat stray.source) = some (fullConsole 204) ∧ toOwn mill stray = false)
    ∧ (Instr.login 0 (tel 50#8 1#8 0#16 (one 49#8 (credential 301 2000))) ∈ requestRows 0 (tel 50#8 1#8 0#16 (one 49#8
      (credential 301 2000))) ∧ arrives PortId.console mill (tel 50#8 1#8 0#16 (one 49#8 (credential 301 2000))) =
      true ∧ lookup mill.consoles (BitVec.toNat (tel 50#8 1#8 0#16 (one 49#8 (credential 301 2000))).source) = some {}
      ∧ toOwn mill (tel 50#8 1#8 0#16 (one 49#8 (credential 301 2000))) = true ∧ ({} : Console).attached = false ∧
      Instr.login 0 (tel 50#8 1#8 0#16 (one 49#8 (credential 301 2000))) ≠ Instr.logout 0 (tel 50#8 1#8 0#16 (one 49#8
      (credential 301 2000))))
    ∧ (Instr.logout 0 (tel 50#8 1#8 204#16 []) ∈ requestRows 0 (tel 50#8 1#8 204#16 []) ∧ arrives PortId.console mill
      (tel 50#8 1#8 204#16 []) = true ∧ lookup mill.consoles (BitVec.toNat (tel 50#8 1#8 204#16 []).source) = some {}
      ∧ toOwn mill (tel 50#8 1#8 204#16 []) = true ∧ ({} : Console).attached = false ∧ Instr.logout 0 (tel 50#8 1#8
      204#16 []) = Instr.logout 0 (tel 50#8 1#8 204#16 []))
    ∧ (Instr.shelve 0 (tel 49#8 3#8 204#16 (shelveRec 10 1)) ∈ requestRows 0 (tel 49#8 3#8 204#16 (shelveRec 10 1)) ∧
      arrives PortId.console mill (tel 49#8 3#8 204#16 (shelveRec 10 1)) = true ∧ lookup mill.consoles (BitVec.toNat
      (tel 49#8 3#8 204#16 (shelveRec 10 1)).source) = some (fullConsole 204) ∧ toOwn mill (tel 49#8 3#8 204#16
      (shelveRec 10 1)) = true ∧ (fullConsole 204).attached = true ∧ (fullConsole 204).hasSeat (BitVec.toNat (tel 49#8
      3#8 204#16 (shelveRec 10 1)).seat) = false)
    ∧ (Instr.opcmd 0 (tel 49#8 2#8 204#16 (opRecs 10 [])) ∈ requestRows 0 (tel 49#8 2#8 204#16 (opRecs 10 [])) ∧ arrives
      PortId.console mill (tel 49#8 2#8 204#16 (opRecs 10 [])) = true ∧ lookup mill.consoles (BitVec.toNat (tel 49#8
      2#8 204#16 (opRecs 10 [])).source) = some (fullConsole 204) ∧ toOwn mill (tel 49#8 2#8 204#16 (opRecs 10 [])) =
      true ∧ (fullConsole 204).attached = true ∧ (fullConsole 204).hasSeat (BitVec.toNat (tel 49#8 2#8 204#16 (opRecs
      10 [])).seat) = true ∧ Instr.opcmd 0 (tel 49#8 2#8 204#16 (opRecs 10 [])) ≠ Instr.login 0 (tel 49#8 2#8 204#16
      (opRecs 10 [])) ∧ (fullConsole 204).seatOp (BitVec.toNat (tel 49#8 2#8 204#16 (opRecs 10 [])).seat) = none)
    ∧ (Instr.page 0 (by205 (pageRec 7 0)) ∈ requestRows 0 (by205 (pageRec 7 0)) ∧ arrives PortId.console mill (by205
      (pageRec 7 0)) = true ∧ lookup mill.consoles (BitVec.toNat (by205 (pageRec 7 0)).source) = some (fullConsole
      204) ∧ toOwn mill (by205 (pageRec 7 0)) = true ∧ (fullConsole 204).attached = true ∧ (fullConsole 204).hasSeat
      (BitVec.toNat (by205 (pageRec 7 0)).seat) = true ∧ Instr.page 0 (by205 (pageRec 7 0)) ≠ Instr.login 0 (by205
      (pageRec 7 0)) ∧ (fullConsole 204).seatOp (BitVec.toNat (by205 (pageRec 7 0)).seat) = some 204 ∧ BitVec.toNat
      (by205 (pageRec 7 0)).operator ≠ 204)
    ∧ (Instr.ack 0 (by204 (ackRec 10 1)) ∈ requestRows 0 (by204 (ackRec 10 1)) ∧ arrives PortId.console (withConsole 49
      (eager 3 1)) (by204 (ackRec 10 1)) = true ∧ lookup (withConsole 49 (eager 3 1)).consoles (BitVec.toNat (by204
      (ackRec 10 1)).source) = some (eager 3 1) ∧ toOwn (withConsole 49 (eager 3 1)) (by204 (ackRec 10 1)) = true ∧
      (eager 3 1).attached = true ∧ (eager 3 1).hasSeat (BitVec.toNat (by204 (ackRec 10 1)).seat) = true ∧ Instr.ack 0
      (by204 (ackRec 10 1)) ≠ Instr.login 0 (by204 (ackRec 10 1)) ∧ (eager 3 1).seatOp (BitVec.toNat (by204 (ackRec 10
      1)).seat) = some 204 ∧ BitVec.toNat (by204 (ackRec 10 1)).operator = 204 ∧ Instr.ack 0 (by204 (ackRec 10 1)) ∈
      countedRows 0 (by204 (ackRec 10 1)) ∧ 0 < (eager 3 1).rateHold)
    ∧ (Instr.ack 0 (by204 (ackRec 10 1)) ∈ requestRows 0 (by204 (ackRec 10 1)) ∧ arrives PortId.console (withConsole 49
      (eager 20 0)) (by204 (ackRec 10 1)) = true ∧ lookup (withConsole 49 (eager 20 0)).consoles (BitVec.toNat (by204
      (ackRec 10 1)).source) = some (eager 20 0) ∧ toOwn (withConsole 49 (eager 20 0)) (by204 (ackRec 10 1)) = true ∧
      (eager 20 0).attached = true ∧ (eager 20 0).hasSeat (BitVec.toNat (by204 (ackRec 10 1)).seat) = true ∧ Instr.ack
      0 (by204 (ackRec 10 1)) ≠ Instr.login 0 (by204 (ackRec 10 1)) ∧ (eager 20 0).seatOp (BitVec.toNat (by204 (ackRec
      10 1)).seat) = some 204 ∧ BitVec.toNat (by204 (ackRec 10 1)).operator = 204 ∧ Instr.ack 0 (by204 (ackRec 10 1))
      ∈ countedRows 0 (by204 (ackRec 10 1)) ∧ (eager 20 0).rateHold = 0 ∧ (withConsole 49 (eager 20
      0)).tables.params.rateLimit ≤ (eager 20 0).requests) := by
  and_intros <;> decide +kernel

theorem witness_SessionsBeginAndEnd :
    (((fromAttached mill (loginAt 49#8 1#8 204 1000) fun c => c.hasSeat (BitVec.toNat (loginAt 49#8 1#8 204
      1000).seat) && c.seatOp (BitVec.toNat (loginAt 49#8 1#8 204 1000).seat) == some 204) = true) ∧ (loginAt 49#8 1#8
      204 1000).recs = [⟨49#8, credential 204 1000⟩] ∧ (credential 204 1000).length = 6)
    ∧ (((fromAttached (withConsole 50 (empty50 0 1)) (loginAt 50#8 1#8 204 1000) fun c => c.hasSeat (BitVec.toNat
      (loginAt 50#8 1#8 204 1000).seat) && (c.seatOp (BitVec.toNat (loginAt 50#8 1#8 204 1000).seat)).isNone) = true)
      ∧ lookup (withConsole 50 (empty50 0 1)).consoles (BitVec.toNat (loginAt 50#8 1#8 204 1000).source) = some
      (empty50 0 1) ∧ (loginAt 50#8 1#8 204 1000).recs = [⟨49#8, credential 204 1000⟩] ∧ (credential 204 1000).length
      = 6 ∧ field2 (credential 204 1000) 0 = 204 ∧ risingKeys (withConsole 50 (empty50 0 1)).consoles = true ∧ 0 <
      (empty50 0 1).loginHold)
    ∧ (((fromAttached (withConsole 50 (empty50 2 0)) (loginAt 50#8 1#8 204 1001) fun c => c.hasSeat (BitVec.toNat
      (loginAt 50#8 1#8 204 1001).seat) && (c.seatOp (BitVec.toNat (loginAt 50#8 1#8 204 1001).seat)).isNone) = true)
      ∧ lookup (withConsole 50 (empty50 2 0)).consoles (BitVec.toNat (loginAt 50#8 1#8 204 1001).source) = some
      (empty50 2 0) ∧ (loginAt 50#8 1#8 204 1001).recs = [⟨49#8, credential 204 1001⟩] ∧ (credential 204 1001).length
      = 6 ∧ field2 (credential 204 1001) 0 = 204 ∧ risingKeys (withConsole 50 (empty50 2 0)).consoles = true ∧
      (empty50 2 0).loginHold = 0 ∧ credentialHolds (withConsole 50 (empty50 2 0)) 204 (field4 (credential 204 1001)
      2) = false)
    ∧ (((fromAttached (withConsole 50 (empty50 0 0)) (loginAt 50#8 2#8 204 1000) fun c => c.hasSeat (BitVec.toNat
      (loginAt 50#8 2#8 204 1000).seat) && (c.seatOp (BitVec.toNat (loginAt 50#8 2#8 204 1000).seat)).isNone) = true)
      ∧ lookup (withConsole 50 (empty50 0 0)).consoles (BitVec.toNat (loginAt 50#8 2#8 204 1000).source) = some
      (empty50 0 0) ∧ (loginAt 50#8 2#8 204 1000).recs = [⟨49#8, credential 204 1000⟩] ∧ (credential 204 1000).length
      = 6 ∧ field2 (credential 204 1000) 0 = 204 ∧ risingKeys (withConsole 50 (empty50 0 0)).consoles = true ∧
      (empty50 0 0).loginHold = 0 ∧ credentialHolds (withConsole 50 (empty50 0 0)) 204 (field4 (credential 204 1000)
      2) = true ∧ (withConsole 50 (empty50 0 0)).session 204 ≠ none ∧ (withConsole 50 (empty50 0 0)).holdsAny 204 =
      true)
    ∧ (((fromAttached (withConsole 50 (empty50 2 0)) (loginAt 50#8 1#8 205 1001) fun c => c.hasSeat (BitVec.toNat
      (loginAt 50#8 1#8 205 1001).seat) && (c.seatOp (BitVec.toNat (loginAt 50#8 1#8 205 1001).seat)).isNone) = true)
      ∧ lookup (withConsole 50 (empty50 2 0)).consoles (BitVec.toNat (loginAt 50#8 1#8 205 1001).source) = some
      (empty50 2 0) ∧ (loginAt 50#8 1#8 205 1001).recs = [⟨49#8, credential 205 1001⟩] ∧ (credential 205 1001).length
      = 6 ∧ field2 (credential 205 1001) 0 = 205 ∧ risingKeys (withConsole 50 (empty50 2 0)).consoles = true ∧
      (empty50 2 0).loginHold = 0 ∧ credentialHolds (withConsole 50 (empty50 2 0)) 205 (field4 (credential 205 1001)
      2) = true ∧ ((withConsole 50 (empty50 2 0)).session 205 = none ∨ (withConsole 50 (empty50 2 0)).holdsAny 205 =
      false))
    ∧ (requestFrom mill (by204 []) 204 = true ∧ mill.holdsAny 204 = true)
    ∧ (requestFrom (handing offered) (by301 []) 301 = true ∧ (handing offered).holdsAny 301 = false ∧ lookup (handing
      offered).consoles (BitVec.toNat (by301 []).source) = some (fullConsole 301))
    ∧ (requestFrom (withArea 7 graced) (by204 []) 204 = true ∧ (withArea 7 graced).holdsAny 204 = false ∧ lookup
      (withArea 7 graced).consoles (BitVec.toNat (by204 []).source) = some (fullConsole 204))
    ∧ (((fromAttached (withConsole 50 (empty50 0 0)) (tel 50#8 2#8 0#16 []) fun c => c.hasSeat (BitVec.toNat (tel 50#8
      2#8 0#16 []).seat) && c.seatOp (BitVec.toNat (tel 50#8 2#8 0#16 []).seat) == none) = true) ∧ loginRecord (tel
      50#8 2#8 0#16 []).recs = none)
    ∧ (((fromAttached mill (tel 49#8 1#8 0#16 [⟨49#8, b2 204⟩]) fun c => c.hasSeat (BitVec.toNat (tel 49#8 1#8 0#16
      [⟨49#8, b2 204⟩]).seat) && c.seatOp (BitVec.toNat (tel 49#8 1#8 0#16 [⟨49#8, b2 204⟩]).seat) == some 204) =
      true) ∧ loginRecord (tel 49#8 1#8 0#16 [⟨49#8, b2 204⟩]).recs = none)
    ∧ (((fromAttached moving (loginAt 50#8 2#8 204 1000) fun c => c.hasSeat (BitVec.toNat (loginAt 50#8 2#8 204
      1000).seat) && (c.seatOp (BitVec.toNat (loginAt 50#8 2#8 204 1000).seat)).isNone) = true) ∧ lookup
      moving.consoles (BitVec.toNat (loginAt 50#8 2#8 204 1000).source) = some (empty50 1 0) ∧ (loginAt 50#8 2#8 204
      1000).recs = [⟨49#8, credential 204 1000⟩] ∧ (credential 204 1000).length = 6 ∧ field2 (credential 204 1000) 0 =
      204 ∧ risingKeys moving.consoles = true ∧ (empty50 1 0).loginHold = 0 ∧ credentialHolds moving 204 (field4
      (credential 204 1000) 2) = true ∧ (moving.session 204 = none ∨ moving.holdsAny 204 = false))
    ∧ (moving.session 204 = some (49, 1) ∧ lookup moving.consoles 49 = some (fullConsole 204) ∧ (fullConsole
      204).attached = true ∧ (fullConsole 204).notices.length + moving.records.length + 18 ≤ 32) := by
  and_intros <;> decide +kernel

theorem witness_NoticeJoinsTheQueue :
    ((noted [Notice.flood 3 true]).attached = true ∧ (∃ m ∈ (noted [Notice.flood 3 true]).notices, m.kindCode =
      (Notice.flood 3 false).kindCode ∧ m.subject = (Notice.flood 3 false).subject))
    ∧ ((noted (List.map (fun i => Notice.flood i true) (List.range 31))).attached = true ∧ (∀ m ∈ (noted (List.map (fun
      i => Notice.flood i true) (List.range 31))).notices, m.kindCode = (Notice.flood 31 true).kindCode → m.subject ≠
      (Notice.flood 31 true).subject) ∧ (noted (List.map (fun i => Notice.flood i true) (List.range
      31))).notices.length < 32)
    ∧ ((noted (List.map (fun i => Notice.flood i true) (List.range 32))).attached = true ∧ (∀ m ∈ (noted (List.map (fun
      i => Notice.flood i true) (List.range 32))).notices, m.kindCode = (Notice.flood 32 true).kindCode → m.subject ≠
      (Notice.flood 32 true).subject) ∧ 32 ≤ (noted (List.map (fun i => Notice.flood i true) (List.range
      32))).notices.length) :=
  by decide +kernel

/-- The onset of point 13 qualifies at console 49, and its horn sounds (R78). -/
theorem test_onset_sounds :
    let t := after (.prep 0 (tel 13#8 0#8 0#16 (one 0x01#8 (reportRec 13 1)))) mill
    (∃ x, lookup t.slots 3 = some x ∧ QualifyingAlarm t 49 (fullConsole 204) x)
      ∧ (lookup t.consoles 49).map (·.horn) = some .sounding :=
  ⟨⟨freshSlot mill 13 .activeUnack noon noon false, by decide +kernel,
    by simp only [QualifyingAlarm]; decide +kernel⟩, by decide +kernel⟩

theorem witness_HornsAndNoticesFollowTheEvent :
    (risingKeys mill.consoles = true)
    ∧ ((onsetEvent mill).changes ≠ [] ∧ risingKeys (onsetEvent mill).s.consoles = true ∧ lookup (onsetEvent
      mill).s.consoles 49 = some (fullConsole 204) ∧ (fullConsole 204).attached = true)
    ∧ (OnsetReport mill (tel 13#8 0#8 0#16 (one 1#8 (reportRec 13 1))) (reportRec 13 1) 13 3 3 ∧ risingKeys
      mill.consoles = true ∧ lookup mill.consoles 49 = some (fullConsole 204) ∧ (fullConsole 204).attached = true)
    ∧ (countedFrom mill (by301 (Tests.claimRec 3)) 301 = true ∧ (by301 (Tests.claimRec 3)).recs = [⟨38#8, b1 3⟩] ∧ 3 <
      16 ∧ firstFailing (claimChecks mill (by301 (Tests.claimRec 3)) 301 3) = none ∧ (mill.area 3).authority ≠
      Authority.held ∧ risingKeys mill.consoles = true) :=
  ⟨by decide +kernel, by decide +kernel, by decide +kernel, by decide +kernel⟩

theorem witness_AcknowledgementIsMatched :
    (countedFrom (withArea 7 graced) (by204 (ackRec 11 3)) 204 = true ∧ (by204 (ackRec 11 3)).recs = [⟨33#8, b2 11 ++
      b2 3⟩] ∧ 11 < 65536 ∧ 3 < 65536 ∧ 11 < 8192 ∧ ((withArea 7 graced).pointDef 11).defined = true ∧ classOf
      (withArea 7 graced) (by204 (ackRec 11 3)) ConsoleClass.ack = true ∧ (withArea 7 graced).hasRight 204 ((withArea
      7 graced).pointDef 11).area RightLevel.ack = true ∧ ((withArea 7 graced).pointDef 11).priority = Priority.urgent
      ∧ (withArea 7 graced).hasRole 204 Role.shiftLead = false ∧ (((withArea 7 graced).area ((withArea 7
      graced).pointDef 11).area).authority ≠ Authority.held ∨ ∀ (h : Holder), ((withArea 7 graced).area ((withArea 7
      graced).pointDef 11).area).holder = some h → h.operator ≠ 204))
    ∧ (countedFrom (withArea 7 graced) (by301 (ackRec 11 3)) 301 = true ∧ (by301 (ackRec 11 3)).recs = [⟨33#8, b2 11 ++
      b2 3⟩] ∧ 11 < 65536 ∧ 3 < 65536 ∧ 11 < 8192 ∧ ((withArea 7 graced).pointDef 11).defined = true ∧ classOf
      (withArea 7 graced) (by301 (ackRec 11 3)) ConsoleClass.ack = true ∧ (withArea 7 graced).hasRight 301 ((withArea
      7 graced).pointDef 11).area RightLevel.ack = true ∧ (((withArea 7 graced).pointDef 11).priority ≠
      Priority.urgent ∨ (withArea 7 graced).hasRole 301 Role.shiftLead = true ∨ ((withArea 7 graced).area ((withArea 7
      graced).pointDef 11).area).authority = Authority.held ∧ ∃ h, ((withArea 7 graced).area ((withArea 7
      graced).pointDef 11).area).holder = some h ∧ h.operator = 301) ∧ firstFailing (ackChecks (withArea 7 graced)
      (by301 (ackRec 11 3)) 301 11) = none)
    ∧ (countedFrom mill (by204 (ackRec 11 3)) 204 = true ∧ (by204 (ackRec 11 3)).recs = [⟨33#8, b2 11 ++ b2 3⟩] ∧ 11 <
      65536 ∧ 3 < 65536 ∧ 11 < 8192 ∧ (mill.pointDef 11).defined = true ∧ classOf mill (by204 (ackRec 11 3))
      ConsoleClass.ack = true ∧ mill.hasRight 204 (mill.pointDef 11).area RightLevel.ack = true ∧ ((mill.pointDef
      11).priority ≠ Priority.urgent ∨ mill.hasRole 204 Role.shiftLead = true ∨ (mill.area (mill.pointDef
      11).area).authority = Authority.held ∧ ∃ h, (mill.area (mill.pointDef 11).area).holder = some h ∧ h.operator =
      204) ∧ firstFailing (ackChecks mill (by204 (ackRec 11 3)) 204 11) = none)
    ∧ (countedFrom mill (by204 (ackRec 8191 1)) 204 = true ∧ (by204 (ackRec 8191 1)).recs = [⟨33#8, b2 8191 ++ b2 1⟩] ∧
      8191 < 65536 ∧ 1 < 65536 ∧ firstFailing (ackChecks mill (by204 (ackRec 8191 1)) 204 8191) = some
      Result.unknownPoint)
    ∧ (countedFrom mill (by204 (ackRec 13 1)) 204 = true ∧ (by204 (ackRec 13 1)).recs = [⟨33#8, b2 13 ++ b2 1⟩] ∧ 13 <
      65536 ∧ 1 < 65536 ∧ 13 < 8192 ∧ (mill.pointDef 13).defined = true ∧ classOf mill (by204 (ackRec 13 1))
      ConsoleClass.ack = true ∧ mill.hasRight 204 (mill.pointDef 13).area RightLevel.ack = true ∧ ((mill.pointDef
      13).priority ≠ Priority.urgent ∨ mill.hasRole 204 Role.shiftLead = true ∨ (mill.area (mill.pointDef
      13).area).authority = Authority.held ∧ ∃ h, (mill.area (mill.pointDef 13).area).holder = some h ∧ h.operator =
      204) ∧ firstFailing (ackChecks mill (by204 (ackRec 13 1)) 204 13) = none ∧ mill.slotOf 13 = none)
    ∧ (countedFrom mill (by204 (ackRec 12 2)) 204 = true ∧ (by204 (ackRec 12 2)).recs = [⟨33#8, b2 12 ++ b2 2⟩] ∧ 12 <
      65536 ∧ 2 < 65536 ∧ 12 < 8192 ∧ (mill.pointDef 12).defined = true ∧ classOf mill (by204 (ackRec 12 2))
      ConsoleClass.ack = true ∧ mill.hasRight 204 (mill.pointDef 12).area RightLevel.ack = true ∧ ((mill.pointDef
      12).priority ≠ Priority.urgent ∨ mill.hasRole 204 Role.shiftLead = true ∨ (mill.area (mill.pointDef
      12).area).authority = Authority.held ∧ ∃ h, (mill.area (mill.pointDef 12).area).holder = some h ∧ h.operator =
      204) ∧ firstFailing (ackChecks mill (by204 (ackRec 12 2)) 204 12) = none ∧ mill.slotOf 12 = some (2, slot12) ∧
      slot12.state = AlarmState.activeAcked)
    ∧ (countedFrom mill (by204 (ackRec 10 2)) 204 = true ∧ (by204 (ackRec 10 2)).recs = [⟨33#8, b2 10 ++ b2 2⟩] ∧ 10 <
      65536 ∧ 2 < 65536 ∧ 10 < 8192 ∧ (mill.pointDef 10).defined = true ∧ classOf mill (by204 (ackRec 10 2))
      ConsoleClass.ack = true ∧ mill.hasRight 204 (mill.pointDef 10).area RightLevel.ack = true ∧ ((mill.pointDef
      10).priority ≠ Priority.urgent ∨ mill.hasRole 204 Role.shiftLead = true ∨ (mill.area (mill.pointDef
      10).area).authority = Authority.held ∧ ∃ h, (mill.area (mill.pointDef 10).area).holder = some h ∧ h.operator =
      204) ∧ firstFailing (ackChecks mill (by204 (ackRec 10 2)) 204 10) = none ∧ mill.slotOf 10 = some (0, slot10) ∧
      slot10.state ≠ AlarmState.activeAcked ∧ slot10.occ ≠ 2)
    ∧ (countedFrom mill (by204 (ackRec 10 1)) 204 = true ∧ (by204 (ackRec 10 1)).recs = [⟨33#8, b2 10 ++ b2 1⟩] ∧ 10 <
      65536 ∧ 1 < 65536 ∧ 10 < 8192 ∧ (mill.pointDef 10).defined = true ∧ classOf mill (by204 (ackRec 10 1))
      ConsoleClass.ack = true ∧ mill.hasRight 204 (mill.pointDef 10).area RightLevel.ack = true ∧ ((mill.pointDef
      10).priority ≠ Priority.urgent ∨ mill.hasRole 204 Role.shiftLead = true ∨ (mill.area (mill.pointDef
      10).area).authority = Authority.held ∧ ∃ h, (mill.area (mill.pointDef 10).area).holder = some h ∧ h.operator =
      204) ∧ firstFailing (ackChecks mill (by204 (ackRec 10 1)) 204 10) = none ∧ mill.slotOf 10 = some (0, slot10) ∧
      slot10.state = AlarmState.activeUnack ∧ slot10.occ = 1)
    ∧ (countedFrom mill (by204 (ackRec 11 3)) 204 = true ∧ (by204 (ackRec 11 3)).recs = [⟨33#8, b2 11 ++ b2 3⟩] ∧ 11 <
      65536 ∧ 3 < 65536 ∧ 11 < 8192 ∧ (mill.pointDef 11).defined = true ∧ classOf mill (by204 (ackRec 11 3))
      ConsoleClass.ack = true ∧ mill.hasRight 204 (mill.pointDef 11).area RightLevel.ack = true ∧ ((mill.pointDef
      11).priority ≠ Priority.urgent ∨ mill.hasRole 204 Role.shiftLead = true ∨ (mill.area (mill.pointDef
      11).area).authority = Authority.held ∧ ∃ h, (mill.area (mill.pointDef 11).area).holder = some h ∧ h.operator =
      204) ∧ firstFailing (ackChecks mill (by204 (ackRec 11 3)) 204 11) = none ∧ mill.slotOf 11 = some (1, slot11) ∧
      slot11.state = AlarmState.returnedUnack ∧ slot11.occ = 3 ∧ mill.queue = [] ∧ mill.AlarmTableSound)
    ∧ (countedFrom (withQueue [waiter]) (by204 (ackRec 11 3)) 204 = true ∧ (by204 (ackRec 11 3)).recs = [⟨33#8, b2 11 ++
      b2 3⟩] ∧ 11 < 65536 ∧ 3 < 65536 ∧ 11 < 8192 ∧ ((withQueue [waiter]).pointDef 11).defined = true ∧ classOf
      (withQueue [waiter]) (by204 (ackRec 11 3)) ConsoleClass.ack = true ∧ (withQueue [waiter]).hasRight 204
      ((withQueue [waiter]).pointDef 11).area RightLevel.ack = true ∧ (((withQueue [waiter]).pointDef 11).priority ≠
      Priority.urgent ∨ (withQueue [waiter]).hasRole 204 Role.shiftLead = true ∨ ((withQueue [waiter]).area
      ((withQueue [waiter]).pointDef 11).area).authority = Authority.held ∧ ∃ h, ((withQueue [waiter]).area
      ((withQueue [waiter]).pointDef 11).area).holder = some h ∧ h.operator = 204) ∧ firstFailing (ackChecks
      (withQueue [waiter]) (by204 (ackRec 11 3)) 204 11) = none ∧ (withQueue [waiter]).slotOf 11 = some (1, slot11) ∧
      slot11.state = AlarmState.returnedUnack ∧ slot11.occ = 3 ∧ (withQueue [waiter]).queue = [waiter] ∧ (withQueue
      [waiter]).AlarmTableSound) := by
  and_intros <;> decide +kernel

theorem witness_GroupAcknowledgementTakesPairs :
    (countedFrom mill (by204 []) 204 = true ∧ groupBody (by204 []).recs = false)
    ∧ (countedFrom (withConsole 49 (plain 204)) (by204 (pairRecs [(10, 1)])) 204 = true ∧ groupBody (by204 (pairRecs
      [(10, 1)])).recs = true ∧ (classOf (withConsole 49 (plain 204)) (by204 (pairRecs [(10, 1)])) ConsoleClass.ack &&
      ((withConsole 49 (plain 204)).consoleFeatures (BitVec.toNat (by204 (pairRecs [(10, 1)])).source)).groupAck) =
      false)
    ∧ (countedFrom mill (by301 (pairRecs [(10, 1), (11, 3), (10, 1)])) 301 = true ∧ groupBody (by301 (pairRecs [(10, 1),
      (11, 3), (10, 1)])).recs = true ∧ (classOf mill (by301 (pairRecs [(10, 1), (11, 3), (10, 1)])) ConsoleClass.ack
      && (mill.consoleFeatures (BitVec.toNat (by301 (pairRecs [(10, 1), (11, 3), (10, 1)])).source)).groupAck) = true
      ∧ mill.queue = [] ∧ mill.AlarmTableSound)
    ∧ (firstFailing (pairChecks mill (⟨301, 47, 1⟩ : Requester).operator 11) = some Result.groupRefused)
    ∧ (firstFailing (pairChecks mill (⟨301, 47, 1⟩ : Requester).operator 10) = none)
    ∧ (mill.slotOf 13 = none)
    ∧ (mill.slotOf 12 = some (2, slot12) ∧ slot12.state = AlarmState.activeAcked)
    ∧ (mill.slotOf 10 = some (0, slot10) ∧ slot10.state ≠ AlarmState.activeAcked ∧ slot10.occ ≠ 2)
    ∧ (mill.slotOf 10 = some (0, slot10) ∧ slot10.state ≠ AlarmState.activeAcked ∧ slot10.occ = 1 ∧ slot10.state =
      AlarmState.activeUnack)
    ∧ (mill.slotOf 11 = some (1, slot11) ∧ slot11.state ≠ AlarmState.activeAcked ∧ slot11.occ = 3 ∧ slot11.state =
      AlarmState.returnedUnack ∧ mill.queue = []) := by
  and_intros <;> decide +kernel

theorem witness_ShelvingActsOnThePoint :
    (countedFrom mill (by204 (shelveRec 11 1)) 204 = true ∧ (by204 (shelveRec 11 1)).recs = [⟨35#8, b2 11 ++ b2 1⟩] ∧
      11 < 65536 ∧ 1 ≤ 1 ∧ 1 < 65536 ∧ risingKeys mill.slots = true ∧ firstFailing (shelveChecks mill (by204
      (shelveRec 11 1)) 204 11) = some Result.shelveNotAllowed)
    ∧ (countedFrom mill (by204 (shelveRec 10 61)) 204 = true ∧ (by204 (shelveRec 10 61)).recs = [⟨35#8, b2 10 ++ b2 61⟩]
      ∧ 10 < 65536 ∧ 1 ≤ 61 ∧ 61 < 65536 ∧ risingKeys mill.slots = true ∧ firstFailing (shelveChecks mill (by204
      (shelveRec 10 61)) 204 10) = none)
    ∧ (countedFrom (withArea 3 relieved) (by204 (shelveRec 13 480)) 204 = true ∧ (by204 (shelveRec 13 480)).recs =
      [⟨35#8, b2 13 ++ b2 480⟩] ∧ 13 < 65536 ∧ 1 ≤ 480 ∧ 480 < 65536 ∧ risingKeys (withArea 3 relieved).slots = true ∧
      firstFailing (shelveChecks (withArea 3 relieved) (by204 (shelveRec 13 480)) 204 13) = none)
    ∧ (countedFrom mill (by301 (unshelveRec 10)) 301 = true ∧ (by301 (unshelveRec 10)).recs = [⟨36#8, b2 10⟩] ∧ 10 <
      65536 ∧ firstFailing (shelfChecks mill (by301 (unshelveRec 10)) 301 10) = some Result.deniedAuthority)
    ∧ (countedFrom mill (by204 (unshelveRec 10)) 204 = true ∧ (by204 (unshelveRec 10)).recs = [⟨36#8, b2 10⟩] ∧ 10 <
      65536 ∧ firstFailing (shelfChecks mill (by204 (unshelveRec 10)) 204 10) = none ∧ mill.shelved 10 = false)
    ∧ (countedFrom (withShelf [shelved12]) (by204 (unshelveRec 12)) 204 = true ∧ (by204 (unshelveRec 12)).recs = [⟨36#8,
      b2 12⟩] ∧ 12 < 65536 ∧ firstFailing (shelfChecks (withShelf [shelved12]) (by204 (unshelveRec 12)) 204 12) = none
      ∧ (withShelf [shelved12]).shelved 12 = true)
    ∧ ((owing [TickItem.shelf 10] (withShelf [shelved10, shelved12])).settled = true ∧ (owing [TickItem.shelf 10]
      (withShelf [shelved10, shelved12])).shelf = [] ++ [shelved10, shelved12] ∧ shelved10.point = 10 ∧
      shelved10.ticks ≤ 1 ∧ TickItem.shelf 10 ∈ (owing [TickItem.shelf 10] (withShelf [shelved10, shelved12])).owed ∧
      (∀ x ∈ ([] : List ShelfEntry), TickItem.shelf x.point ∉ (owing [TickItem.shelf 10] (withShelf [shelved10,
      shelved12])).owed))
    ∧ (countedFrom mill (by204 (shelveRec 10 0)) 204 = true ∧ (by204 (shelveRec 10 0)).recs = [⟨35#8, b2 10 ++ b2 0⟩] ∧
      10 < 65536)
    ∧ (countedFrom latchedShelf (by204 (unshelveRec 12)) 204 = true ∧ firstFailing (shelfChecks latchedShelf (by204
      (unshelveRec 12)) 204 12) = none ∧ latchedShelf.shelved 12 = true ∧ latchedShelf.slotOf 12 = some (2, slot12) ∧
      latchedShelf.console.ownRoom = true ∧ latchedShelf.time.Sound ∧ latchedShelf.isLatched .floodAny = true) := by
  and_intros <;> decide +kernel

theorem witness_SilenceActsOnTheHornAlone :
    (countedFrom (withConsole 49 (classed ConsoleClass.view 204)) (by204 []) 204 = true ∧ (by204 []).recs = [] ∧
      lookup (withConsole 49 (classed ConsoleClass.view 204)).consoles (BitVec.toNat (by204 []).source) = some
      (classed ConsoleClass.view 204) ∧ (classed ConsoleClass.view 204).cls = some ConsoleClass.view)
    ∧ (countedFrom (withConsole 49 (horned Horn.sounding)) (by204 []) 204 = true ∧ (by204 []).recs = [] ∧ lookup
      (withConsole 49 (horned Horn.sounding)).consoles (BitVec.toNat (by204 []).source) = some (horned Horn.sounding)
      ∧ (horned Horn.sounding).cls ≠ some ConsoleClass.view ∧ (horned Horn.sounding).horn = Horn.sounding)
    ∧ (countedFrom (withConsole 49 (horned Horn.silenced)) (by204 []) 204 = true ∧ (by204 []).recs = [] ∧ lookup
      (withConsole 49 (horned Horn.silenced)).consoles (BitVec.toNat (by204 []).source) = some (horned Horn.silenced)
      ∧ (horned Horn.silenced).cls ≠ some ConsoleClass.view ∧ (horned Horn.silenced).horn ≠ Horn.sounding) :=
  by decide +kernel

theorem witness_ClaimTakesTheArea :
    (countedFrom mill (by204 (Tests.claimRec 16)) 204 = true ∧ (by204 (Tests.claimRec 16)).recs = [⟨38#8, b1 16⟩] ∧ 16
      < 256 ∧ 16 ≤ 16)
    ∧ (countedFrom mill (by301 (Tests.claimRec 7)) 301 = true ∧ (by301 (Tests.claimRec 7)).recs = [⟨38#8, b1 7⟩] ∧ 7 <
      256 ∧ 7 < 16 ∧ firstFailing (claimChecks mill (by301 (Tests.claimRec 7)) 301 7) = some Result.deniedAuthority)
    ∧ (countedFrom mill (by204 (Tests.claimRec 7)) 204 = true ∧ (by204 (Tests.claimRec 7)).recs = [⟨38#8, b1 7⟩] ∧ 7 <
      256 ∧ 7 < 16 ∧ firstFailing (claimChecks mill (by204 (Tests.claimRec 7)) 204 7) = none ∧ (mill.area 7).authority
      = Authority.held)
    ∧ (countedFrom mill (by301 (Tests.claimRec 15)) 301 = true ∧ (by301 (Tests.claimRec 15)).recs = [⟨38#8, b1 15⟩] ∧ 15
      < 256 ∧ 15 < 16 ∧ firstFailing (claimChecks mill (by301 (Tests.claimRec 15)) 301 15) = none ∧ (mill.area
      15).authority ≠ Authority.held) :=
  ⟨by decide +kernel, by decide +kernel, by decide +kernel, by decide +kernel⟩

theorem witness_ForcedAreaChangesHands :
    (lastRecord (asked ⟨134#8, b1 16 ++ b2 204⟩) (request ⟨134#8, b1 16 ++ b2 204⟩) ⟨134#8, b1 16 ++ b2 204⟩ 0 = true
      ∧ 16 < 256 ∧ 204 < 65536 ∧ 16 ≤ 16)
    ∧ (lastRecord (asked ⟨134#8, b1 15 ++ b2 400⟩) (request ⟨134#8, b1 15 ++ b2 400⟩) ⟨134#8, b1 15 ++ b2 400⟩ 0 = true
      ∧ 15 < 256 ∧ 400 < 65536 ∧ 15 < 16 ∧ 400 ≠ 0 ∧ (asked ⟨134#8, b1 15 ++ b2 400⟩).session 400 = none)
    ∧ (lastRecord (asked ⟨134#8, b1 7 ++ b2 301⟩ none (withConsole 47 (classed ConsoleClass.ack 301))) (request ⟨134#8,
      b1 7 ++ b2 301⟩) ⟨134#8, b1 7 ++ b2 301⟩ 0 = true ∧ 7 < 256 ∧ 301 < 65536 ∧ 7 < 16 ∧ 301 ≠ 0 ∧ (asked ⟨134#8, b1
      7 ++ b2 301⟩ none (withConsole 47 (classed ConsoleClass.ack 301))).session 301 = some (47, 1) ∧ (asked ⟨134#8,
      b1 7 ++ b2 301⟩ none (withConsole 47 (classed ConsoleClass.ack 301))).consoleAtLeast 47 ConsoleClass.full =
      false)
    ∧ (lastRecord (asked ⟨134#8, b1 7 ++ b2 301⟩) (request ⟨134#8, b1 7 ++ b2 301⟩) ⟨134#8, b1 7 ++ b2 301⟩ 0 = true ∧ 7
      < 256 ∧ 301 < 65536 ∧ 7 < 16 ∧ 301 ≠ 0 ∧ (asked ⟨134#8, b1 7 ++ b2 301⟩).session 301 = some (47, 1) ∧ (asked
      ⟨134#8, b1 7 ++ b2 301⟩).consoleAtLeast 47 ConsoleClass.full = true ∧ ((asked ⟨134#8, b1 7 ++ b2 301⟩).area
      7).openRecord = none)
    ∧ (lastRecord (asked ⟨134#8, b1 7 ++ b2 0⟩) (request ⟨134#8, b1 7 ++ b2 0⟩) ⟨134#8, b1 7 ++ b2 0⟩ 0 = true ∧ 7 < 256
      ∧ 0 < 65536 ∧ 7 < 16 ∧ 0 = 0 ∧ ((asked ⟨134#8, b1 7 ++ b2 0⟩).area 7).openRecord = none)
    ∧ (lastRecord (asked ⟨134#8, b1 7 ++ b2 0⟩ none (handing offered)) (request ⟨134#8, b1 7 ++ b2 0⟩) ⟨134#8, b1 7 ++
      b2 0⟩ 0 = true ∧ 7 < 256 ∧ 0 < 65536)
    ∧ (lastRecord (asked ⟨134#8, b1 7 ++ b2 0⟩ none (handing offered)) (request ⟨134#8, b1 7 ++ b2 0⟩) ⟨134#8, b1 7 ++
      b2 0⟩ 0 = true ∧ 7 < 256 ∧ 0 < 65536 ∧ 7 < 16 ∧ (asked ⟨134#8, b1 7 ++ b2 0⟩ none (handing offered)).time.Sound
      ∧ ((asked ⟨134#8, b1 7 ++ b2 0⟩ none (handing offered)).area 7).openRecord = some offered.number ∧ (asked
      ⟨134#8, b1 7 ++ b2 0⟩ none (handing offered)).record offered.number = some offered ∧ 7 ∈ offered.areas ∧ (0 = 0
      ∧ (none : Option Holder) = none ∨ 0 ≠ 0 ∧ ∃ c n, (asked ⟨134#8, b1 7 ++ b2 0⟩ none (handing offered)).session 0
      = some (c, n) ∧ (asked ⟨134#8, b1 7 ++ b2 0⟩ none (handing offered)).consoleAtLeast c ConsoleClass.full = true ∧
      none = some (⟨0, c, n⟩ : Holder)))
    ∧ (lastRecord (asked ⟨134#8, b1 7 ++ b2 301⟩ none relievedHanding) (request ⟨134#8, b1 7 ++ b2 301⟩) ⟨134#8, b1 7 ++
      b2 301⟩ 0 = true ∧ 7 < 256 ∧ 301 < 65536 ∧ 7 < 16 ∧ (asked ⟨134#8, b1 7 ++ b2 301⟩ none
      relievedHanding).time.Sound ∧ ((asked ⟨134#8, b1 7 ++ b2 301⟩ none relievedHanding).area 7).openRecord = some
      offered.number ∧ (asked ⟨134#8, b1 7 ++ b2 301⟩ none relievedHanding).record offered.number = some offered ∧ 7 ∈
      offered.areas ∧ (301 = 0 ∧ some (⟨301, 47, 1⟩ : Holder) = none ∨ 301 ≠ 0 ∧ ∃ c n, (asked ⟨134#8, b1 7 ++ b2 301⟩
      none relievedHanding).session 301 = some (c, n) ∧ (asked ⟨134#8, b1 7 ++ b2 301⟩ none
      relievedHanding).consoleAtLeast c ConsoleClass.full = true ∧ some ⟨301, 47, 1⟩ = some (⟨301, c, n⟩ : Holder))) := by
  and_intros <;> first
    | decide +kernel
    | exact .inl ⟨rfl, rfl⟩
    | exact .inr ⟨by decide, 47, 1, by decide +kernel, by decide +kernel, rfl⟩

theorem witness_PageIsAnsweredOrTransferred :
    (requestFrom mill (by204 (pageRec 16 0)) 204 = true ∧ pageRecord (by204 (pageRec 16 0)).recs = none)
    ∧ (requestFrom mill (by204 (pageRec 15 64)) 204 = true ∧ pageRecord (by204 (pageRec 15 64)).recs = none)
    ∧ (requestFrom (withConsole 49 (fullConsole 205)) (by205 (pageRec 7 0)) 205 = true ∧ 7 ≤ 15 ∧ 0 ≤ 63 ∧ (by205
      (pageRec 7 0)).recs = [⟨52#8, b1 7 ++ b1 0⟩] ∧ (withConsole 49 (fullConsole 205)).hasRight 205 7 RightLevel.view
      = false)
    ∧ (requestFrom mill (by204 (pageRec 15 63)) 204 = true ∧ 15 ≤ 15 ∧ 63 ≤ 63 ∧ (by204 (pageRec 15 63)).recs = [⟨52#8,
      b1 15 ++ b1 63⟩] ∧ mill.hasRight 204 15 RightLevel.view = true)
    ∧ (requestFrom (withConsole 49 (fullConsole 205)) (by205 (pageRec 7 255)) 205 = true ∧ 7 ≤ 15 ∧ (by205 (pageRec 7
      255)).recs = [⟨52#8, b1 7 ++ [255#8]⟩] ∧ lookup (withConsole 49 (fullConsole 205)).consoles (BitVec.toNat (by205
      (pageRec 7 255)).source) = some (fullConsole 205) ∧ (withConsole 49 (fullConsole 205)).hasRight 205 7
      RightLevel.view = false)
    ∧ (requestFrom (withConsole 49 (paging (transfer 7 16 1 0))) (by204 (pageRec 7 255)) 204 = true ∧ 7 ≤ 15 ∧ (by204
      (pageRec 7 255)).recs = [⟨52#8, b1 7 ++ [255#8]⟩] ∧ lookup (withConsole 49 (paging (transfer 7 16 1
      0))).consoles (BitVec.toNat (by204 (pageRec 7 255)).source) = some (paging (transfer 7 16 1 0)) ∧ (withConsole
      49 (paging (transfer 7 16 1 0))).hasRight 204 7 RightLevel.view = true ∧ (paging (transfer 7 16 1 0)).transfer ≠
      none)
    ∧ (requestFrom (busyConsole (List.replicate 128 note)) (by204 (pageRec 7 255)) 204 = true ∧ 7 ≤ 15 ∧ (by204 (pageRec
      7 255)).recs = [⟨52#8, b1 7 ++ [255#8]⟩] ∧ lookup (busyConsole (List.replicate 128 note)).consoles (BitVec.toNat
      (by204 (pageRec 7 255)).source) = some (fullConsole 204) ∧ (busyConsole (List.replicate 128 note)).hasRight 204
      7 RightLevel.view = true ∧ (fullConsole 204).transfer = none ∧ (busyConsole (List.replicate 128
      note)).console.ownRoom = false)
    ∧ (requestFrom mill (by204 (pageRec 7 255)) 204 = true ∧ 7 ≤ 15 ∧ (by204 (pageRec 7 255)).recs = [⟨52#8, b1 7 ++
      [255#8]⟩] ∧ lookup mill.consoles (BitVec.toNat (by204 (pageRec 7 255)).source) = some (fullConsole 204) ∧
      mill.hasRight 204 7 RightLevel.view = true ∧ (fullConsole 204).transfer = none ∧ mill.console.ownRoom = true)
    ∧ (2 < 16 ∧ (standingList mill 7)[0 + 2]? = some (Standing.slot slot12)) := by
  and_intros <;> decide +kernel

theorem witness_WaitingConsoleIsServedInTurn :
    (risingKeys (withConsole 49 (noted [Notice.horn Horn.quiet])).consoles = true ∧ nextWaiting (withConsole 49 (noted
      [Notice.horn Horn.quiet])) = some 49)
    ∧ ((withConsole 49 (noted [Notice.horn Horn.quiet])).settled = true ∧ nextWaiting (withConsole 49 (noted
      [Notice.horn Horn.quiet])) = some 49 ∧ lookup (withConsole 49 (noted [Notice.horn Horn.quiet])).consoles 49 =
      some (noted [Notice.horn Horn.quiet]) ∧ (noted [Notice.horn Horn.quiet]).transfer = none ∧ (noted [Notice.horn
      Horn.quiet]).notices = [Notice.horn Horn.quiet] ∧ (withConsole 49 (noted [Notice.horn
      Horn.quiet])).console.ownRoom = true)
    ∧ ((withConsole 49 (paging (transfer 7 0 0 1))).settled = true ∧ nextWaiting (withConsole 49 (paging (transfer 7 0 0
      1))) = some 49 ∧ lookup (withConsole 49 (paging (transfer 7 0 0 1))).consoles 49 = some (paging (transfer 7 0 0
      1)) ∧ (paging (transfer 7 0 0 1)).transfer = some (transfer 7 0 0 1) ∧ (withConsole 49 (paging (transfer 7 0 0
      1))).console.ownRoom = true ∧ ((withConsole 49 (paging (transfer 7 0 0 1))).area (transfer 7 0 0
      1).area).generation ≠ (transfer 7 0 0 1).generation)
    ∧ ((withConsole 49 (paging (transfer 7 0 0 0))).settled = true ∧ nextWaiting (withConsole 49 (paging (transfer 7 0 0
      0))) = some 49 ∧ lookup (withConsole 49 (paging (transfer 7 0 0 0))).consoles 49 = some (paging (transfer 7 0 0
      0)) ∧ (paging (transfer 7 0 0 0)).transfer = some (transfer 7 0 0 0) ∧ (withConsole 49 (paging (transfer 7 0 0
      0))).console.ownRoom = true ∧ ((withConsole 49 (paging (transfer 7 0 0 0))).area (transfer 7 0 0
      0).area).generation = (transfer 7 0 0 0).generation ∧ (standingList (withConsole 49 (paging (transfer 7 0 0 0)))
      (transfer 7 0 0 0).area).length ≤ (transfer 7 0 0 0).position + 16)
    ∧ ((withConsole 49 (paging (transfer 0 0 0 0)) (crowdOf 17 [] 0)).settled = true ∧ nextWaiting (withConsole 49
      (paging (transfer 0 0 0 0)) (crowdOf 17 [] 0)) = some 49 ∧ lookup (withConsole 49 (paging (transfer 0 0 0 0))
      (crowdOf 17 [] 0)).consoles 49 = some (paging (transfer 0 0 0 0)) ∧ (paging (transfer 0 0 0 0)).transfer = some
      (transfer 0 0 0 0) ∧ (withConsole 49 (paging (transfer 0 0 0 0)) (crowdOf 17 [] 0)).console.ownRoom = true ∧
      ((withConsole 49 (paging (transfer 0 0 0 0)) (crowdOf 17 [] 0)).area (transfer 0 0 0 0).area).generation =
      (transfer 0 0 0 0).generation ∧ (transfer 0 0 0 0).position + 16 < (standingList (withConsole 49 (paging
      (transfer 0 0 0 0)) (crowdOf 17 [] 0)) (transfer 0 0 0 0).area).length)
    ∧ (nextWaiting mill = none) :=
  ⟨by decide +kernel, by decide +kernel, by decide +kernel, by decide +kernel, by decide +kernel, by decide +kernel⟩

theorem witness_OfferOpensARecord :
    (handoverStep mill (by204 (one 65#8 (offerData 1 205 128))) 204 65#8 (offerData 1 205 128) = true ∧ (offerData 1
      205 128).length = 5 ∧ risingKeys mill.consoles = true ∧ firstFailing (offerChecks mill 204 (offerOf (offerData 1
      205 128))) = some Result.incomingAbsent)
    ∧ (handoverStep mill (by204 (one 65#8 (offerData 1 301 128))) 204 65#8 (offerData 1 301 128) = true ∧ (offerData 1
      301 128).length = 5 ∧ risingKeys mill.consoles = true ∧ firstFailing (offerChecks mill 204 (offerOf (offerData 1
      301 128))) = none ∧ (offerOf (offerData 1 301 128)).kind = some HandoverKind.shift ∧ mill.session (offerOf
      (offerData 1 301 128)).inOp = some (47, 1) ∧ (buildReview mill HandoverKind.shift (offerOf (offerData 1 301
      128)).areas).length ≤ 256)
    ∧ (handoverStep (withArea 0 held7 (crowdOf 1 [] 256)) (by204 (one 65#8 (offerData 1 301 1))) 204 65#8 (offerData 1
      301 1) = true ∧ (offerData 1 301 1).length = 5 ∧ risingKeys (withArea 0 held7 (crowdOf 1 [] 256)).consoles =
      true ∧ firstFailing (offerChecks (withArea 0 held7 (crowdOf 1 [] 256)) 204 (offerOf (offerData 1 301 1))) = none
      ∧ (offerOf (offerData 1 301 1)).kind = some HandoverKind.shift ∧ (withArea 0 held7 (crowdOf 1 [] 256)).session
      (offerOf (offerData 1 301 1)).inOp = some (47, 1) ∧ 256 < (buildReview (withArea 0 held7 (crowdOf 1 [] 256))
      HandoverKind.shift (offerOf (offerData 1 301 1)).areas).length) :=
  by decide +kernel

theorem witness_ReviewIsAttendedAndMarked :
    (handoverStep (handing offered) (by301 (one 66#8 (b2 5))) 301 66#8 (b2 5) = true ∧ (b2 5).length = 2 ∧ (handing
      offered).record (field2 (b2 5) 0) = some offered ∧ offered.inOp = 301 ∧ offered.state = HandoverState.offered)
    ∧ (handoverStep (handing reviewing) (by301 (one 66#8 (b2 5))) 301 66#8 (b2 5) = true ∧ (b2 5).length = 2 ∧ (handing
      reviewing).record (field2 (b2 5) 0) = some reviewing ∧ reviewing.inOp = 301 ∧ reviewing.state ≠
      HandoverState.offered)
    ∧ (handoverStep (handing offered) (by301 (one 67#8 (pairsData 0 []))) 301 67#8 (pairsData 0 []) = true ∧
      reviewedLength (pairsData 0 []) = true ∧ (handing offered).record (field2 (pairsData 0 []) 0) = some offered ∧
      offered.inOp = 301 ∧ offered.state ≠ HandoverState.review)
    ∧ (handoverStep (handing reviewing) (by301 (one 67#8 (pairsData 15 [(0, 1), (3, 9)]))) 301 67#8 (pairsData 15 [(0,
      1), (3, 9)]) = true ∧ reviewedLength (pairsData 15 [(0, 1), (3, 9)]) = true ∧ (handing reviewing).record (field2
      (pairsData 15 [(0, 1), (3, 9)]) 0) = some reviewing ∧ reviewing.inOp = 301 ∧ reviewing.state =
      HandoverState.review)
    ∧ (reviewing.list.length ≤ 3)
    ∧ (reviewing.list[2]? = some entry13 ∧ entry13.state = ReviewState.resolved)
    ∧ (reviewing.list[0]? = some entry10 ∧ entry10.state ≠ ReviewState.resolved ∧ entry10.occ ≠ 2)
    ∧ (reviewing.list[0]? = some entry10 ∧ entry10.state ≠ ReviewState.resolved ∧ entry10.occ = 1)
    ∧ (countedFrom (withConsole 49 (plain 204)) (by204 (one 65#8 (offerData 1 301 128))) 204 = true ∧ ((by204 (one 65#8
      (offerData 1 301 128))).recs = [⟨65#8, offerData 1 301 128⟩] ∨ (by204 (one 65#8 (offerData 1 301
      128))).recs.length ≠ 1) ∧ dialogConsole (withConsole 49 (plain 204)) (BitVec.toNat (by204 (one 65#8 (offerData 1
      301 128))).source) = false ∧ ((Instr.offer 0 (by204 (one 65#8 (offerData 1 301 128))), 65#8, fun d => d.length
      == 5) ∈ hovrSteps 0 (by204 (one 65#8 (offerData 1 301 128)))))
    ∧ (countedFrom mill (by301 (one 67#8 [0#8])) 301 = true ∧ (by301 (one 67#8 [0#8])).recs = [⟨67#8, [0#8]⟩] ∧
      reviewedLength [0#8] = false ∧ dialogConsole mill (BitVec.toNat (by301 (one 67#8 [0#8])).source) = true ∧
      (Instr.reviewed 0 (by301 (one 67#8 [0#8])), 67#8, reviewedLength) ∈ hovrSteps 0 (by301 (one 67#8 [0#8])))
    ∧ (countedFrom mill (by301 []) 301 = true ∧ (by301 []).recs.length ≠ 1 ∧ dialogConsole mill (BitVec.toNat (by301
      []).source) = true ∧ ((Instr.withdraw 0 (by301 []), 70#8, fun d => d.length == 2) ∈ hovrSteps 0 (by301 [])))
    ∧ (handoverStep mill (by301 (one 66#8 (b2 5))) 301 66#8 (b2 5) = true ∧ ((b2 5).length == 2) = true ∧ mill.record
      (field2 (b2 5) 0) = none ∧ ((Instr.attend 0 (by301 (one 66#8 (b2 5))), 66#8, fun d => d.length == 2, true,
      false) ∈ partySteps 0 (by301 (one 66#8 (b2 5)))))
    ∧ (handoverStep (handing offered) (by301 (one 68#8 (b2 5))) 301 68#8 (b2 5) = true ∧ ((b2 5).length == 2) = true ∧
      (handing offered).record (field2 (b2 5) 0) = some offered ∧ (if true = true then offered.inOp else
      offered.outOp) = 301 ∧ true = true ∧ offered.state ≠ HandoverState.review ∧ ((Instr.accept 0 (by301 (one 68#8
      (b2 5))), 68#8, fun d => d.length == 2, true, true) ∈ partySteps 0 (by301 (one 68#8 (b2 5)))))
    ∧ (handoverStep (handing offered) (by204 (one 69#8 (b2 5))) 204 69#8 (b2 5) = true ∧ ((b2 5).length == 2) = true ∧
      (handing offered).record (field2 (b2 5) 0) = some offered ∧ (if true = true then offered.inOp else
      offered.outOp) ≠ 204 ∧ ((Instr.decline 0 (by204 (one 69#8 (b2 5))), 69#8, fun d => d.length == 2, true, false) ∈
      partySteps 0 (by204 (one 69#8 (b2 5))))) := by
  and_intros <;> first
    | decide +kernel
    | simp [hovrSteps]
    | simp [partySteps]

theorem witness_ReviewListsFollowTheAlarms :
    ((List.map (fun h => h.number) (onsetEvent (opening3 HandoverKind.shift)).s.records).Nodup)
    ∧ ((opening3 HandoverKind.shift).records = [open3 HandoverKind.shift] ∧ (List.foldl (fun r x => reviewShelf
      (opening3 HandoverKind.shift) x r) (List.foldl (fun r c => reviewChange (opening3 HandoverKind.shift) c r)
      (open3 HandoverKind.shift, false) [onset13]) []).2 = true)
    ∧ ((handing offered).records = [offered] ∧ (List.foldl (fun r x => reviewShelf (handing offered) x r) (List.foldl
      (fun r c => reviewChange (handing offered) c r) (offered, false) [onset13]) []).2 = false)
    ∧ ((List.map (fun e => e.point) reviewing.list).Nodup ∧ (∃ e ∈ reviewing.list, e.point = (changed ChangeKind.reonset
      10 7 (some 0)).point) ∧ ((changed ChangeKind.reonset 10 7 (some 0)).kind ∈ [ChangeKind.onset,
      ChangeKind.reonset, ChangeKind.ringback, ChangeKind.queueJoin, ChangeKind.queueReonset] ∨ (changed
      ChangeKind.reonset 10 7 (some 0)).kind = ChangeKind.reannounce ∧ (changed ChangeKind.reonset 10 7 (some
      0)).oldOcc ≠ (changed ChangeKind.reonset 10 7 (some 0)).newOcc))
    ∧ ((List.map (fun e => e.point) reviewing.list).Nodup ∧ (∃ e ∈ reviewing.list, e.point = (changed
      ChangeKind.admission 10 7 (some 0)).point) ∧ (changed ChangeKind.admission 10 7 (some 0)).kind =
      ChangeKind.admission)
    ∧ ((List.map (fun e => e.point) reviewing.list).Nodup ∧ (∃ e ∈ reviewing.list, e.point = (changed ChangeKind.free 10
      7 none).point) ∧ ((changed ChangeKind.free 10 7 none).kind ∈ [ChangeKind.free, ChangeKind.evict,
      ChangeKind.queueLeave] ∧ mill.shelved (changed ChangeKind.free 10 7 none).point = false ∨ (changed
      ChangeKind.free 10 7 none).kind = ChangeKind.discard) ∧ (∃ e ∈ reviewing.list, e.point = (changed
      ChangeKind.free 10 7 none).point ∧ e.state ≠ ReviewState.resolved))
    ∧ ((List.map (fun e => e.point) reviewing.list).Nodup ∧ (∃ e ∈ reviewing.list, e.point = (changed ChangeKind.ack 10
      7 (some 0)).point) ∧ (¬((changed ChangeKind.ack 10 7 (some 0)).kind ∈ [ChangeKind.onset, ChangeKind.reonset,
      ChangeKind.ringback, ChangeKind.queueJoin, ChangeKind.queueReonset] ∨ (changed ChangeKind.ack 10 7 (some
      0)).kind = ChangeKind.reannounce ∧ (changed ChangeKind.ack 10 7 (some 0)).oldOcc ≠ (changed ChangeKind.ack 10 7
      (some 0)).newOcc)) ∧ (changed ChangeKind.ack 10 7 (some 0)).kind ≠ ChangeKind.admission ∧ (¬((changed
      ChangeKind.ack 10 7 (some 0)).kind ∈ [ChangeKind.free, ChangeKind.evict, ChangeKind.queueLeave] ∧ mill.shelved
      (changed ChangeKind.ack 10 7 (some 0)).point = false)) ∧ (changed ChangeKind.ack 10 7 (some 0)).kind ≠
      ChangeKind.discard)
    ∧ ((List.map (fun e => e.point) (open3 HandoverKind.shift).list).Nodup ∧ (∀ e ∈ (open3 HandoverKind.shift).list,
      e.point ≠ onset13.point) ∧ (open3 HandoverKind.shift).list.length < 256 ∧ (onset13.area ∈ (open3
      HandoverKind.shift).areas ∧ ((onset13.kind ∈ [ChangeKind.onset, ChangeKind.reonset, ChangeKind.ringback,
      ChangeKind.queueJoin, ChangeKind.queueReonset] ∨ onset13.kind = ChangeKind.reannounce ∧ onset13.oldOcc ≠
      onset13.newOcc) ∨ onset13.kind = ChangeKind.admission) ∧ (open3 HandoverKind.shift).kind = .shift))
    ∧ ((List.map (fun e => e.point) fullList.list).Nodup ∧ (∀ e ∈ fullList.list, e.point ≠ onset13.point) ∧ 256 ≤
      fullList.list.length ∧ (onset13.area ∈ fullList.areas ∧ ((onset13.kind ∈ [ChangeKind.onset, ChangeKind.reonset,
      ChangeKind.ringback, ChangeKind.queueJoin, ChangeKind.queueReonset] ∨ onset13.kind = ChangeKind.reannounce ∧
      onset13.oldOcc ≠ onset13.newOcc) ∨ onset13.kind = ChangeKind.admission) ∧ fullList.kind = .shift))
    ∧ ((List.map (fun e => e.point) reviewing.list).Nodup ∧ (∃ e ∈ reviewing.list, e.point = onset13.point) ∧
      (onset13.kind ∈ [ChangeKind.onset, ChangeKind.reonset, ChangeKind.ringback, ChangeKind.queueJoin,
      ChangeKind.queueReonset] ∨ onset13.kind = ChangeKind.reannounce ∧ onset13.oldOcc ≠ onset13.newOcc))
    ∧ ((List.map (fun e => e.point) reviewing.list).Nodup ∧ (∃ e ∈ reviewing.list, e.point = 10) ∧ (mill.dynOf 10).cond
      = Condition.normal)
    ∧ ((List.map (fun e => e.point) (open3 HandoverKind.shift).list).Nodup ∧ (∀ e ∈ (open3 HandoverKind.shift).list,
      e.point ≠ 13) ∧ (mill.pointDef 13).area ∈ (open3 HandoverKind.shift).areas ∧ (open3
      HandoverKind.shift).list.length < 256)
    ∧ ((List.map (fun e => e.point) fullList.list).Nodup ∧ (∀ e ∈ fullList.list, e.point ≠ 13) ∧ (mill.pointDef 13).area
      ∈ fullList.areas ∧ 256 ≤ fullList.list.length)
    ∧ ((List.map (fun e => e.point) (open3 HandoverKind.shift).list).Nodup ∧ (∀ e ∈ (open3 HandoverKind.shift).list,
      e.point ≠ 11) ∧ (mill.pointDef 11).area ∉ (open3 HandoverKind.shift).areas)
    ∧ ((List.map (fun e => e.point) reviewing.list).Nodup ∧ (∃ e ∈ reviewing.list, e.point = 10) ∧ (active10.dynOf
      10).cond = Condition.active)
    ∧ (OnsetReport (opening3 HandoverKind.shift) (tel 13#8 0#8 0#16 (one 1#8 (reportRec 13 1))) (reportRec 13 1) 13 3 3
      ∧ (List.map (fun h => h.number) (opening3 HandoverKind.shift).records).Nodup ∧ open3 HandoverKind.shift ∈
      (opening3 HandoverKind.shift).records ∧ (open3 HandoverKind.shift).kind = HandoverKind.shift ∧ 3 ∈ (open3
      HandoverKind.shift).areas ∧ (∀ e ∈ (open3 HandoverKind.shift).list, e.point ≠ 13) ∧ (open3
      HandoverKind.shift).list.length < 256)
    ∧ (countedFrom (opening3 HandoverKind.shift) (by204 (ackRec 11 3)) 204 = true ∧ (by204 (ackRec 11 3)).recs = [⟨33#8,
      b2 11 ++ b2 3⟩] ∧ 11 < 65536 ∧ 3 < 65536 ∧ firstFailing (ackChecks (opening3 HandoverKind.shift) (by204 (ackRec
      11 3)) 204 11) = none ∧ (opening3 HandoverKind.shift).slotOf 11 = some (1, slot11) ∧ slot11.state =
      AlarmState.returnedUnack ∧ slot11.occ = 3 ∧ (opening3 HandoverKind.shift).queue = [] ∧ (opening3
      HandoverKind.shift).AlarmTableSound ∧ (opening3 HandoverKind.shift).shelved 11 = false ∧ (List.map (fun h =>
      h.number) (opening3 HandoverKind.shift).records).Nodup ∧ open3 HandoverKind.shift ∈ (opening3
      HandoverKind.shift).records ∧ (List.map (fun e => e.point) (open3 HandoverKind.shift).list).Nodup) := by
  and_intros <;> decide +kernel

theorem witness_AcceptCompletesTheHandover :
    (handoverStep (handing reviewing) (by301 (one 68#8 (b2 5))) 301 68#8 (b2 5) = true ∧ (b2 5).length = 2 ∧ (handing
      reviewing).record (field2 (b2 5) 0) = some reviewing ∧ reviewing.inOp = 301 ∧ reviewing.state =
      HandoverState.review ∧ (handing reviewing).NumbersApart ∧ reviewing.unreviewed ≠ 0)
    ∧ (handoverStep (handing incomplete) (by301 (one 68#8 (b2 5))) 301 68#8 (b2 5) = true ∧ (b2 5).length = 2 ∧ (handing
      incomplete).record (field2 (b2 5) 0) = some incomplete ∧ incomplete.inOp = 301 ∧ incomplete.state =
      HandoverState.review ∧ (handing incomplete).NumbersApart ∧ incomplete.unreviewed = 0 ∧ incomplete.incomplete =
      true)
    ∧ (handoverStep (withConsole 47 (fullConsole 205) (handing to205)) (tel 47#8 1#8 205#16 (one 68#8 (b2 5))) 205 68#8
      (b2 5) = true ∧ (b2 5).length = 2 ∧ (withConsole 47 (fullConsole 205) (handing to205)).record (field2 (b2 5) 0)
      = some to205 ∧ to205.inOp = 205 ∧ to205.state = HandoverState.review ∧ (withConsole 47 (fullConsole 205)
      (handing to205)).NumbersApart ∧ to205.unreviewed = 0 ∧ to205.incomplete = false ∧ (∃ a ∈ to205.areas,
      (withConsole 47 (fullConsole 205) (handing to205)).hasRight 205 a RightLevel.operate = false))
    ∧ (handoverStep (handing (reviewed HandoverKind.relief)) (by301 (one 68#8 (b2 5))) 301 68#8 (b2 5) = true ∧ (b2
      5).length = 2 ∧ (handing (reviewed HandoverKind.relief)).record (field2 (b2 5) 0) = some (reviewed
      HandoverKind.relief) ∧ (reviewed HandoverKind.relief).inOp = 301 ∧ (reviewed HandoverKind.relief).state =
      HandoverState.review ∧ (handing (reviewed HandoverKind.relief)).NumbersApart ∧ (reviewed
      HandoverKind.relief).unreviewed = 0 ∧ (reviewed HandoverKind.relief).incomplete = false ∧ (∀ a ∈ (reviewed
      HandoverKind.relief).areas, (handing (reviewed HandoverKind.relief)).hasRight 301 a RightLevel.operate = true))
    ∧ (handoverStep (handing (reviewed HandoverKind.shift)) (by301 (one 68#8 (b2 5))) 301 68#8 (b2 5) = true ∧ (b2
      5).length = 2 ∧ (handing (reviewed HandoverKind.shift)).record (field2 (b2 5) 0) = some (reviewed
      HandoverKind.shift) ∧ (reviewed HandoverKind.shift).inOp = 301 ∧ (reviewed HandoverKind.shift).state =
      HandoverState.review ∧ (handing (reviewed HandoverKind.shift)).NumbersApart ∧ (reviewed
      HandoverKind.shift).unreviewed = 0 ∧ (reviewed HandoverKind.shift).incomplete = false ∧ (∀ a ∈ (reviewed
      HandoverKind.shift).areas, (handing (reviewed HandoverKind.shift)).hasRight 301 a RightLevel.operate = true)) :=
  ⟨by decide +kernel, by decide +kernel, by decide +kernel, by decide +kernel, by decide +kernel⟩

theorem witness_PartyEndsTheHandover :
    (handoverStep (handing offered) (by301 (one 69#8 (b2 5))) 301 69#8 (b2 5) = true ∧ (b2 5).length = 2 ∧ (handing
      offered).record (field2 (b2 5) 0) = some offered ∧ offered.inOp = 301)
    ∧ (handoverStep (handing reviewing) (by204 (one 70#8 (b2 5))) 204 70#8 (b2 5) = true ∧ (b2 5).length = 2 ∧ (handing
      reviewing).record (field2 (b2 5) 0) = some reviewing ∧ reviewing.outOp = 204)
    ∧ (countedFrom (handing offered) (by204 (one 69#8 (b2 6))) 204 = true ∧ (b2 6).length = 2 ∧ (by204 (one 69#8 (b2
      6))).recs = [⟨69#8, b2 6⟩] ∧ dialogConsole (handing offered) (BitVec.toNat (by204 (one 69#8 (b2 6))).source) =
      true ∧ (handing offered).record (field2 (b2 6) 0) = none)
    ∧ (countedFrom (handing offered) (by204 (one 70#8 (b2 6))) 204 = true ∧ (b2 6).length = 2 ∧ (by204 (one 70#8 (b2
      6))).recs = [⟨70#8, b2 6⟩] ∧ dialogConsole (handing offered) (BitVec.toNat (by204 (one 70#8 (b2 6))).source) =
      true ∧ (handing offered).record (field2 (b2 6) 0) = none)
    ∧ (countedFrom (withConsole 49 (plain 204) (handing offered)) (by204 (one 70#8 (b2 5))) 204 = true ∧ (b2 5).length =
      2 ∧ (by204 (one 70#8 (b2 5))).recs = [⟨70#8, b2 5⟩] ∧ dialogConsole (withConsole 49 (plain 204) (handing
      offered)) (BitVec.toNat (by204 (one 70#8 (b2 5))).source) = false) :=
  ⟨by decide +kernel, by decide +kernel, by decide +kernel, by decide +kernel, by decide +kernel⟩

theorem witness_OperateCommandIsForwarded :
    (countedFrom mill (by204 (opRecs 10 [⟨41#8, []⟩])) 204 = true ∧ (by204 (opRecs 10 [⟨41#8, []⟩])).recs = [⟨41#8, b2
      10⟩, ⟨41#8, []⟩] ∧ 10 < 65536 ∧ bodyOk (by204 (opRecs 10 [⟨41#8, []⟩])).recs = false)
    ∧ (countedFrom mill (by204 (opRecs 13 [])) 204 = true ∧ (by204 (opRecs 13 [])).recs = [⟨41#8, b2 13⟩] ∧ 13 < 65536 ∧
      bodyOk (by204 (opRecs 13 [])).recs = true ∧ firstFailing (opcmdChecks mill (by204 (opRecs 13 [])) 204 13) = some
      Result.deniedAuthority)
    ∧ (countedFrom mill (by204 (opRecs 10 [⟨42#8, [1#8]⟩])) 204 = true ∧ (by204 (opRecs 10 [⟨42#8, [1#8]⟩])).recs =
      [⟨41#8, b2 10⟩, ⟨42#8, [1#8]⟩] ∧ 10 < 65536 ∧ bodyOk (by204 (opRecs 10 [⟨42#8, [1#8]⟩])).recs = true ∧
      firstFailing (opcmdChecks mill (by204 (opRecs 10 [⟨42#8, [1#8]⟩])) 204 10) = none)
    ∧ (countedFrom mill (by204 []) 204 = true ∧ targetPoint (by204 []).recs = none)
    ∧ (mill.commands.length < 32 ∧ (∀ c ∈ mill.commands, c.tag ≠ nextOccurrence mill.tagCounter)) :=
  ⟨by decide +kernel, by decide +kernel, by decide +kernel, by decide +kernel, by decide +kernel⟩

theorem witness_HeldControllerIsCleared :
    (countedFrom mill (by301 (clearRec 14)) 301 = true ∧ (by301 (clearRec 14)).recs = [⟨39#8, b1 14⟩] ∧ 14 < 256 ∧
      lookup mill.controllers 14 = none)
    ∧ (countedFrom mill (by301 (clearRec 12)) 301 = true ∧ (by301 (clearRec 12)).recs = [⟨39#8, b1 12⟩] ∧ 12 < 256 ∧
      lookup mill.controllers 12 ≠ none ∧ firstFailing (clearHoldChecks mill (by301 (clearRec 12)) 301 12) = some
      Result.notPending)
    ∧ (countedFrom (withController faulty) (by301 (clearRec 12)) 301 = true ∧ (by301 (clearRec 12)).recs = [⟨39#8, b1
      12⟩] ∧ 12 < 256 ∧ lookup (withController faulty).controllers 12 ≠ none ∧ firstFailing (clearHoldChecks
      (withController faulty) (by301 (clearRec 12)) 301 12) = none)
    ∧ (lastRecord (asked ⟨135#8, b1 14⟩) (request ⟨135#8, b1 14⟩) ⟨135#8, b1 14⟩ 0 = true ∧ 14 < 256 ∧ lookup (asked
      ⟨135#8, b1 14⟩).controllers 14 = none)
    ∧ (lastRecord (asked ⟨135#8, b1 12⟩) (request ⟨135#8, b1 12⟩) ⟨135#8, b1 12⟩ 0 = true ∧ 12 < 256 ∧ lookup (asked
      ⟨135#8, b1 12⟩).controllers 12 = some live12 ∧ live12.faultHeld = false)
    ∧ (lastRecord (asked ⟨135#8, b1 12⟩ none (withController faulty)) (request ⟨135#8, b1 12⟩) ⟨135#8, b1 12⟩ 0 = true ∧
      12 < 256 ∧ lookup (asked ⟨135#8, b1 12⟩ none (withController faulty)).controllers 12 = some faulty ∧
      faulty.faultHeld = true) :=
  ⟨by decide +kernel, by decide +kernel, by decide +kernel, by decide +kernel, by decide +kernel, by decide +kernel⟩

theorem witness_CredentialOpensTheRequest :
    (arrives PortId.plant mill (mreqOf 12#8 [⟨128#8, credential 400 3000⟩]) = true ∧ (toOwn mill (mreqOf 12#8 [⟨128#8,
      credential 400 3000⟩]) = false ∨ mreqTaken mill (BitVec.toNat (mreqOf 12#8 [⟨128#8, credential 400
      3000⟩]).source) = false))
    ∧ (arrives PortId.plant mill (mreqOf 5#8 [⟨128#8, credential 400 3001⟩]) = true ∧ toOwn mill (mreqOf 5#8 [⟨128#8,
      credential 400 3001⟩]) = true ∧ mreqTaken mill (BitVec.toNat (mreqOf 5#8 [⟨128#8, credential 400 3001⟩]).source)
      = true ∧ authorised mill (mreqOf 5#8 [⟨128#8, credential 400 3001⟩]).recs = false)
    ∧ (arrives PortId.plant unplanned (mreqOf 77#8 [⟨128#8, credential 0 0⟩]) = true ∧ toOwn unplanned (mreqOf 77#8
      [⟨128#8, credential 0 0⟩]) = true ∧ mreqTaken unplanned (BitVec.toNat (mreqOf 77#8 [⟨128#8, credential 0
      0⟩]).source) = true ∧ authorised unplanned (mreqOf 77#8 [⟨128#8, credential 0 0⟩]).recs = true ∧ (mreqOf 77#8
      [⟨128#8, credential 0 0⟩]).recs = [⟨128#8, credential 0 0⟩])
    ∧ (arrives PortId.plant mill (mreqOf 5#8 [⟨128#8, credential 400 3000⟩, ⟨136#8, []⟩]) = true ∧ toOwn mill (mreqOf
      5#8 [⟨128#8, credential 400 3000⟩, ⟨136#8, []⟩]) = true ∧ mreqTaken mill (BitVec.toNat (mreqOf 5#8 [⟨128#8,
      credential 400 3000⟩, ⟨136#8, []⟩]).source) = true ∧ authorised mill (mreqOf 5#8 [⟨128#8, credential 400 3000⟩,
      ⟨136#8, []⟩]).recs = true ∧ (mreqOf 5#8 [⟨128#8, credential 400 3000⟩, ⟨136#8, []⟩]).recs = [⟨128#8, credential
      400 3000⟩, ⟨136#8, []⟩] ∧ rowOf none ⟨136#8, []⟩ ≠ MgmtRow.other) :=
  ⟨by decide +kernel, by decide +kernel, by decide +kernel, by decide +kernel⟩

theorem witness_RecordsReadTheTables :
    (lastRecord (asked ⟨129#8, [10#8]⟩) (request ⟨129#8, [10#8]⟩) ⟨129#8, [10#8]⟩ 0 = true)
    ∧ (selectingMill.request = some selecting ∧ selecting.stopped = false ∧ selecting.todo = [⟨129#8, [6#8]⟩, ⟨130#8,
      [0#8, 0#8]⟩] ∧ bodyLength selecting.results + 3 + 3 * (([] : List Rec).length + 1) ≤ 1200 ∧ tableOf (6#8).toNat
      = some TableId.slots ∧ rowOf (some TableId.slots) ⟨130#8, [0#8, 0#8]⟩ ≠ MgmtRow.other)
    ∧ (0 < 65536 ∧ lastRecord (asked ⟨130#8, b2 0⟩) (request ⟨130#8, b2 0⟩) ⟨130#8, b2 0⟩ 0 = true ∧ (request ⟨130#8, b2
      0⟩).selected = none)
    ∧ (1024 < 65536 ∧ lastRecord (asked ⟨130#8, b2 1024⟩ (some TableId.slots)) (request ⟨130#8, b2 1024⟩ (some
      TableId.slots)) ⟨130#8, b2 1024⟩ 0 = true ∧ (request ⟨130#8, b2 1024⟩ (some TableId.slots)).selected = some
      TableId.slots ∧ tableSize TableId.slots ≤ 1024)
    ∧ (1023 < 65536 ∧ lastRecord (asked ⟨130#8, b2 1023⟩ (some TableId.slots)) (request ⟨130#8, b2 1023⟩ (some
      TableId.slots)) ⟨130#8, b2 1023⟩ 3 = true ∧ (request ⟨130#8, b2 1023⟩ (some TableId.slots)).selected = some
      TableId.slots ∧ 1023 < tableSize TableId.slots ∧ TableId.slots ≠ TableId.status ∧ (readItems TableId.slots 1023
      (asked ⟨130#8, b2 1023⟩ (some TableId.slots))).length = 3)
    ∧ (1024 < 65536 ∧ lastRecord (asked ⟨132#8, b2 1024⟩) (request ⟨132#8, b2 1024⟩) ⟨132#8, b2 1024⟩ 0 = true ∧ 1024 ≤
      1024)
    ∧ (1023 < 65536 ∧ lastRecord (asked ⟨132#8, b2 1023⟩) (request ⟨132#8, b2 1023⟩) ⟨132#8, b2 1023⟩ 3 = true ∧ 1023 <
      1024 ∧ (readSlot (asked ⟨132#8, b2 1023⟩) 1023).length = 3)
    ∧ (0 < 65536 ∧ (Instr.readStatus = Instr.readStatus ∧ lastRecord (fullyLatched (asked ⟨139#8, []⟩)) (request ⟨139#8,
      []⟩) ⟨139#8, []⟩ 97 = true ∨ Instr.readStatus = Instr.mreqRead ∧ (request ⟨139#8, []⟩).selected = some
      TableId.status ∧ lastRecord (fullyLatched (asked ⟨139#8, []⟩)) (request ⟨139#8, []⟩) ⟨130#8, [0#8, 0#8]⟩ 97 =
      true) ∧ (readStatusItems (fullyLatched (asked ⟨139#8, []⟩))).length = 97)
    ∧ (0 < 65536 ∧ (Instr.mreqRead = Instr.readStatus ∧ lastRecord (fullyLatched (asked ⟨130#8, [0#8, 0#8]⟩ (some
      TableId.status))) (request ⟨130#8, [0#8, 0#8]⟩ (some TableId.status)) ⟨139#8, []⟩ 97 = true ∨ Instr.mreqRead =
      Instr.mreqRead ∧ (request ⟨130#8, [0#8, 0#8]⟩ (some TableId.status)).selected = some TableId.status ∧ lastRecord
      (fullyLatched (asked ⟨130#8, [0#8, 0#8]⟩ (some TableId.status))) (request ⟨130#8, [0#8, 0#8]⟩ (some
      TableId.status)) ⟨130#8, [0#8, 0#8]⟩ 97 = true) ∧ (readStatusItems (fullyLatched (asked ⟨130#8, [0#8, 0#8]⟩
      (some TableId.status)))).length = 97)
    ∧ (lookup mill.slots 0 = some slot10)
    ∧ (31 < 65536 ∧ lastRecord (asked ⟨130#8, b2 31⟩ (some TableId.commands)) (request ⟨130#8, b2 31⟩ (some
      TableId.commands)) ⟨130#8, b2 31⟩ 0 = true ∧ (request ⟨130#8, b2 31⟩ (some TableId.commands)).selected = some
      TableId.commands ∧ 31 < tableSize TableId.commands ∧ TableId.commands ≠ TableId.status ∧ (readItems
      TableId.commands 31 (asked ⟨130#8, b2 31⟩ (some TableId.commands))).length = 0)
    ∧ (lookup rich.tables.roster 1 = some operator301 ∧ lookup rich.tables.stations 1 = some (desk 49) ∧ rich.shelf[1]?
      = some shelved12 ∧ rich.retained.journal[1]? = some aborted5 ∧ rich.commands.length ≤ 1)
    ∧ (lookup rich.tables.roster 0 = some (operator204 true) ∧ lookup rich.tables.stations 0 = some (plantStation 12
      StationKind.controller) ∧ rich.shelf[0]? = some shelved10 ∧ rich.commands[0]? = some (sent 2))
    ∧ (lookup mill.tables.roster 127 = none ∧ lookup mill.tables.stations 127 = none ∧ mill.shelf.length ≤ 127 ∧
      mill.retained.journal.length ≤ 127 ∧ mill.commands.length ≤ 127) := by
  and_intros <;> decide +kernel

theorem witness_WritesTakeEffectClamped :
    ((TableId.points, Instr.writePoints) ∈ [(TableId.points, Instr.writePoints), (TableId.roster, Instr.writeRoster),
      (TableId.stations, Instr.writeStations), (TableId.areas, Instr.writeAreas), (TableId.params, Instr.writeParams)]
      ∧ lastWrite (storing (writing TableId.points (writeData 0 0 []))) (writeReq TableId.points (writeData 0 0 []))
      TableId.points (writeData 0 0 []) = true ∧ (storing (writing TableId.points (writeData 0 0 []))).store ≠ none)
    ∧ ((TableId.roster, Instr.writeRoster) ∈ [(TableId.points, Instr.writePoints), (TableId.roster, Instr.writeRoster),
      (TableId.stations, Instr.writeStations), (TableId.areas, Instr.writeAreas), (TableId.params, Instr.writeParams)]
      ∧ lastWrite (writing TableId.roster (writeData 128 0 [])) (writeReq TableId.roster (writeData 128 0 []))
      TableId.roster (writeData 128 0 []) = true ∧ (writing TableId.roster (writeData 128 0 [])).store = none ∧
      tableSize TableId.roster ≤ field2 (writeData 128 0 []) 0)
    ∧ ((TableId.stations, Instr.writeStations) ∈ [(TableId.points, Instr.writePoints), (TableId.roster,
      Instr.writeRoster), (TableId.stations, Instr.writeStations), (TableId.areas, Instr.writeAreas), (TableId.params,
      Instr.writeParams)] ∧ lastWrite (writing TableId.stations (writeData 95 0 [63#8])) (writeReq TableId.stations
      (writeData 95 0 [63#8])) TableId.stations (writeData 95 0 [63#8]) = true ∧ (writing TableId.stations (writeData
      95 0 [63#8])).store = none ∧ field2 (writeData 95 0 [63#8]) 0 < tableSize TableId.stations ∧ checkedItems
      TableId.stations (List.drop 3 (writeData 95 0 [63#8])) = none)
    ∧ (lastWrite (writing TableId.points (writeData 8191 0 (it 1 [1#8]))) (writeReq TableId.points (writeData 8191 0 (it
      1 [1#8]))) TableId.points (writeData 8191 0 (it 1 [1#8])) = true ∧ (writing TableId.points (writeData 8191 0 (it
      1 [1#8]))).store = none ∧ field2 (writeData 8191 0 (it 1 [1#8])) 0 = 8191 ∧ 8191 < 8192 ∧ checkedItems
      TableId.points (List.drop 3 (writeData 8191 0 (it 1 [1#8]))) = some (itemsOf TableId.points (writeData 8191 0
      (it 1 [1#8]))) ∧ pointWritten ((writing TableId.points (writeData 8191 0 (it 1 [1#8]))).pointDef 8191) (itemsOf
      TableId.points (writeData 8191 0 (it 1 [1#8]))) = none)
    ∧ (lastWrite (writing TableId.points (writeData 10 0 (it 1 [0#8]))) (writeReq TableId.points (writeData 10 0 (it 1
      [0#8]))) TableId.points (writeData 10 0 (it 1 [0#8])) = true ∧ (writing TableId.points (writeData 10 0 (it 1
      [0#8]))).store = none ∧ field2 (writeData 10 0 (it 1 [0#8])) 0 = 10 ∧ 10 < 8192 ∧ checkedItems TableId.points
      (List.drop 3 (writeData 10 0 (it 1 [0#8]))) = some (itemsOf TableId.points (writeData 10 0 (it 1 [0#8]))) ∧
      pointWritten ((writing TableId.points (writeData 10 0 (it 1 [0#8]))).pointDef 10) (itemsOf TableId.points
      (writeData 10 0 (it 1 [0#8]))) = some {} ∧ (((writing TableId.points (writeData 10 0 (it 1 [0#8]))).slotOf
      10).isSome || (writing TableId.points (writeData 10 0 (it 1 [0#8]))).queued 10) = true ∧ (field1 (writeData 10 0
      (it 1 [0#8])) 2).testBit 0 = false)
    ∧ (lastWrite (writing TableId.points (writeData 8191 0 (it 1 [0#8]))) (writeReq TableId.points (writeData 8191 0 (it
      1 [0#8]))) TableId.points (writeData 8191 0 (it 1 [0#8])) = true ∧ (writing TableId.points (writeData 8191 0 (it
      1 [0#8]))).store = none ∧ field2 (writeData 8191 0 (it 1 [0#8])) 0 = 8191 ∧ 8191 < 8192 ∧ checkedItems
      TableId.points (List.drop 3 (writeData 8191 0 (it 1 [0#8]))) = some (itemsOf TableId.points (writeData 8191 0
      (it 1 [0#8]))) ∧ pointWritten ((writing TableId.points (writeData 8191 0 (it 1 [0#8]))).pointDef 8191) (itemsOf
      TableId.points (writeData 8191 0 (it 1 [0#8]))) = some {} ∧ (writing TableId.points (writeData 8191 0 (it 1
      [0#8]))).slotOf 8191 = none ∧ (writing TableId.points (writeData 8191 0 (it 1 [0#8]))).queued 8191 = false)
    ∧ (lastWrite (writing TableId.points (writeData 10 1 (it 1 [0#8]))) (writeReq TableId.points (writeData 10 1 (it 1
      [0#8]))) TableId.points (writeData 10 1 (it 1 [0#8])) = true ∧ (writing TableId.points (writeData 10 1 (it 1
      [0#8]))).store = none ∧ field2 (writeData 10 1 (it 1 [0#8])) 0 = 10 ∧ 10 < 8192 ∧ checkedItems TableId.points
      (List.drop 3 (writeData 10 1 (it 1 [0#8]))) = some (itemsOf TableId.points (writeData 10 1 (it 1 [0#8]))) ∧
      pointWritten ((writing TableId.points (writeData 10 1 (it 1 [0#8]))).pointDef 10) (itemsOf TableId.points
      (writeData 10 1 (it 1 [0#8]))) = some {} ∧ (writing TableId.points (writeData 10 1 (it 1 [0#8]))).slotOf 10 =
      some (0, slot10) ∧ (writing TableId.points (writeData 10 1 (it 1 [0#8]))).queue = [] ∧ (writing TableId.points
      (writeData 10 1 (it 1 [0#8]))).AlarmTableSound ∧ (field1 (writeData 10 1 (it 1 [0#8])) 2).testBit 0 = true)
    ∧ (pointWritten {} [(1, [0#8])] = some {})
    ∧ (lastWrite (writing TableId.areas (writeData 15 0 areaItems)) (writeReq TableId.areas (writeData 15 0 areaItems))
      TableId.areas (writeData 15 0 areaItems) = true ∧ (writing TableId.areas (writeData 15 0 areaItems)).store =
      none ∧ field2 (writeData 15 0 areaItems) 0 = 15 ∧ 15 < 16 ∧ checkedItems TableId.areas (List.drop 3 (writeData
      15 0 areaItems)) = some (itemsOf TableId.areas (writeData 15 0 areaItems)) ∧ (∀ (n v : ℕ), n = 6 ∨ n = 7 →
      itemValue (itemsOf TableId.areas (writeData 15 0 areaItems)) n = some v → v = 0))
    ∧ (lastWrite (writing TableId.params (writeData 0 0 partItems)) (writeReq TableId.params (writeData 0 0 partItems))
      TableId.params (writeData 0 0 partItems) = true ∧ (writing TableId.params (writeData 0 0 partItems)).store =
      none ∧ field2 (writeData 0 0 partItems) 0 = 0 ∧ checkedItems TableId.params (List.drop 3 (writeData 0 0
      partItems)) = some (itemsOf TableId.params (writeData 0 0 partItems)) ∧ (∀ (n v : ℕ), 4 ≤ n → n ≤ 7 → itemValue
      (itemsOf TableId.params (writeData 0 0 partItems)) n = some v → v = 0))
    ∧ (lastWrite (writing TableId.points (writeData 10 1 (it 1 [0#8])) (withQueue [waiter])) (writeReq TableId.points
      (writeData 10 1 (it 1 [0#8]))) TableId.points (writeData 10 1 (it 1 [0#8])) = true ∧ (writing TableId.points
      (writeData 10 1 (it 1 [0#8])) (withQueue [waiter])).store = none ∧ field2 (writeData 10 1 (it 1 [0#8])) 0 = 10 ∧
      10 < 8192 ∧ checkedItems TableId.points (List.drop 3 (writeData 10 1 (it 1 [0#8]))) = some (itemsOf
      TableId.points (writeData 10 1 (it 1 [0#8]))) ∧ pointWritten ((writing TableId.points (writeData 10 1 (it 1
      [0#8])) (withQueue [waiter])).pointDef 10) (itemsOf TableId.points (writeData 10 1 (it 1 [0#8]))) = some {} ∧
      (writing TableId.points (writeData 10 1 (it 1 [0#8])) (withQueue [waiter])).slotOf 10 = some (0, slot10) ∧
      (writing TableId.points (writeData 10 1 (it 1 [0#8])) (withQueue [waiter])).queue = [waiter] ∧ (writing
      TableId.points (writeData 10 1 (it 1 [0#8])) (withQueue [waiter])).AlarmTableSound ∧ (field1 (writeData 10 1 (it
      1 [0#8])) 2).testBit 0 = true)
    ∧ (lastWrite (writing TableId.points (writeData 13 1 (it 1 [0#8])) (withQueue [waiter])) (writeReq TableId.points
      (writeData 13 1 (it 1 [0#8]))) TableId.points (writeData 13 1 (it 1 [0#8])) = true ∧ (writing TableId.points
      (writeData 13 1 (it 1 [0#8])) (withQueue [waiter])).store = none ∧ field2 (writeData 13 1 (it 1 [0#8])) 0 = 13 ∧
      13 < 8192 ∧ checkedItems TableId.points (List.drop 3 (writeData 13 1 (it 1 [0#8]))) = some (itemsOf
      TableId.points (writeData 13 1 (it 1 [0#8]))) ∧ pointWritten ((writing TableId.points (writeData 13 1 (it 1
      [0#8])) (withQueue [waiter])).pointDef 13) (itemsOf TableId.points (writeData 13 1 (it 1 [0#8]))) = some {} ∧
      (writing TableId.points (writeData 13 1 (it 1 [0#8])) (withQueue [waiter])).slotOf 13 = none ∧ (writing
      TableId.points (writeData 13 1 (it 1 [0#8])) (withQueue [waiter])).queued 13 = true ∧ (field1 (writeData 13 1
      (it 1 [0#8])) 2).testBit 0 = true)
    ∧ (lastWrite (writing TableId.areas (writeData 15 0 (it 7 (b2 5)))) (writeReq TableId.areas (writeData 15 0 (it 7
      (b2 5)))) TableId.areas (writeData 15 0 (it 7 (b2 5))) = true ∧ (writing TableId.areas (writeData 15 0 (it 7 (b2
      5)))).store = none ∧ field2 (writeData 15 0 (it 7 (b2 5))) 0 = 15 ∧ 15 < 16 ∧ checkedItems TableId.areas
      (List.drop 3 (writeData 15 0 (it 7 (b2 5)))) = some (itemsOf TableId.areas (writeData 15 0 (it 7 (b2 5)))) ∧ (∃
      n v, (n = 6 ∨ n = 7) ∧ itemValue (itemsOf TableId.areas (writeData 15 0 (it 7 (b2 5)))) n = some v ∧ v ≠ 0))
    ∧ (lastWrite (writing TableId.params (writeData 0 0 (it 4 (b2 7)))) (writeReq TableId.params (writeData 0 0 (it 4
      (b2 7)))) TableId.params (writeData 0 0 (it 4 (b2 7))) = true ∧ (writing TableId.params (writeData 0 0 (it 4 (b2
      7)))).store = none ∧ field2 (writeData 0 0 (it 4 (b2 7))) 0 = 0 ∧ checkedItems TableId.params (List.drop 3
      (writeData 0 0 (it 4 (b2 7)))) = some (itemsOf TableId.params (writeData 0 0 (it 4 (b2 7)))) ∧ (∃ n v, 4 ≤ n ∧ n
      ≤ 7 ∧ itemValue (itemsOf TableId.params (writeData 0 0 (it 4 (b2 7)))) n = some v ∧ v ≠ 0))
    ∧ (6#8 ∈ [6#8, 7#8, 8#8, 9#8] ∧ overwritten.request = some overwriting ∧ overwriting.stopped = false ∧
      overwriting.todo = [⟨129#8, [6#8]⟩, ⟨131#8, writeData 0 0 []⟩] ∧ 3 ≤ (writeData 0 0 []).length ∧
      overwritten.store = none ∧ bodyLength overwriting.results + 6 ≤ 1200) := by
  and_intros <;> first
    | decide +kernel
    | exact area_counts
    | exact part_counts
    | exact ⟨7, 5, .inr rfl, by decide +kernel, by decide⟩
    | exact ⟨4, 7, by decide, by decide, by decide +kernel, by decide⟩

theorem witness_RosterAndStationWritesAct :
    (lastWrite (writing TableId.roster (writeData 0 0 (it 2 [0#8])) (handing offered)) (writeReq TableId.roster
      (writeData 0 0 (it 2 [0#8]))) TableId.roster (writeData 0 0 (it 2 [0#8])) = true ∧ (writing TableId.roster
      (writeData 0 0 (it 2 [0#8])) (handing offered)).store = none ∧ field2 (writeData 0 0 (it 2 [0#8])) 0 = 0 ∧ 0 <
      128 ∧ checkedItems TableId.roster (List.drop 3 (writeData 0 0 (it 2 [0#8]))) = some (itemsOf TableId.roster
      (writeData 0 0 (it 2 [0#8]))) ∧ lookup (writing TableId.roster (writeData 0 0 (it 2 [0#8])) (handing
      offered)).tables.roster 0 = some (operator204 true) ∧ itemBytes (itemsOf TableId.roster (writeData 0 0 (it 2
      [0#8]))) 0 = none ∧ operatorWritten (operator204 true) (itemsOf TableId.roster (writeData 0 0 (it 2 [0#8]))) =
      some (operator204 false) ∧ badOperatorId (writing TableId.roster (writeData 0 0 (it 2 [0#8])) (handing offered))
      0 (operator204 false).id = false)
    ∧ (lastWrite (writing TableId.roster (writeData 1 0 (it 0 [])) (handing offered)) (writeReq TableId.roster
      (writeData 1 0 (it 0 []))) TableId.roster (writeData 1 0 (it 0 [])) = true ∧ (writing TableId.roster (writeData
      1 0 (it 0 [])) (handing offered)).store = none ∧ field2 (writeData 1 0 (it 0 [])) 0 = 1 ∧ 1 < 128 ∧ checkedItems
      TableId.roster (List.drop 3 (writeData 1 0 (it 0 []))) = some (itemsOf TableId.roster (writeData 1 0 (it 0 [])))
      ∧ lookup (writing TableId.roster (writeData 1 0 (it 0 [])) (handing offered)).tables.roster 1 = some operator301
      ∧ itemBytes (itemsOf TableId.roster (writeData 1 0 (it 0 []))) 0 ≠ none ∧ operatorWritten operator301 (itemsOf
      TableId.roster (writeData 1 0 (it 0 []))) ≠ none ∧ risingKeys (writing TableId.roster (writeData 1 0 (it 0 []))
      (handing offered)).consoles = true)
    ∧ (lastWrite (writing TableId.stations (writeData 95 0 (stationItems 60 2 2))) (writeReq TableId.stations (writeData
      95 0 (stationItems 60 2 2))) TableId.stations (writeData 95 0 (stationItems 60 2 2)) = true ∧ (writing
      TableId.stations (writeData 95 0 (stationItems 60 2 2))).store = none ∧ field2 (writeData 95 0 (stationItems 60
      2 2)) 0 = 95 ∧ 95 < 96 ∧ checkedItems TableId.stations (List.drop 3 (writeData 95 0 (stationItems 60 2 2))) =
      some (itemsOf TableId.stations (writeData 95 0 (stationItems 60 2 2))) ∧ lookup (writing TableId.stations
      (writeData 95 0 (stationItems 60 2 2))).tables.stations 95 = none ∧ itemBytes (itemsOf TableId.stations
      (writeData 95 0 (stationItems 60 2 2))) 0 = none ∧ countsNonzero (itemsOf TableId.stations (writeData 95 0
      (stationItems 60 2 2))) [7, 8] = false ∧ stationWritten none (itemsOf TableId.stations (writeData 95 0
      (stationItems 60 2 2))) = some (newStation (stationItems 60 2 2)) ∧ stationsRefused (writing TableId.stations
      (writeData 95 0 (stationItems 60 2 2))).tables.stations (insertAt (writing TableId.stations (writeData 95 0
      (stationItems 60 2 2))).tables.stations 95 (newStation (stationItems 60 2 2))) = false)
    ∧ (lastWrite (writing TableId.stations (writeData 95 0 (stationItems 12 2 1))) (writeReq TableId.stations (writeData
      95 0 (stationItems 12 2 1))) TableId.stations (writeData 95 0 (stationItems 12 2 1)) = true ∧ (writing
      TableId.stations (writeData 95 0 (stationItems 12 2 1))).store = none ∧ field2 (writeData 95 0 (stationItems 12
      2 1)) 0 = 95 ∧ 95 < 96 ∧ checkedItems TableId.stations (List.drop 3 (writeData 95 0 (stationItems 12 2 1))) =
      some (itemsOf TableId.stations (writeData 95 0 (stationItems 12 2 1))) ∧ itemBytes (itemsOf TableId.stations
      (writeData 95 0 (stationItems 12 2 1))) 0 = none ∧ stationWritten (lookup (writing TableId.stations (writeData
      95 0 (stationItems 12 2 1))).tables.stations 95) (itemsOf TableId.stations (writeData 95 0 (stationItems 12 2
      1))) = some (newStation (stationItems 12 2 1)) ∧ stationsRefused (writing TableId.stations (writeData 95 0
      (stationItems 12 2 1))).tables.stations (insertAt (writing TableId.stations (writeData 95 0 (stationItems 12 2
      1))).tables.stations 95 (newStation (stationItems 12 2 1))) = true)
    ∧ (lastWrite (writing TableId.stations (writeData 1 0 (it 0 []))) (writeReq TableId.stations (writeData 1 0 (it 0
      []))) TableId.stations (writeData 1 0 (it 0 [])) = true ∧ (writing TableId.stations (writeData 1 0 (it 0
      []))).store = none ∧ field2 (writeData 1 0 (it 0 [])) 0 = 1 ∧ 1 < 96 ∧ checkedItems TableId.stations (List.drop
      3 (writeData 1 0 (it 0 []))) = some (itemsOf TableId.stations (writeData 1 0 (it 0 []))) ∧ lookup (writing
      TableId.stations (writeData 1 0 (it 0 []))).tables.stations 1 = some (desk 49) ∧ itemBytes (itemsOf
      TableId.stations (writeData 1 0 (it 0 []))) 0 ≠ none ∧ badStationItems (itemsOf TableId.stations (writeData 1 0
      (it 0 []))) = false ∧ stationsRefused (writing TableId.stations (writeData 1 0 (it 0 []))).tables.stations
      (removeAt (writing TableId.stations (writeData 1 0 (it 0 []))).tables.stations 1) = false)
    ∧ (lastWrite (writing TableId.roster (writeData 0 0 (it 3 (b4 1000))) (handing offered)) (writeReq TableId.roster
      (writeData 0 0 (it 3 (b4 1000)))) TableId.roster (writeData 0 0 (it 3 (b4 1000))) = true ∧ (writing
      TableId.roster (writeData 0 0 (it 3 (b4 1000))) (handing offered)).store = none ∧ field2 (writeData 0 0 (it 3
      (b4 1000))) 0 = 0 ∧ 0 < 128 ∧ checkedItems TableId.roster (List.drop 3 (writeData 0 0 (it 3 (b4 1000)))) = some
      (itemsOf TableId.roster (writeData 0 0 (it 3 (b4 1000)))) ∧ lookup (writing TableId.roster (writeData 0 0 (it 3
      (b4 1000))) (handing offered)).tables.roster 0 = some (operator204 true) ∧ itemBytes (itemsOf TableId.roster
      (writeData 0 0 (it 3 (b4 1000)))) 0 = none ∧ operatorWritten (operator204 true) (itemsOf TableId.roster
      (writeData 0 0 (it 3 (b4 1000)))) = some (operator204 true) ∧ badOperatorId (writing TableId.roster (writeData 0
      0 (it 3 (b4 1000))) (handing offered)) 0 (operator204 true).id = false)
    ∧ (lastWrite (writing TableId.roster (writeData 0 0 (rosterItems 999 1 1)) (handing offered)) (writeReq
      TableId.roster (writeData 0 0 (rosterItems 999 1 1))) TableId.roster (writeData 0 0 (rosterItems 999 1 1)) =
      true ∧ (writing TableId.roster (writeData 0 0 (rosterItems 999 1 1)) (handing offered)).store = none ∧ field2
      (writeData 0 0 (rosterItems 999 1 1)) 0 = 0 ∧ 0 < 128 ∧ checkedItems TableId.roster (List.drop 3 (writeData 0 0
      (rosterItems 999 1 1))) = some (itemsOf TableId.roster (writeData 0 0 (rosterItems 999 1 1))) ∧ lookup (writing
      TableId.roster (writeData 0 0 (rosterItems 999 1 1)) (handing offered)).tables.roster 0 = some (operator204
      true) ∧ itemBytes (itemsOf TableId.roster (writeData 0 0 (rosterItems 999 1 1))) 0 = none ∧ operatorWritten
      (operator204 true) (itemsOf TableId.roster (writeData 0 0 (rosterItems 999 1 1))) = some (newOperator 999 1) ∧
      badOperatorId (writing TableId.roster (writeData 0 0 (rosterItems 999 1 1)) (handing offered)) 0 (newOperator
      999 1).id = false)
    ∧ (lastWrite (writing TableId.roster (writeData 0 0 (it 4 [0#8]))) (writeReq TableId.roster (writeData 0 0 (it 4
      [0#8]))) TableId.roster (writeData 0 0 (it 4 [0#8])) = true ∧ (writing TableId.roster (writeData 0 0 (it 4
      [0#8]))).store = none ∧ field2 (writeData 0 0 (it 4 [0#8])) 0 = 0 ∧ 0 < 128 ∧ checkedItems TableId.roster
      (List.drop 3 (writeData 0 0 (it 4 [0#8]))) = some (itemsOf TableId.roster (writeData 0 0 (it 4 [0#8]))) ∧
      operatorWritten ((lookup (writing TableId.roster (writeData 0 0 (it 4 [0#8]))).tables.roster 0).getD
      (omittedOperator 0)) (itemsOf TableId.roster (writeData 0 0 (it 4 [0#8]))) = none)
    ∧ (lastWrite (writing TableId.roster (writeData 0 0 (rosterItems 0 1 1))) (writeReq TableId.roster (writeData 0 0
      (rosterItems 0 1 1))) TableId.roster (writeData 0 0 (rosterItems 0 1 1)) = true ∧ (writing TableId.roster
      (writeData 0 0 (rosterItems 0 1 1))).store = none ∧ field2 (writeData 0 0 (rosterItems 0 1 1)) 0 = 0 ∧ 0 < 128 ∧
      checkedItems TableId.roster (List.drop 3 (writeData 0 0 (rosterItems 0 1 1))) = some (itemsOf TableId.roster
      (writeData 0 0 (rosterItems 0 1 1))) ∧ operatorWritten ((lookup (writing TableId.roster (writeData 0 0
      (rosterItems 0 1 1))).tables.roster 0).getD (omittedOperator 0)) (itemsOf TableId.roster (writeData 0 0
      (rosterItems 0 1 1))) = some (newOperator 0 1) ∧ itemBytes (itemsOf TableId.roster (writeData 0 0 (rosterItems 0
      1 1))) 0 = none ∧ ((newOperator 0 1).id = 0 ∨ (newOperator 0 1).id = 65535 ∨ ∃ e ∈ (writing TableId.roster
      (writeData 0 0 (rosterItems 0 1 1))).tables.roster, e.1 ≠ 0 ∧ e.2.id = (newOperator 0 1).id))
    ∧ (lastWrite (writing TableId.roster (writeData 0 0 (rosterItems 65535 1 1))) (writeReq TableId.roster (writeData 0
      0 (rosterItems 65535 1 1))) TableId.roster (writeData 0 0 (rosterItems 65535 1 1)) = true ∧ (writing
      TableId.roster (writeData 0 0 (rosterItems 65535 1 1))).store = none ∧ field2 (writeData 0 0 (rosterItems 65535
      1 1)) 0 = 0 ∧ 0 < 128 ∧ checkedItems TableId.roster (List.drop 3 (writeData 0 0 (rosterItems 65535 1 1))) = some
      (itemsOf TableId.roster (writeData 0 0 (rosterItems 65535 1 1))) ∧ operatorWritten ((lookup (writing
      TableId.roster (writeData 0 0 (rosterItems 65535 1 1))).tables.roster 0).getD (omittedOperator 0)) (itemsOf
      TableId.roster (writeData 0 0 (rosterItems 65535 1 1))) = some (newOperator 65535 1) ∧ itemBytes (itemsOf
      TableId.roster (writeData 0 0 (rosterItems 65535 1 1))) 0 = none ∧ ((newOperator 65535 1).id = 0 ∨ (newOperator
      65535 1).id = 65535 ∨ ∃ e ∈ (writing TableId.roster (writeData 0 0 (rosterItems 65535 1 1))).tables.roster, e.1
      ≠ 0 ∧ e.2.id = (newOperator 65535 1).id))
    ∧ (lastWrite (writing TableId.roster (writeData 0 0 (rosterItems 301 1 1))) (writeReq TableId.roster (writeData 0 0
      (rosterItems 301 1 1))) TableId.roster (writeData 0 0 (rosterItems 301 1 1)) = true ∧ (writing TableId.roster
      (writeData 0 0 (rosterItems 301 1 1))).store = none ∧ field2 (writeData 0 0 (rosterItems 301 1 1)) 0 = 0 ∧ 0 <
      128 ∧ checkedItems TableId.roster (List.drop 3 (writeData 0 0 (rosterItems 301 1 1))) = some (itemsOf
      TableId.roster (writeData 0 0 (rosterItems 301 1 1))) ∧ operatorWritten ((lookup (writing TableId.roster
      (writeData 0 0 (rosterItems 301 1 1))).tables.roster 0).getD (omittedOperator 0)) (itemsOf TableId.roster
      (writeData 0 0 (rosterItems 301 1 1))) = some (newOperator 301 1) ∧ itemBytes (itemsOf TableId.roster (writeData
      0 0 (rosterItems 301 1 1))) 0 = none ∧ ((newOperator 301 1).id = 0 ∨ (newOperator 301 1).id = 65535 ∨ ∃ e ∈
      (writing TableId.roster (writeData 0 0 (rosterItems 301 1 1))).tables.roster, e.1 ≠ 0 ∧ e.2.id = (newOperator
      301 1).id))
    ∧ (lastWrite (writing TableId.roster (writeData 127 0 (rosterItems 999 1 4))) (writeReq TableId.roster (writeData
      127 0 (rosterItems 999 1 4))) TableId.roster (writeData 127 0 (rosterItems 999 1 4)) = true ∧ (writing
      TableId.roster (writeData 127 0 (rosterItems 999 1 4))).store = none ∧ field2 (writeData 127 0 (rosterItems 999
      1 4)) 0 = 127 ∧ 127 < 128 ∧ checkedItems TableId.roster (List.drop 3 (writeData 127 0 (rosterItems 999 1 4))) =
      some (itemsOf TableId.roster (writeData 127 0 (rosterItems 999 1 4))) ∧ operatorWritten ((lookup (writing
      TableId.roster (writeData 127 0 (rosterItems 999 1 4))).tables.roster 127).getD (omittedOperator 127)) (itemsOf
      TableId.roster (writeData 127 0 (rosterItems 999 1 4))) = some (newOperator 999 4 127) ∧ itemBytes (itemsOf
      TableId.roster (writeData 127 0 (rosterItems 999 1 4))) 0 = none ∧ lookup (writing TableId.roster (writeData 127
      0 (rosterItems 999 1 4))).tables.roster 127 = none ∧ badOperatorId (writing TableId.roster (writeData 127 0
      (rosterItems 999 1 4))) 127 (newOperator 999 4 127).id = false)
    ∧ (operatorWritten (operator204 true) (itemsOf TableId.roster (writeData 0 0 (rosterItems 999 1 4))) = some
      ((operatorWritten (operator204 true) (itemsOf TableId.roster (writeData 0 0 (rosterItems 999 1 4)))).getD
      operator301))
    ∧ (lastWrite (writing TableId.stations (writeData 95 0 (it 0 [] ++ it 7 (b2 1)))) (writeReq TableId.stations
      (writeData 95 0 (it 0 [] ++ it 7 (b2 1)))) TableId.stations (writeData 95 0 (it 0 [] ++ it 7 (b2 1))) = true ∧
      (writing TableId.stations (writeData 95 0 (it 0 [] ++ it 7 (b2 1)))).store = none ∧ field2 (writeData 95 0 (it 0
      [] ++ it 7 (b2 1))) 0 = 95 ∧ 95 < 96 ∧ checkedItems TableId.stations (List.drop 3 (writeData 95 0 (it 0 [] ++ it
      7 (b2 1)))) = some (itemsOf TableId.stations (writeData 95 0 (it 0 [] ++ it 7 (b2 1)))) ∧ (∃ n v, (n = 7 ∨ n =
      8) ∧ itemValue (itemsOf TableId.stations (writeData 95 0 (it 0 [] ++ it 7 (b2 1)))) n = some v ∧ v ≠ 0))
    ∧ (lastWrite (writing TableId.stations (writeData 95 0 (it 0 [] ++ it 1 [255#8]))) (writeReq TableId.stations
      (writeData 95 0 (it 0 [] ++ it 1 [255#8]))) TableId.stations (writeData 95 0 (it 0 [] ++ it 1 [255#8])) = true ∧
      (writing TableId.stations (writeData 95 0 (it 0 [] ++ it 1 [255#8]))).store = none ∧ field2 (writeData 95 0 (it
      0 [] ++ it 1 [255#8])) 0 = 95 ∧ 95 < 96 ∧ checkedItems TableId.stations (List.drop 3 (writeData 95 0 (it 0 [] ++
      it 1 [255#8]))) = some (itemsOf TableId.stations (writeData 95 0 (it 0 [] ++ it 1 [255#8]))) ∧ (∃ v, itemValue
      (itemsOf TableId.stations (writeData 95 0 (it 0 [] ++ it 1 [255#8]))) 1 = some v ∧ (v = 0 ∨ v = 255)))
    ∧ (lastWrite (writing TableId.stations (writeData 95 0 (it 0 [] ++ it 2 [9#8]))) (writeReq TableId.stations
      (writeData 95 0 (it 0 [] ++ it 2 [9#8]))) TableId.stations (writeData 95 0 (it 0 [] ++ it 2 [9#8])) = true ∧
      (writing TableId.stations (writeData 95 0 (it 0 [] ++ it 2 [9#8]))).store = none ∧ field2 (writeData 95 0 (it 0
      [] ++ it 2 [9#8])) 0 = 95 ∧ 95 < 96 ∧ checkedItems TableId.stations (List.drop 3 (writeData 95 0 (it 0 [] ++ it
      2 [9#8]))) = some (itemsOf TableId.stations (writeData 95 0 (it 0 [] ++ it 2 [9#8]))) ∧ (∃ v, itemValue (itemsOf
      TableId.stations (writeData 95 0 (it 0 [] ++ it 2 [9#8]))) 2 = some v ∧ stationKindOf v = none))
    ∧ (lastWrite (writing TableId.stations (writeData 95 0 (it 0 [] ++ it 3 [0#8]))) (writeReq TableId.stations
      (writeData 95 0 (it 0 [] ++ it 3 [0#8]))) TableId.stations (writeData 95 0 (it 0 [] ++ it 3 [0#8])) = true ∧
      (writing TableId.stations (writeData 95 0 (it 0 [] ++ it 3 [0#8]))).store = none ∧ field2 (writeData 95 0 (it 0
      [] ++ it 3 [0#8])) 0 = 95 ∧ 95 < 96 ∧ checkedItems TableId.stations (List.drop 3 (writeData 95 0 (it 0 [] ++ it
      3 [0#8]))) = some (itemsOf TableId.stations (writeData 95 0 (it 0 [] ++ it 3 [0#8]))) ∧ (∃ v, itemValue (itemsOf
      TableId.stations (writeData 95 0 (it 0 [] ++ it 3 [0#8]))) 3 = some v ∧ sideOf v = none))
    ∧ (lastWrite (writing TableId.stations (writeData 95 0 (it 1 [60#8]))) (writeReq TableId.stations (writeData 95 0
      (it 1 [60#8]))) TableId.stations (writeData 95 0 (it 1 [60#8])) = true ∧ (writing TableId.stations (writeData 95
      0 (it 1 [60#8]))).store = none ∧ field2 (writeData 95 0 (it 1 [60#8])) 0 = 95 ∧ 95 < 96 ∧ checkedItems
      TableId.stations (List.drop 3 (writeData 95 0 (it 1 [60#8]))) = some (itemsOf TableId.stations (writeData 95 0
      (it 1 [60#8]))) ∧ itemBytes (itemsOf TableId.stations (writeData 95 0 (it 1 [60#8]))) 0 = none ∧ stationWritten
      (lookup (writing TableId.stations (writeData 95 0 (it 1 [60#8]))).tables.stations 95) (itemsOf TableId.stations
      (writeData 95 0 (it 1 [60#8]))) = none)
    ∧ (lastWrite (writing TableId.stations (writeData 7 0 (it 0 [])) ownEntry) (writeReq TableId.stations (writeData 7 0
      (it 0 []))) TableId.stations (writeData 7 0 (it 0 [])) = true ∧ (writing TableId.stations (writeData 7 0 (it 0
      [])) ownEntry).store = none ∧ field2 (writeData 7 0 (it 0 [])) 0 = 7 ∧ 7 < 96 ∧ checkedItems TableId.stations
      (List.drop 3 (writeData 7 0 (it 0 []))) = some (itemsOf TableId.stations (writeData 7 0 (it 0 []))) ∧ itemBytes
      (itemsOf TableId.stations (writeData 7 0 (it 0 []))) 0 ≠ none ∧ stationsRefused (writing TableId.stations
      (writeData 7 0 (it 0 [])) ownEntry).tables.stations (removeAt (writing TableId.stations (writeData 7 0 (it 0
      [])) ownEntry).tables.stations 7) = true)
    ∧ (lastWrite (writing TableId.stations (writeData 1 0 (it 6 [1#8])) (handing offered)) (writeReq TableId.stations
      (writeData 1 0 (it 6 [1#8]))) TableId.stations (writeData 1 0 (it 6 [1#8])) = true ∧ (writing TableId.stations
      (writeData 1 0 (it 6 [1#8])) (handing offered)).store = none ∧ field2 (writeData 1 0 (it 6 [1#8])) 0 = 1 ∧ 1 <
      96 ∧ checkedItems TableId.stations (List.drop 3 (writeData 1 0 (it 6 [1#8]))) = some (itemsOf TableId.stations
      (writeData 1 0 (it 6 [1#8]))) ∧ lookup (writing TableId.stations (writeData 1 0 (it 6 [1#8])) (handing
      offered)).tables.stations 1 = some (desk 49) ∧ itemBytes (itemsOf TableId.stations (writeData 1 0 (it 6 [1#8])))
      0 = none ∧ countsNonzero (itemsOf TableId.stations (writeData 1 0 (it 6 [1#8]))) [7, 8] = false ∧ stationWritten
      (some (desk 49)) (itemsOf TableId.stations (writeData 1 0 (it 6 [1#8]))) = some (rewritten (desk 49) (it 6
      [1#8])) ∧ stationsRefused (writing TableId.stations (writeData 1 0 (it 6 [1#8])) (handing
      offered)).tables.stations (insertAt (writing TableId.stations (writeData 1 0 (it 6 [1#8])) (handing
      offered)).tables.stations 1 (rewritten (desk 49) (it 6 [1#8]))) = false)
    ∧ (lastWrite (writing TableId.stations (writeData 1 0 (it 1 [60#8])) (handing offered)) (writeReq TableId.stations
      (writeData 1 0 (it 1 [60#8]))) TableId.stations (writeData 1 0 (it 1 [60#8])) = true ∧ (writing TableId.stations
      (writeData 1 0 (it 1 [60#8])) (handing offered)).store = none ∧ field2 (writeData 1 0 (it 1 [60#8])) 0 = 1 ∧ 1 <
      96 ∧ checkedItems TableId.stations (List.drop 3 (writeData 1 0 (it 1 [60#8]))) = some (itemsOf TableId.stations
      (writeData 1 0 (it 1 [60#8]))) ∧ lookup (writing TableId.stations (writeData 1 0 (it 1 [60#8])) (handing
      offered)).tables.stations 1 = some (desk 49) ∧ itemBytes (itemsOf TableId.stations (writeData 1 0 (it 1
      [60#8]))) 0 = none ∧ countsNonzero (itemsOf TableId.stations (writeData 1 0 (it 1 [60#8]))) [7, 8] = false ∧
      stationWritten (some (desk 49)) (itemsOf TableId.stations (writeData 1 0 (it 1 [60#8]))) = some (rewritten (desk
      49) (it 1 [60#8])) ∧ stationsRefused (writing TableId.stations (writeData 1 0 (it 1 [60#8])) (handing
      offered)).tables.stations (insertAt (writing TableId.stations (writeData 1 0 (it 1 [60#8])) (handing
      offered)).tables.stations 1 (rewritten (desk 49) (it 1 [60#8]))) = false)
    ∧ (lastWrite (writing TableId.stations (writeData 0 0 (it 1 [14#8])) (withCommands [sent 2])) (writeReq
      TableId.stations (writeData 0 0 (it 1 [14#8]))) TableId.stations (writeData 0 0 (it 1 [14#8])) = true ∧ (writing
      TableId.stations (writeData 0 0 (it 1 [14#8])) (withCommands [sent 2])).store = none ∧ field2 (writeData 0 0 (it
      1 [14#8])) 0 = 0 ∧ 0 < 96 ∧ checkedItems TableId.stations (List.drop 3 (writeData 0 0 (it 1 [14#8]))) = some
      (itemsOf TableId.stations (writeData 0 0 (it 1 [14#8]))) ∧ lookup (writing TableId.stations (writeData 0 0 (it 1
      [14#8])) (withCommands [sent 2])).tables.stations 0 = some (plantStation 12 StationKind.controller) ∧ itemBytes
      (itemsOf TableId.stations (writeData 0 0 (it 1 [14#8]))) 0 = none ∧ countsNonzero (itemsOf TableId.stations
      (writeData 0 0 (it 1 [14#8]))) [7, 8] = false ∧ stationWritten (some (plantStation 12 StationKind.controller))
      (itemsOf TableId.stations (writeData 0 0 (it 1 [14#8]))) = some (rewritten (plantStation 12
      StationKind.controller) (it 1 [14#8])) ∧ stationsRefused (writing TableId.stations (writeData 0 0 (it 1 [14#8]))
      (withCommands [sent 2])).tables.stations (insertAt (writing TableId.stations (writeData 0 0 (it 1 [14#8]))
      (withCommands [sent 2])).tables.stations 0 (rewritten (plantStation 12 StationKind.controller) (it 1 [14#8]))) =
      false)
    ∧ (lastWrite (writing TableId.stations (writeData 0 0 (it 7 (b2 0)))) (writeReq TableId.stations (writeData 0 0 (it
      7 (b2 0)))) TableId.stations (writeData 0 0 (it 7 (b2 0))) = true ∧ (writing TableId.stations (writeData 0 0 (it
      7 (b2 0)))).store = none ∧ field2 (writeData 0 0 (it 7 (b2 0))) 0 = 0 ∧ 0 < 96 ∧ checkedItems TableId.stations
      (List.drop 3 (writeData 0 0 (it 7 (b2 0)))) = some (itemsOf TableId.stations (writeData 0 0 (it 7 (b2 0)))) ∧
      lookup (writing TableId.stations (writeData 0 0 (it 7 (b2 0)))).tables.stations 0 = some (plantStation 12
      StationKind.controller) ∧ itemBytes (itemsOf TableId.stations (writeData 0 0 (it 7 (b2 0)))) 0 = none ∧
      countsNonzero (itemsOf TableId.stations (writeData 0 0 (it 7 (b2 0)))) [7, 8] = false ∧ stationWritten (some
      (plantStation 12 StationKind.controller)) (itemsOf TableId.stations (writeData 0 0 (it 7 (b2 0)))) = some
      (rewritten (plantStation 12 StationKind.controller) (it 7 (b2 0))) ∧ stationsRefused (writing TableId.stations
      (writeData 0 0 (it 7 (b2 0)))).tables.stations (insertAt (writing TableId.stations (writeData 0 0 (it 7 (b2
      0)))).tables.stations 0 (rewritten (plantStation 12 StationKind.controller) (it 7 (b2 0)))) = false)
    ∧ (stationWritten none (itemsOf TableId.stations (writeData 1 0 (stationItems 60 2 2))) = some ((stationWritten none
      (itemsOf TableId.stations (writeData 1 0 (stationItems 60 2 2)))).getD (desk 1)) ∧ ((stationWritten none
      (itemsOf TableId.stations (writeData 1 0 (stationItems 60 2 2)))).getD (desk 1)).kind ≠ StationKind.self ∧
      ((stationWritten none (itemsOf TableId.stations (writeData 1 0 (stationItems 60 2 2)))).getD (desk 1)).kind ≠
      StationKind.console) := by
  and_intros <;> first
    | decide +kernel
    | exact ⟨7, 1, .inl rfl, by decide +kernel, by decide⟩

theorem witness_DiscardedSlotIsReportedAndCounted :
    (lastRecord (asked ⟨133#8, b2 1024⟩) (request ⟨133#8, b2 1024⟩) ⟨133#8, b2 1024⟩ 8 = true ∧ 1024 < 65536 ∧ 1024 ≤
      1024)
    ∧ (lastRecord (asked ⟨133#8, b2 1023⟩) (request ⟨133#8, b2 1023⟩) ⟨133#8, b2 1023⟩ 8 = true ∧ 1023 < 65536 ∧ 1023 <
      1024 ∧ lookup (asked ⟨133#8, b2 1023⟩).slots 1023 = none)
    ∧ (lastRecord (asked ⟨133#8, b2 0⟩) (request ⟨133#8, b2 0⟩) ⟨133#8, b2 0⟩ 8 = true ∧ 0 < 65536 ∧ 0 < 1024 ∧ lookup
      (asked ⟨133#8, b2 0⟩).slots 0 = some slot10 ∧ (asked ⟨133#8, b2 0⟩).queue = [] ∧ (asked ⟨133#8, b2
      0⟩).AlarmTableSound)
    ∧ (lastRecord (asked ⟨133#8, b2 0⟩ none (withQueue [waiter])) (request ⟨133#8, b2 0⟩) ⟨133#8, b2 0⟩ 8 = true ∧ 0 <
      65536 ∧ 0 < 1024 ∧ lookup (asked ⟨133#8, b2 0⟩ none (withQueue [waiter])).slots 0 = some slot10 ∧ (asked ⟨133#8,
      b2 0⟩ none (withQueue [waiter])).queue = [waiter] ∧ (asked ⟨133#8, b2 0⟩ none (withQueue
      [waiter])).AlarmTableSound) :=
  ⟨by decide +kernel, by decide +kernel, by decide +kernel, by decide +kernel⟩

theorem witness_StoreResetAndClearRetained :
    (lastRecord (asked ⟨136#8, []⟩) (request ⟨136#8, []⟩) ⟨136#8, []⟩ 0 = true ∧ (asked ⟨136#8, []⟩).store = none)
    ∧ (lastRecord (storing (asked ⟨136#8, []⟩)) (request ⟨136#8, []⟩) ⟨136#8, []⟩ 0 = true ∧ (storing (asked ⟨136#8,
      []⟩)).store ≠ none)
    ∧ (completing.request = none ∧ completing.store = some { copy := tables, age := 2 } ∧ completing.heldMreps =
      [heldMrep] ∧ heldMrep.storeAt = some 1)
    ∧ (mill.settled = true ∧ mill.store = none)
    ∧ (lastRecord (asked ⟨137#8, []⟩) (request ⟨137#8, []⟩) ⟨137#8, []⟩ 0 = true ∧ (asked ⟨137#8, []⟩).store = none)
    ∧ (lastRecord (storing (asked ⟨137#8, []⟩)) (request ⟨137#8, []⟩) ⟨137#8, []⟩ 0 = true ∧ (storing (asked ⟨137#8,
      []⟩)).store ≠ none)
    ∧ (lastRecord (asked ⟨138#8, []⟩ none (handing offered)) (request ⟨138#8, []⟩) ⟨138#8, []⟩ 0 = true ∧ (asked ⟨138#8,
      []⟩ none (handing offered)).records ≠ [])
    ∧ (lastRecord (storing (asked ⟨138#8, []⟩)) (request ⟨138#8, []⟩) ⟨138#8, []⟩ 0 = true ∧ (storing (asked ⟨138#8,
      []⟩)).records = [] ∧ (storing (asked ⟨138#8, []⟩)).store ≠ none)
    ∧ (lastRecord (asked ⟨138#8, []⟩) (request ⟨138#8, []⟩) ⟨138#8, []⟩ 0 = true ∧ (asked ⟨138#8, []⟩).records = [] ∧
      (asked ⟨138#8, []⟩).store = none)
    ∧ ((storing mill).settled = true ∧ (storing mill).owed = [] ∧ (storing mill).store = some job2 ∧ job2.age < 3)
    ∧ (storingLate.settled = true ∧ storingLate.owed = [] ∧ storingLate.store = some job3 ∧ 3 ≤ job3.age) := by
  and_intros <;> decide +kernel

theorem witness_TickCountsEveryTimer :
    ((owing [TickItem.time] (withTime unmarked)).settled = true ∧ TickItem.time ∈ (owing [TickItem.time] (withTime
      unmarked)).owed ∧ (owing [TickItem.time] (withTime unmarked)).time.state = TimeState.locked ∧ (owing
      [TickItem.time] (withTime unmarked)).time.pending = none ∧ 2 ≤ (owing [TickItem.time] (withTime
      unmarked)).time.silence)
    ∧ (mill.settled = true ∧ mill.owed = [] ∧ mill.store = none ∧ mill.KeysRise ∧ mill.NumbersApart) :=
  by decide +kernel

theorem witness_FloodAndChatterRelease :
    (lifting.settled = true ∧ TickItem.load 7 ∈ lifting.owed ∧ (lifting.area 7).flood = true ∧ decayed (lifting.area
      7).load < (lifting.areaParams 7).fOff ∧ risingKeys lifting.slots = true)
    ∧ (chattering.settled = true ∧ TickItem.chatter 10 ∈ chattering.owed ∧ (chattering.dynOf 10).held = true ∧
      (chattering.dynOf 10).score - 1 ≤ (chattering.pointDef 10).chatterOff)
    ∧ (risingKeys lifting.consoles = true ∧ lookup lifting.consoles 49 = some (fullConsole 204) ∧ (fullConsole
      204).attached = true ∧ (fullConsole 204).notices.length + lifting.records.length + lifting.pointAreas.length + 2
      ≤ 32) :=
  by decide +kernel

theorem witness_SilentConsoleDetaches :
    ((owing [TickItem.consoleSilence 49] (withConsole 49 silent)).settled = true ∧ TickItem.consoleSilence 49 ∈ (owing
      [TickItem.consoleSilence 49] (withConsole 49 silent)).owed ∧ lookup (owing [TickItem.consoleSilence 49]
      (withConsole 49 silent)).consoles 49 = some silent ∧ silent.attached = true ∧ 2 ≤ silent.silence)
    ∧ ((owing [TickItem.rateHold 49, TickItem.loginHold 49] (withConsole 49 onHold)).settled = true ∧ lookup (owing
      [TickItem.rateHold 49, TickItem.loginHold 49] (withConsole 49 onHold)).consoles 49 = some onHold ∧
      TickItem.rateHold 49 ∈ (owing [TickItem.rateHold 49, TickItem.loginHold 49] (withConsole 49 onHold)).owed ∧
      onHold.rateHold = 1 ∧ TickItem.loginHold 49 ∈ (owing [TickItem.rateHold 49, TickItem.loginHold 49] (withConsole
      49 onHold)).owed ∧ onHold.loginHold = 1) :=
  by decide +kernel

theorem witness_GraceAndHandoverLimitsExpire :
    ((owing [TickItem.grace 7] (withArea 7 graced)).settled = true ∧ TickItem.grace 7 ∈ (owing [TickItem.grace 7]
      (withArea 7 graced)).owed ∧ ((owing [TickItem.grace 7] (withArea 7 graced)).area 7).authority = Authority.grace
      ∧ ((owing [TickItem.grace 7] (withArea 7 graced)).area 7).graceLeft ≤ 1)
    ∧ ((owing [TickItem.handover 5] (handing unattended)).settled = true ∧ TickItem.handover 5 ∈ (owing
      [TickItem.handover 5] (handing unattended)).owed ∧ (owing [TickItem.handover 5] (handing unattended)).record 5 =
      some unattended ∧ 1 < unattended.left ∧ unattended.state = HandoverState.offered ∧ unattended.attendLeft ≤ 1)
    ∧ ((owing [TickItem.handover 5] (handing overdue)).settled = true ∧ TickItem.handover 5 ∈ (owing [TickItem.handover
      5] (handing overdue)).owed ∧ (owing [TickItem.handover 5] (handing overdue)).record 5 = some overdue ∧
      overdue.left ≤ 1) :=
  by decide +kernel

end Sys2Proof.Tests
end

namespace Sys2Proof.Machine

/-! ## The order of timestamps (R9) -/

/-- The order of R9: UNSYNC first, then seconds, then milliseconds. -/
theorem Stamp.older_iff (a b : Stamp) : a.older b = true ↔
    (a.unsync = true ∧ b.unsync = false)
      ∨ (a.unsync = b.unsync ∧ (a.sec < b.sec ∨ (a.sec = b.sec ∧ a.ms < b.ms))) := by
  unfold Stamp.older earlier
  cases ha : a.unsync <;> cases hb : b.unsync <;> simp

theorem Stamp.older_asymm {a b : Stamp} (h : a.older b = true) : b.older a = false := by
  rw [Bool.eq_false_iff, Ne, Stamp.older_iff]
  rw [Stamp.older_iff] at h
  grind

/-- Not being younger is transitive. -/
theorem Stamp.not_older_trans {a b c : Stamp} (hab : b.older a = false) (hbc : c.older b = false) :
    c.older a = false := by
  rw [Bool.eq_false_iff, Ne, Stamp.older_iff] at *
  grind

/-- Two stamps of which neither is older are the same to a third. -/
theorem Stamp.older_of_not_older {a b c : Stamp} (hac : a.older c = false) (hab : b.older a = false)
    (hbc : c.older b = false) : a.older b = false ∧ b.older c = false := by
  simp only [Bool.eq_false_iff, ne_eq, Stamp.older_iff] at *
  grind

/-! ## The victim (R18) -/

theorem Priority.rank_inj {a b : Priority} (h : a.rank = b.rank) : a = b := by
  cases a <;> cases b <;> first | rfl | cases h

/-- Entry `v` is as good a victim as `w`: of no higher priority, and among equals no younger, then of no higher index. -/
def AsGoodVictim (s : State) (v w : Nat × Slot) : Prop :=
  (s.pointDef w.2.point).priority.rank ≤ (s.pointDef v.2.point).priority.rank
    ∧ ((s.pointDef w.2.point).priority = (s.pointDef v.2.point).priority →
        w.2.last.older v.2.last = false ∧ (v.2.last.older w.2.last = false → v.1 ≤ w.1))

theorem asGoodVictim_refl (s : State) (v : Nat × Slot) : AsGoodVictim s v v := by
  refine ⟨le_rfl, fun _ => ⟨?_, fun _ => le_rfl⟩⟩
  cases h : v.2.last.older v.2.last with
  | false => rfl
  | true => rw [← h]; exact Stamp.older_asymm h

theorem asGoodVictim_trans {s : State} {u v w : Nat × Slot} (huv : AsGoodVictim s u v) (hvw : AsGoodVictim s v w) :
    AsGoodVictim s u w := by
  obtain ⟨huv, euv⟩ := huv
  obtain ⟨hvw, evw⟩ := hvw
  refine ⟨hvw.trans huv, fun he => ?_⟩
  have hv : (s.pointDef v.2.point).priority = (s.pointDef u.2.point).priority := by
    rw [he] at hvw
    exact Priority.rank_inj (le_antisymm huv hvw)
  obtain ⟨hou, hiu⟩ := euv hv
  obtain ⟨how, hiw⟩ := evw (he.trans hv.symm)
  refine ⟨Stamp.not_older_trans hou how, fun hn => ?_⟩
  obtain ⟨h1, h2⟩ := Stamp.older_of_not_older hn hou how
  exact (hiu h1).trans (hiw h2)

/-- The choice between two victims (R18). -/
theorem asGoodVictim_of_betterVictim (s : State) (a b : Nat × Slot) :
    if betterVictim s a b then AsGoodVictim s b a else AsGoodVictim s a b := by
  unfold betterVictim AsGoodVictim
  dsimp only
  by_cases hp : (s.pointDef a.2.point).priority = (s.pointDef b.2.point).priority
  · rw [hp]
    cases hab : a.2.last.older b.2.last with
    | true => simp [Stamp.older_asymm hab]
    | false =>
      cases hba : b.2.last.older a.2.last with
      | true => simp
      | false => by_cases hi : b.1 < a.1 <;> simp [hi] <;> omega
  · have hr : (s.pointDef a.2.point).priority.rank ≠ (s.pointDef b.2.point).priority.rank :=
      fun h => hp (Priority.rank_inj h)
    by_cases hlt : (s.pointDef a.2.point).priority.rank < (s.pointDef b.2.point).priority.rank
    · simp [hr, hlt, hlt.le, hp]
    · simp [hr, hlt, Ne.symm hp]; omega

/-- One step of the search for a victim: the better of the best so far and the next. -/
def pickVictim (s : State) (best : Option (Nat × Slot)) (e : Nat × Slot) : Option (Nat × Slot) :=
  match best with
  | none => some e
  | some b => if betterVictim s b e then some e else some b

theorem victim_eq (s : State) (pr : Priority) :
    victim s pr = (s.slots.filter (victimCandidate s pr)).foldl (pickVictim s) none := rfl

/-- The search over a list from a best entry: its result is one of them, and as good as each. -/
theorem foldl_pickVictim (s : State) (l : List (Nat × Slot)) (b : Nat × Slot) :
    ∃ v, l.foldl (pickVictim s) (some b) = some v ∧ v ∈ b :: l ∧ ∀ w ∈ b :: l, AsGoodVictim s v w := by
  induction l generalizing b with
  | nil => exact ⟨b, rfl, by simp, by simp [asGoodVictim_refl]⟩
  | cons e l ih =>
    have hbe := asGoodVictim_of_betterVictim s b e
    simp only [List.foldl_cons, pickVictim]
    split at hbe
    · next h =>
      obtain ⟨v, hv, hm, hall⟩ := ih e
      refine ⟨v, by rw [if_pos h]; exact hv, List.mem_cons_of_mem _ hm, ?_⟩
      rintro w (_ | ⟨_, hw⟩)
      · exact asGoodVictim_trans (hall e (by simp)) hbe
      · exact hall w hw
    · next h =>
      obtain ⟨v, hv, hm, hall⟩ := ih b
      refine ⟨v, by rw [if_neg h]; exact hv, by grind, ?_⟩
      rintro w (_ | ⟨_, _ | ⟨_, hw⟩⟩)
      · exact hall _ (by simp)
      · exact asGoodVictim_trans (hall b (by simp)) hbe
      · exact hall w (List.mem_cons_of_mem _ hw)

/-- The victim is a candidate, and as good a one as each. -/
theorem victim_eq_some {s : State} {pr : Priority} {v : Nat × Slot} (h : victim s pr = some v) :
    v ∈ s.slots ∧ victimCandidate s pr v = true
      ∧ ∀ w ∈ s.slots, victimCandidate s pr w = true → AsGoodVictim s v w := by
  rw [victim_eq] at h
  cases hl : s.slots.filter (victimCandidate s pr) with
  | nil => rw [hl] at h; cases h
  | cons b l =>
    rw [hl] at h
    obtain ⟨v', hv, hm, hall⟩ := foldl_pickVictim s l b
    have hvv : v' = v := Option.some.inj (hv.symm.trans h)
    subst hvv
    rw [← hl] at hm hall
    obtain ⟨hs, hc⟩ := List.mem_filter.1 hm
    exact ⟨hs, hc, fun w hw hcw => hall w (List.mem_filter.2 ⟨hw, hcw⟩)⟩

/-- There is no victim only where there is no candidate. -/
theorem victim_eq_none {s : State} {pr : Priority} (h : victim s pr = none) :
    ∀ w ∈ s.slots, victimCandidate s pr w = false := by
  rw [victim_eq] at h
  cases hl : s.slots.filter (victimCandidate s pr) with
  | nil => simpa [List.filter_eq_nil_iff] using hl
  | cons b l =>
    rw [hl] at h
    obtain ⟨v, hv, -⟩ := foldl_pickVictim s l b
    cases hv.symm.trans h

/-- Settles O23: the search keeps the best entry so far, and being as good a victim is transitive. -/
theorem victimIsTheLeastAndOldest : Obligations.VictimIsTheLeastAndOldest :=
  fun _ _ => ⟨fun _ => victim_eq_some, victim_eq_none⟩

/-! ## Reset -/

/-- Settles O3. The tables of the state after reset are empty. -/
theorem resetMeetsTheBounds : Obligations.ResetMeetsTheBounds := by
  have authority (a : Nat) : State.reset.area a = {} := rfl
  refine ⟨by decide, by decide, by decide, by decide, by decide, by decide, by decide, ?_, ?_⟩
  · constructor
    · intro a _ h; rw [authority] at h; cases h
    · intro a b n m op c d h; cases h
    · intro h hh; cases hh
    · intro a n; rw [authority]; simp [State.reset]
    · intro a h; exact absurd rfl h
  · exact ⟨by decide, by decide, by decide⟩

end Sys2Proof.Machine

namespace Sys2Proof.Machine

/-! ## The stamp of an event -/

/-- A time value raised to a high mark is raised no further by itself. -/
theorem Stamp.raise_idem (x h : Stamp) (hu : x.unsync = true → h.unsync = true) :
    (if x.older (if x.older h then ⟨x.unsync, h.sec, h.ms⟩ else x) then
        ⟨x.unsync, (if x.older h then ⟨x.unsync, h.sec, h.ms⟩ else x).sec,
          (if x.older h then ⟨x.unsync, h.sec, h.ms⟩ else x).ms⟩
      else x) = if x.older h then ⟨x.unsync, h.sec, h.ms⟩ else x := by
  cases hx : x.older h with
  | false => simp
  | true =>
    rw [Stamp.older_iff] at hx
    have hy : x.older ⟨x.unsync, h.sec, h.ms⟩ = true := by rw [Stamp.older_iff]; grind
    simp [hy]

/-- The high mark that has taken the stamp of an event gives the event the same stamp again. -/
theorem stamp_marked {s : State} (h : s.time.Sound) : s.marked.stamp = s.stamp := by
  obtain ⟨-, -, -, -, -, hu⟩ := h
  exact Stamp.raise_idem ⟨s.time.state == .unset, _, _⟩ s.time.high fun hx => hu (by simpa using hx)

/-- The stamp reads the time base alone. -/
theorem stamp_congr {s t : State} (h : t.time = s.time) : t.stamp = s.stamp := by
  unfold State.stamp; rw [h]

/-- A report marks the stamp of its event. -/
theorem report_time (s : State) (r : Report) : (s.report r).time = s.marked.time :=
  (congrArg State.time (report_frame s r) :)

theorem stamp_report {s : State} (h : s.time.Sound) (r : Report) : (s.report r).stamp = s.stamp :=
  (stamp_congr (report_time s r)).trans (stamp_marked h)

@[simp] theorem report_arepSeq (s : State) (r : Report) : (s.report r).arepSeq = (s.arepSeq + 1) % 65536 :=
  (congrArg State.arepSeq (report_frame s r) :)

/-- The AREP of a report joins the plant port's OWN queue (R63). -/
theorem report_plant (s : State) (r : Report) : (s.report r).plant = s.plant.joinOwn (arepAt s s.stamp r) :=
  send_plant_plant ..

/-! ## Latching without a STAT -/

/-- A flag that is latched already stays as it is (R191). -/
theorem latch_of_isLatched {s : State} {f : StatusFlag} (h : s.isLatched f = true) : s.latch f = s := by
  simp [State.latch, latchOnce, h]

/-- A flag sends nothing where it is latched already or no ENGINEERING station is configured (R191). -/
theorem latch_plant_of_quiet {s : State} {f : StatusFlag} (h : s.engineering = [] ∨ s.isLatched f = true) :
    (s.latch f).plant = s.plant := by
  rcases h with h | h
  · unfold State.latch latchOnce
    split
    · simp
    · have he : ({ s with latched := s.latched ||| f.bit } : State).engineering = [] := h
      simp [he]
  · rw [latch_of_isLatched h]

/-- A report clears no flag. -/
theorem report_isLatched {s : State} {f : StatusFlag} (h : s.isLatched f = true) (r : Report) :
    (s.report r).isLatched f = true := by
  have hs (t : State) (e : OwnEntry) (ht : t.isLatched f = true) : (t.sendEntry .plant e).isLatched f = true := by
    unfold State.sendEntry
    split
    · exact ht
    · exact latch_keeps _ _ _ ht
  exact hs _ _ h

/-! ## The accessors read their tables alone -/

theorem pointDef_congr {s t : State} (h : t.tables.points = s.tables.points) (p : Nat) : t.pointDef p = s.pointDef p := by
  unfold State.pointDef; rw [h]
theorem area_congr {s t : State} (h : t.areas = s.areas) (a : Nat) : t.area a = s.area a := by
  unfold State.area; rw [h]
theorem dynOf_congr {s t : State} (h : t.dyn = s.dyn) (p : Nat) : t.dynOf p = s.dynOf p := by
  unfold State.dynOf; rw [h]
theorem shelved_congr {s t : State} (h : t.shelf = s.shelf) (p : Nat) : t.shelved p = s.shelved p := by
  unfold State.shelved; rw [h]
theorem slotOf_congr {s t : State} (h : t.slots = s.slots) (p : Nat) : t.slotOf p = s.slotOf p := by
  unfold State.slotOf; rw [h]
theorem queued_congr {s t : State} (h : t.queue = s.queue) (p : Nat) : t.queued p = s.queued p := by
  unfold State.queued; rw [h]
theorem controllerLive_congr {s t : State} (h : t.controllers = s.controllers) (a : Nat) :
    t.controllerLive a = s.controllerLive a := by
  unfold State.controllerLive; rw [h]

/-! ## Freed slots (R20, R21) -/

theorem admitHead_of_nil {i : Nat} {e : Ev} (h : e.s.queue = []) : admitHead i e = e := by
  unfold admitHead; rw [h]

/-- The slot that the head of the queue takes. -/
def admittedSlot (s : State) (q : QEntry) : Slot :=
  freshSlot s q.point (if q.returned then .returnedUnack else .activeUnack) q.onset s.stamp
    (suppressedAtAdmission s q.point)

/-- The slot change of an admission (R15, R20). -/
def admissionChange (s : State) (i : Nat) (q : QEntry) : SlotChange :=
  { kind := .admission, point := q.point, area := (s.pointDef q.point).area, slot := some i
    newState := some (if q.returned then .returnedUnack else .activeUnack), newOcc := some 1, origin := some .admission }

theorem admitHead_of_cons {i : Nat} {e : Ev} {q : QEntry} {rest : List QEntry} (h : e.s.queue = q :: rest) :
    admitHead i e = { s := { e.s.marked with queue := rest, slots := insertAt e.s.slots i (admittedSlot e.s q) }
                      changes := e.changes ++ [admissionChange e.s i q] } := by
  unfold admitHead; rw [h]; rfl

theorem lookup_insertAt_removeAt {α : Type} (t : List (Nat × α)) {i j : Nat} (h : j ≠ i) (a : α) :
    lookup (insertAt (removeAt t i) i a) j = lookup t j := by
  rw [lookup_insertAt_of_ne _ h, lookup_removeAt_of_ne _ h]

/-- Settles O25, by the equation of `admitHead` on a queue with a head. -/
theorem freedSlotAdmitsTheHead : Obligations.FreedSlotAdmitsTheHead := by
  intro s i sl k o q rest hq
  have he := admitHead_of_cons (i := i) (e := ({ s := s } : Ev).push (s.freeSlot i)
    { kind := k, point := sl.point, area := (s.pointDef sl.point).area, slot := some i, oldState := some sl.state
      oldOcc := some sl.occ, origin := some o }) (q := q) (rest := rest) hq
  unfold freeAndAdmit
  rw [he]
  exact ⟨admittedSlot (s.freeSlot i) q, lookup_insertAt_self .., rfl, rfl, rfl, rfl, rfl, rfl, rfl,
    fun j hj => lookup_insertAt_removeAt _ hj _, rfl⟩

/-! ## A full table (R17 to R19) -/

theorem allocate_of_free {e : Ev} {i : Nat} (p : Nat) (o : Origin) (h : e.s.lowestFree = some i) :
    allocate p o e = onsetInto i p o e := by
  unfold allocate; rw [h]

theorem allocate_of_victim {e : Ev} {p : Nat} {v : Nat × Slot} (o : Origin) (h : e.s.lowestFree = none)
    (hv : victim e.s (e.s.pointDef p).priority = some v) : allocate p o e = onsetInto v.1 p o (evict v o e) := by
  unfold allocate; rw [h, hv]

theorem allocate_of_full {e : Ev} {p : Nat} (o : Origin) (h : e.s.lowestFree = none)
    (hv : victim e.s (e.s.pointDef p).priority = none) : allocate p o e = joinQueue p o e := by
  unfold allocate; rw [h, hv]

theorem evict_s (v : Nat × Slot) (o : Origin) (e : Ev) :
    (evict v o e).s = (((e.s.freeSlot v.1).report
        { action := .evicted, point := v.2.point, area := (e.s.pointDef v.2.point).area, occ := some v.2.occ
          stateAfter := some 0 }).modArea (e.s.pointDef v.2.point).area fun a =>
            { a with evictions := countUp a.evictions }).latch .slotEviction := rfl

/-- Settles O24: the three branches of `allocate` where no slot is free. -/
theorem fullTableEvictsOrQueues : Obligations.FullTableEvictsOrQueues := by
  intro s p o hfull hsound
  refine ⟨fun v hv => ?_, fun hv hlen => ?_, fun hv hlen => ?_⟩
  · rw [allocate_of_victim (e := { s := s }) o hfull hv]
    generalize hu : (evict v o { s := s }).s = u
    rw [evict_s] at hu
    dsimp only at hu
    have hstamp : u.stamp = s.stamp := by
      rw [← hu, stamp_congr (State.latch_time ..), stamp_congr (State.modArea_time ..)]
      exact stamp_report (s := s.freeSlot v.1) hsound _
    have ht : (onsetInto v.1 p o (evict v o { s := s })).s
        = u.marked.setSlot v.1 (freshSlot u p .activeUnack u.stamp u.stamp false) := by
      unfold onsetInto Ev.push; rw [evict_s]; dsimp only; rw [hu]
    dsimp only
    rw [ht]
    refine ⟨?_, ?_, ?_, ?_, ?_, ?_, ?_, ?_⟩
    · exact hu ▸ latch_isLatched _ _
    · rw [hstamp]; exact lookup_insertAt_self ..
    · intro j hj
      have : u.slots = removeAt s.slots v.1 := by simp [← hu]
      simp only [State.setSlot_slots, State.marked_slots, this]
      exact lookup_insertAt_removeAt _ hj _
    · intro b
      rw [area_congr (t := u.marked.setSlot _ _) (s := u) rfl, ← hu, area_congr (State.latch_areas ..), area_modArea,
        area_congr (State.report_areas ..), area_congr (State.report_areas ..)]
      rfl
    · simp [← hu]
    · rfl
    · simp [← hu]
    · intro hq
      have hq' : ((s.freeSlot v.1).engineering = [] ∨ (s.freeSlot v.1).isLatched .slotEviction = true) := hq
      show u.plant = _
      rw [← hu, latch_plant_of_quiet, State.modArea_plant, report_plant]
      · rfl
      · exact hq'.imp (fun h => by simpa [State.engineering] using h) fun h => report_isLatched h _
  · rw [allocate_of_full (e := { s := s }) o hfull hv]
    simp [joinQueue, hlen, Config.queueCap, Ev.push]
  · rw [allocate_of_full (e := { s := s }) o hfull hv]
    have : ¬ s.queue.length < Config.queueCap := by simp only [Config.queueCap]; omega
    simp [joinQueue, this, countUp]

end Sys2Proof.Machine

namespace Sys2Proof.Machine

/-! ## What leaves the alarm table and the shelf as they are -/

/-- No URGENT definition of a table that is, or may become, the part's own allows shelving or suppression (R3). -/
def State.TablesClamped (s : State) : Prop :=
  s.tables.UrgentClamped ∧ s.memory.copy.UrgentClamped ∧ ∀ j, s.store = some j → j.copy.UrgentClamped

/-- `t` has the slots, the admission queue, the shelf list and the point definitions of `s`, a reset waits in it where one
does in `s`, and no other bounded list of it has grown above its capacity. -/
structure Still (s t : State) : Prop where
  slots    : t.slots = s.slots := by simp
  queue    : t.queue = s.queue := by simp
  shelf    : t.shelf = s.shelf := by simp
  points   : t.tables.points = s.tables.points := by simp
  waits    : t.resetWaits = s.resetWaits := by simp
  clamped  : s.TablesClamped → t.TablesClamped := by simp [State.TablesClamped]
  commands : s.commands.length ≤ Config.commandCap → t.commands.length ≤ Config.commandCap := by simp
  records  : s.records.length ≤ Config.recordCap → t.records.length ≤ Config.recordCap := by simp
  reviews  : (∀ h ∈ s.records, h.list.length ≤ Config.reviewCap) → ∀ h ∈ t.records, h.list.length ≤ Config.reviewCap := by
    simp
  journal  : s.retained.journal.length ≤ Config.journalCap → t.retained.journal.length ≤ Config.journalCap := by simp
  notices  : (∀ e ∈ s.consoles, e.2.notices.length ≤ Config.noticeCap) →
    ∀ e ∈ t.consoles, e.2.notices.length ≤ Config.noticeCap := by simp

theorem Still.refl (s : State) : Still s s where

theorem Still.trans {s t u : State} (h : Still s t) (k : Still t u) : Still s u where
  slots := k.slots.trans h.slots
  queue := k.queue.trans h.queue
  shelf := k.shelf.trans h.shelf
  points := k.points.trans h.points
  waits := k.waits.trans h.waits
  clamped := k.clamped ∘ h.clamped
  commands := k.commands ∘ h.commands
  records := k.records ∘ h.records
  reviews := k.reviews ∘ h.reviews
  journal := k.journal ∘ h.journal
  notices := k.notices ∘ h.notices

theorem Still.foldl {α : Type} {f : State → α → State} (h : ∀ s a, Still s (f s a)) (l : List α) (s : State) :
    Still s (l.foldl f s) := by
  induction l generalizing s with
  | nil => exact .refl s
  | cons a l ih => exact (h s a).trans (ih _)

theorem Still.ite {s t u : State} {p : Prop} [Decidable p] (h : p → Still s t) (k : ¬ p → Still s u) :
    Still s (if p then t else u) := by
  split
  · exact h ‹_›
  · exact k ‹_›

theorem Still.capacity {s t : State} (h : Still s t) (hs : s.WithinCapacity) : t.WithinCapacity := by
  obtain ⟨hq, hsh, hc, hr, hl, hj, hn⟩ := hs
  exact ⟨h.queue ▸ hq, h.shelf ▸ hsh, h.commands hc, h.records hr, h.reviews hl, h.journal hj, h.notices hn⟩

/-! ### Areas, controllers, ports and flags -/

theorem modArea_still (s : State) (a : Nat) (f : Area → Area) : Still s (s.modArea a f) where
theorem modController_still (s : State) (a : Nat) (f : Controller → Controller) : Still s (s.modController a f) where
theorem modPort_still (s : State) (p : PortId) (f : Port → Port) : Still s (s.modPort p f) where
theorem latch_still (s : State) (f : StatusFlag) : Still s (s.latch f) where
theorem sendEntry_still (s : State) (p : PortId) (e : OwnEntry) : Still s (s.sendEntry p e) where
theorem send_still (s : State) (p : PortId) (t : Telegram) : Still s (s.send p t) where
theorem report_still (s : State) (r : Report) : Still s (s.report r) where
theorem marked_still (s : State) : Still s s.marked where
theorem beginEvent_still (s : State) : Still s s.beginEvent where
theorem retainArea_still (s : State) (a : Nat) : Still s (s.retainArea a) where
  journal h := h
theorem dropOwed_still (s : State) (x : TickItem) : Still s (s.dropOwed x) where
theorem setDyn_still (s : State) (p : Nat) (d : PointDyn) : Still s (s.setDyn p d) where
theorem countMalformed_still (s : State) (p : PortId) : Still s (s.countMalformed p) := modPort_still ..
theorem forwardFrom_still (s : State) (p : PortId) (t : Telegram) : Still s (s.forwardFrom p t) := modPort_still ..
theorem answer_still (s : State) (f : Frame) (op : Nat) (r : Result) (d : List Rec) : Still s (s.answer f op r d) where

theorem setLatched_still (s : State) (w : Half) : Still s { s with latched := w } where

theorem relatch_still (s : State) : Still s s.relatch := by
  have h := Still.foldl (f := fun acc f => if acc.condition f then acc.latch f else acc)
    (fun s f => .ite (fun _ => latch_still s f) fun _ => .refl s) StatusFlag.all s
  exact h.trans (setLatched_still _ _)

theorem advanceGenerations_still (l : List Nat) (s : State) : Still s (advanceGenerations l s) := by
  rw [advanceGenerations_frame]
  exact { }

/-! ### Consoles -/

theorem modConsole_still (s : State) (a : Nat) {f : Console → Console}
    (hf : ∀ c, c.notices.length ≤ Config.noticeCap → (f c).notices.length ≤ Config.noticeCap) :
    Still s (s.modConsole a f) where
  notices h := by
    unfold State.modConsole
    split
    · next c hc =>
      intro e he
      rcases mem_insertAt he with rfl | he
      · exact hf c (h _ (mem_of_lookup hc))
      · exact h e he
    · exact h

theorem joinNotice_length (horn : Horn) (q : List Notice) (n : Notice) (h : q.length ≤ Config.noticeCap) :
    (joinNotice horn q n).length ≤ Config.noticeCap := by
  unfold joinNotice
  split
  · simpa using h
  · split
    · simpa using ‹_ < _›
    · simp [Config.noticeCap]

theorem take_notices (c : Console) (n : Notice) (h : c.notices.length ≤ Config.noticeCap) :
    (c.take n).notices.length ≤ Config.noticeCap := by
  unfold Console.take
  split
  · exact joinNotice_length _ _ _ h
  · exact h

theorem notify_still (s : State) (a : Nat) (n : Notice) : Still s (s.notify a n) :=
  modConsole_still s a fun c => take_notices c n

theorem notifyEach_still (s : State) (l : List Nat) (n : Notice) : Still s (s.notifyEach l n) :=
  .foldl (fun s a => notify_still s a n) l s

theorem notifyAll_still (s : State) (n : Notice) : Still s (s.notifyAll n) := notifyEach_still ..
theorem notifyArea_still (s : State) (a : Nat) (n : Notice) : Still s (s.notifyArea a n) := notifyEach_still ..
theorem noteAuthority_still (s : State) (a : Nat) : Still s (s.noteAuthority a) := notifyArea_still ..
theorem noteHandover_still (s : State) (c : Nat) (h : Handover) (st : HandoverState) (r : Option AbortReason) :
    Still s (s.noteHandover c h st r) := notify_still ..

theorem noteParties_still (s : State) (h : Handover) (st : HandoverState) (r : Option AbortReason) :
    Still s (s.noteParties h st r) := by
  unfold State.noteParties
  exact .ite (fun _ => noteHandover_still ..) fun _ => (noteHandover_still ..).trans (noteHandover_still ..)

theorem setHorn_still (s : State) (a : Nat) (h : Horn) : Still s (s.setHorn a h) := by
  unfold State.setHorn
  split
  · refine .ite (fun _ => .refl s) fun _ => (modConsole_still s a ?_).trans (notify_still ..)
    exact fun _ hc => hc
  · exact .refl s

theorem hornStep2_still (s : State) (a : Nat) : Still s (s.hornStep2 a) := by
  unfold State.hornStep2
  split
  · exact .ite (fun _ => setHorn_still ..) fun _ => .refl s
  · exact .refl s

theorem hornStep_still (b : State) (cs : List SlotChange) (s : State) (a : Nat) : Still s (hornStep b cs s a) := by
  unfold hornStep
  split
  · exact .ite (fun _ => setHorn_still ..) fun _ => hornStep2_still ..
  · exact .refl s

/-! ### The engine and handing on -/

theorem mapEntry_length (h : Handover) (p : Nat) (f : ReviewEntry → ReviewEntry) :
    (h.mapEntry p f).list.length = h.list.length := by simp [Handover.mapEntry]

theorem resolveEntry_length (p : Nat) (r : Reviewed) : (resolveEntry p r).1.list.length = r.1.list.length := by
  unfold resolveEntry
  split
  · split
    · rfl
    · exact mapEntry_length ..
  · rfl

theorem resetEntry_length (s : State) (p occ : Nat) (r : Reviewed) :
    (resetEntry s p occ r).1.list.length = r.1.list.length := mapEntry_length ..

theorem appendEntry_length (s : State) (p occ : Nat) (r : Reviewed) (h : r.1.list.length ≤ Config.reviewCap) :
    (appendEntry s p occ r).1.list.length ≤ Config.reviewCap := by
  unfold appendEntry
  split
  · simpa using ‹_ < _›
  · exact h

theorem reviewChange_length (s : State) (c : SlotChange) (r : Reviewed) (h : r.1.list.length ≤ Config.reviewCap) :
    (reviewChange s c r).1.list.length ≤ Config.reviewCap := by
  have hresolve : (resolveEntry c.point r).1.list.length ≤ Config.reviewCap := (resolveEntry_length ..).trans_le h
  have hleave : (if s.shelved c.point then r else resolveEntry c.point r).1.list.length ≤ Config.reviewCap := by
    split
    · exact h
    · exact hresolve
  unfold reviewChange
  split
  · split
    · exact (resetEntry_length ..).trans_le h
    · cases c.kind with
      | admission => exact (mapEntry_length ..).trans_le h
      | free | evict | queueLeave => exact hleave
      | discard => exact hresolve
      | _ => exact h
  · split
    · exact appendEntry_length _ _ _ _ h
    · exact h

theorem reviewShelf_length (s : State) (x : ShelfEvent) (r : Reviewed) (h : r.1.list.length ≤ Config.reviewCap) :
    (reviewShelf s x r).1.list.length ≤ Config.reviewCap := by
  cases x with
  | shelved p =>
    unfold reviewShelf
    dsimp only
    split
    · exact (resetEntry_length ..).trans_le h
    · split
      · exact appendEntry_length _ _ _ _ h
      · exact h
  | unshelved p advanced =>
    unfold reviewShelf
    dsimp only
    split
    · split
      · exact (resetEntry_length ..).trans_le h
      · split
        · exact (resolveEntry_length ..).trans_le h
        · exact h
    · exact h

/-- No event makes a review list longer than its capacity (R125, R128). -/
theorem reviewEvent_length (s : State) (cs : List SlotChange) (xs : List ShelfEvent) (h : Handover)
    (hl : h.list.length ≤ Config.reviewCap) : (reviewEvent s cs xs h).1.list.length ≤ Config.reviewCap := by
  have fold {α : Type} (f : Reviewed → α → Reviewed)
      (hf : ∀ r a, r.1.list.length ≤ Config.reviewCap → (f r a).1.list.length ≤ Config.reviewCap) :
      ∀ (l : List α) (r : Reviewed), r.1.list.length ≤ Config.reviewCap →
        (l.foldl f r).1.list.length ≤ Config.reviewCap := by
    intro l
    induction l with
    | nil => exact fun _ hr => hr
    | cons a l ih => exact fun r hr => ih _ (hf r a hr)
  exact fold _ (fun r x => reviewShelf_length s x r) _ _ (fold _ (fun r c => reviewChange_length s c r) _ _ hl)

/-- A record that replaces one of its number takes its place in the table. -/
theorem setRecord_still (s : State) {h : Handover}
    (hl : (∀ g ∈ s.records, g.list.length ≤ Config.reviewCap) → h.list.length ≤ Config.reviewCap) :
    Still s (s.setRecord h) where
  reviews hs := by
    intro g hg
    simp only [State.setRecord_records, List.mem_map] at hg
    obtain ⟨x, hx, rfl⟩ := hg
    split
    · exact hl hs
    · exact hs x hx

/-- The engine's part in one record (R127, R132). -/
def reviewRecord (s : State) (cs : List SlotChange) (xs : List ShelfEvent) (acc : State) (h : Handover) : State :=
  let r := reviewEvent s cs xs h
  let t := acc.setRecord r.1
  if r.2 then t.noteHandover r.1.inConsole r.1 r.1.state none else t

theorem engineEvent_eq (cs : List SlotChange) (xs : List ShelfEvent) (s : State) :
    engineEvent cs xs s = s.records.foldl (reviewRecord s cs xs) s := rfl

/-- Every record of the event is reviewed as it stood before. -/
theorem reviewRecord_still (s : State) (cs : List SlotChange) (xs : List ShelfEvent) (acc : State) {h : Handover}
    (hl : h.list.length ≤ Config.reviewCap) : Still acc (reviewRecord s cs xs acc h) := by
  have hr := setRecord_still acc fun _ => reviewEvent_length s cs xs h hl
  exact .ite (fun _ => hr.trans (noteHandover_still ..)) fun _ => hr

theorem reviewRecord_records_length (s : State) (cs : List SlotChange) (xs : List ShelfEvent) (acc : State)
    (h : Handover) : (reviewRecord s cs xs acc h).records.length = acc.records.length := by
  unfold reviewRecord
  dsimp only
  split <;> simp

theorem reviewRecord_notices (s : State) (cs : List SlotChange) (xs : List ShelfEvent) (acc : State) (h : Handover)
    (hn : ∀ e ∈ acc.consoles, e.2.notices.length ≤ Config.noticeCap) :
    ∀ e ∈ (reviewRecord s cs xs acc h).consoles, e.2.notices.length ≤ Config.noticeCap := by
  unfold reviewRecord
  dsimp only
  split
  · exact (noteHandover_still ..).notices hn
  · exact hn

theorem engineEvent_still (cs : List SlotChange) (xs : List ShelfEvent) (s : State) :
    Still s (engineEvent cs xs s) where
  slots := by rw [engineEvent_frame]
  queue := by rw [engineEvent_frame]
  shelf := by rw [engineEvent_frame]
  points := by rw [engineEvent_frame]
  waits := by rw [engineEvent_frame]
  clamped h := by rw [engineEvent_frame]; exact h
  commands h := by rw [engineEvent_frame]; exact h
  journal h := by rw [engineEvent_frame]; exact h
  records h := by
    rw [engineEvent_eq]
    exact List.foldlRecOn (motive := fun t : State => t.records.length ≤ Config.recordCap) _ _ h
      fun t ht x _ => (reviewRecord_records_length s cs xs t x).trans_le ht
  reviews h := by
    rw [engineEvent_eq]
    exact List.foldlRecOn (motive := fun t : State => ∀ g ∈ t.records, g.list.length ≤ Config.reviewCap) _ _ h
      fun t ht x hx => (reviewRecord_still s cs xs t (h x hx)).reviews ht
  notices h := by
    rw [engineEvent_eq]
    exact List.foldlRecOn (motive := fun t : State => ∀ e ∈ t.consoles, e.2.notices.length ≤ Config.noticeCap) _ _ h
      fun t ht x _ => reviewRecord_notices s cs xs t x ht

theorem queueNewAlarms_still (cs : List SlotChange) (s : State) : Still s (queueNewAlarms cs s) :=
  .foldl (fun _ _ => .ite (fun _ => .refl _) fun _ => notifyArea_still ..) _ s

theorem evaluateHorns_still (b : State) (cs : List SlotChange) (s : State) : Still s (evaluateHorns b cs s) :=
  .foldl (fun s a => hornStep_still b cs s a) _ s

/-- Handing on leaves the alarm table and the shelf as they are. -/
theorem handOn_still (b : State) (e : Ev) (xs : List ShelfEvent) : Still e.s (handOn b e xs) := by
  have h := (advanceGenerations_still (namedAreas e.changes) e.s).trans (engineEvent_still e.changes xs _)
  exact .ite (fun _ => h) fun _ => (h.trans (queueNewAlarms_still ..)).trans (evaluateHorns_still ..)

end Sys2Proof.Machine

namespace Sys2Proof.Machine

/-! ## Tables as lists -/

section
variable {α : Type}

theorem removeAt_of_forall_ne {t : List (Nat × α)} {n : Nat} (h : ∀ e ∈ t, e.1 ≠ n) : removeAt t n = t :=
  List.filter_eq_self.2 fun e he => by simpa using h e he

theorem forall_ne_of_lookup_eq_none {t : List (Nat × α)} {n : Nat} (h : lookup t n = none) : ∀ e ∈ t, e.1 ≠ n := by
  induction t with
  | nil => simp
  | cons x t ih =>
    obtain ⟨k, v⟩ := x
    simp only [lookup] at h
    split at h
    · cases h
    · rintro e (_ | ⟨_, he⟩)
      · assumption
      · exact ih h e he

theorem mem_removeAt {t : List (Nat × α)} {n : Nat} {e : Nat × α} : e ∈ removeAt t n ↔ e ∈ t ∧ e.1 ≠ n := by
  simp [removeAt]

/-- A write puts its entry beside those of the other keys. -/
theorem insertAt_perm {t : List (Nat × α)} (h : risingKeys t = true) (n : Nat) (a : α) :
    (insertAt t n a).Perm ((n, a) :: removeAt t n) := by
  rw [risingKeys_iff] at h
  induction t with
  | nil => exact .refl _
  | cons x t ih =>
    obtain ⟨k, v⟩ := x
    rw [List.pairwise_cons] at h
    obtain ⟨hk, ht⟩ := h
    rcases lt_trichotomy n k with hn | rfl | hn
    · have he : removeAt ((k, v) :: t) n = (k, v) :: t := removeAt_of_forall_ne <| by
        rintro e (_ | ⟨_, he⟩)
        · exact hn.ne'
        · exact (hn.trans (hk e he)).ne'
      simp only [insertAt, if_pos hn, he]
      exact .refl _
    · have he : removeAt t n = t := removeAt_of_forall_ne fun e he => (hk e he).ne'
      have hr : removeAt ((n, v) :: t) n = t := by simpa [removeAt] using he
      simp only [insertAt, lt_irrefl, if_false, if_true, hr]
      exact .refl _
    · have hr : removeAt ((k, v) :: t) n = (k, v) :: removeAt t n := by simp [removeAt, hn.ne]
      simp only [insertAt, if_neg (not_lt.2 hn.le), if_neg hn.ne, hr]
      exact ((ih ht).cons _).trans (.swap ..)

theorem mem_insertAt_iff {t : List (Nat × α)} (h : risingKeys t = true) {n : Nat} {a : α} {e : Nat × α} :
    e ∈ insertAt t n a ↔ e = (n, a) ∨ (e ∈ t ∧ e.1 ≠ n) := by
  rw [(insertAt_perm h n a).mem_iff, List.mem_cons, mem_removeAt]

/-- The entry of a key beside those of the other keys. -/
theorem perm_removeAt {t : List (Nat × α)} (h : risingKeys t = true) {n : Nat} {a : α} (hm : (n, a) ∈ t) :
    t.Perm ((n, a) :: removeAt t n) := by
  have hi : insertAt t n a = t := by
    rw [risingKeys_iff] at h
    induction t with
    | nil => cases hm
    | cons x t ih =>
      obtain ⟨k, v⟩ := x
      rw [List.pairwise_cons] at h
      rcases List.mem_cons.1 hm with hm | hm
      · cases hm; simp [insertAt]
      · have hlt : k < n := h.1 _ hm
        simp only [insertAt, if_neg (not_lt.2 hlt.le), if_neg hlt.ne, ih h.2 hm]
  have hp := insertAt_perm h n a
  rwa [hi] at hp

end

/-! ## Points in slots and in the queue -/

theorem mem_of_slotOf {s : State} {p i : Nat} {sl : Slot} (h : s.slotOf p = some (i, sl)) :
    (i, sl) ∈ s.slots ∧ sl.point = p :=
  ⟨List.mem_of_find?_eq_some h, by simpa using List.find?_some h⟩

theorem forall_ne_of_slotOf {s : State} {p : Nat} (h : s.slotOf p = none) : ∀ e ∈ s.slots, e.2.point ≠ p := by
  simpa [State.slotOf] using h

theorem forall_ne_of_queued {s : State} {p : Nat} (h : s.queued p = false) : ∀ q ∈ s.queue, q.point ≠ p := by
  simpa [State.queued] using h

theorem lowestFree_eq_some {s : State} {i : Nat} (h : s.lowestFree = some i) :
    i < Config.slotCount ∧ lookup s.slots i = none := by
  unfold State.lowestFree at h
  generalize Config.slotCount = n at *
  exact ⟨List.mem_range.1 (List.mem_of_find?_eq_some h), by simpa using List.find?_some h⟩

/-- In a sound table a point's slot is the one it is found in. -/
theorem slotOf_of_mem {s : State} (h : s.AlarmTableSound) {i : Nat} {sl : Slot} (hm : (i, sl) ∈ s.slots) :
    s.slotOf sl.point = some (i, sl) := by
  obtain ⟨-, -, hn, -⟩ := h
  replace hn := (List.nodup_append.1 hn).1
  cases hs : s.slotOf sl.point with
  | none => exact absurd rfl (forall_ne_of_slotOf hs _ hm)
  | some x =>
    obtain ⟨j, x⟩ := x
    obtain ⟨hx, hp⟩ := mem_of_slotOf hs
    rw [List.inj_on_of_nodup_map hn hx hm hp]

/-! ## What a step keeps -/

/-- Point `p` has a slot in ACTIVE_UNACK or RETURNED_UNACK. -/
def Unsettled (p : Nat) (s : State) : Prop := ∃ e ∈ s.slots, e.2.point = p ∧ e.2.state ≠ .activeAcked

/-- What every part of a step keeps, from `s` to `t`: the capacities, the soundness of the alarm table and of its URGENT
alarms, and the slots of the unsettled URGENT points but for those that `ok` lets it settle. -/
structure Evolves (ok : Nat → PointDef → Prop) (s t : State) : Prop where
  capacity  : s.WithinCapacity → t.WithinCapacity
  table     : s.AlarmTableSound → t.AlarmTableSound
  urgent    : s.AlarmTableSound → s.UrgentSound → t.UrgentSound
  unsettled : s.AlarmTableSound → ∀ p, ¬ ok p (s.pointDef p) → (s.pointDef p).priority = .urgent → Unsettled p s →
    t.pointDef p = s.pointDef p ∧ Unsettled p t

section
variable {ok : Nat → PointDef → Prop}

theorem Evolves.refl (s : State) : Evolves ok s s := ⟨id, id, fun _ => id, fun _ _ _ _ h => ⟨rfl, h⟩⟩

theorem Evolves.trans {s t u : State} (h : Evolves ok s t) (k : Evolves ok t u) : Evolves ok s u where
  capacity := k.capacity ∘ h.capacity
  table := k.table ∘ h.table
  urgent hs := k.urgent (h.table hs) ∘ h.urgent hs
  unsettled hs p hok hp hu := by
    obtain ⟨hd, hu'⟩ := h.unsettled hs p hok hp hu
    obtain ⟨hd', hu''⟩ := k.unsettled (h.table hs) p (by rwa [hd]) (by rwa [hd]) hu'
    exact ⟨hd'.trans hd, hu''⟩

theorem Evolves.mono {ok' : Nat → PointDef → Prop} {s t : State} (hok : ∀ p d, ok p d → ok' p d)
    (h : Evolves ok s t) : Evolves ok' s t where
  capacity := h.capacity
  table := h.table
  urgent := h.urgent
  unsettled hs p hn := h.unsettled hs p fun ho => hn (hok _ _ ho)

theorem Evolves.of_still {s t : State} (h : Still s t) : Evolves ok s t where
  capacity := h.capacity
  table hs := by
    obtain ⟨hk, hi, hn, hl, hq⟩ := hs
    refine ⟨h.slots ▸ hk, h.slots ▸ hi, ?_, ?_, ?_⟩
    · rw [h.slots, h.queue]; exact hn
    · simpa only [h.slots, pointDef_congr h.points] using hl
    · simpa only [h.queue, pointDef_congr h.points] using hq
  urgent _ hs := by
    refine ⟨h.clamped hs.tables, ?_, ?_⟩
    · simpa only [h.shelf, pointDef_congr h.points] using hs.shelf
    · simpa only [h.slots, pointDef_congr h.points] using hs.slots
  unsettled _ p _ _ hu := ⟨pointDef_congr h.points p, by unfold Unsettled at *; rwa [h.slots]⟩

theorem Evolves.foldl {α : Type} {f : State → α → State} (h : ∀ s a, Evolves ok s (f s a)) (l : List α) (s : State) :
    Evolves ok s (l.foldl f s) := by
  induction l generalizing s with
  | nil => exact .refl s
  | cons a l ih => exact (h s a).trans (ih _)

theorem Evolves.ite {s t u : State} {p : Prop} [Decidable p] (h : p → Evolves ok s t) (k : ¬ p → Evolves ok s u) :
    Evolves ok s (if p then t else u) := by
  split
  · exact h ‹_›
  · exact k ‹_›

/-- What holds on a sound alarm table is enough beside the capacities. -/
theorem Evolves.of_sound {s t : State} (hc : s.WithinCapacity → t.WithinCapacity)
    (h : s.AlarmTableSound → Evolves ok s t) : Evolves ok s t where
  capacity := hc
  table hs := (h hs).table hs
  urgent hs := (h hs).urgent hs
  unsettled hs := (h hs).unsettled hs

/-- What changes the slots, the queue and the shelf list alone keeps the capacities where it keeps those of the two
lists. -/
theorem withinCapacity_of_lists {s t : State} (hq : s.queue.length ≤ Config.queueCap → t.queue.length ≤ Config.queueCap)
    (hs : s.shelf.length ≤ Config.shelfCap → t.shelf.length ≤ Config.shelfCap) (hc : t.commands = s.commands)
    (hr : t.records = s.records) (hj : t.retained = s.retained) (hn : t.consoles = s.consoles)
    (h : s.WithinCapacity) : t.WithinCapacity := by
  obtain ⟨h1, h2, h3, h4, h5, h6, h7⟩ := h
  exact ⟨hq h1, hs h2, hc ▸ h3, hr ▸ h4, hr ▸ h5, hj ▸ h6, hn ▸ h7⟩

/-! ### One slot -/

/-- A slot takes a new content of its point: settled only where it is not URGENT or `ok` lets it, in RETURNED_UNACK only
where its class is not TRACKING, and shelved or suppressed anew only where its point is not URGENT. -/
structure SlotMoves (ok : Nat → PointDef → Prop) (s : State) (sl new : Slot) : Prop where
  point      : new.point = sl.point
  acked      : new.state = .activeAcked →
    sl.state = .activeAcked ∨ (s.pointDef sl.point).priority ≠ .urgent ∨ ok sl.point (s.pointDef sl.point)
  returned   : new.state = .returnedUnack → sl.state = .returnedUnack ∨ (s.pointDef sl.point).latch ≠ .tracking
  shelved    : new.shelved = true → sl.shelved = true ∨ (s.TablesClamped → (s.pointDef sl.point).priority ≠ .urgent)
  suppressed : new.suppressed = true → sl.suppressed = true ∨ (s.pointDef sl.point).priority ≠ .urgent

theorem setSlot_evolves {s : State} {i : Nat} {sl new : Slot} (hm : (i, sl) ∈ s.slots) (h : SlotMoves ok s sl new) :
    Evolves ok s (s.setSlot i new) where
  capacity := withinCapacity_of_lists id id rfl rfl rfl rfl
  table hs := by
    obtain ⟨hk, hi, hn, hl, hq⟩ := hs
    refine ⟨risingKeys_insertAt hk _ _, ?_, ?_, ?_, hq⟩
    · intro e he
      rcases (mem_insertAt_iff hk).1 he with rfl | ⟨he, -⟩
      · exact hi (i, sl) hm
      · exact hi e he
    · refine (List.Perm.nodup_iff (.append_right _ ?_)).2 hn
      have h1 := (insertAt_perm hk i new).map fun e => e.2.point
      have h2 := (perm_removeAt hk hm).map fun e => e.2.point
      rw [List.map_cons, h.point] at h1
      exact h1.trans h2.symm
    · intro e he
      rcases (mem_insertAt_iff hk).1 he with rfl | ⟨he, -⟩
      · intro hl' hst
        replace hl' : (s.pointDef sl.point).latch = .tracking := h.point ▸ hl'
        rcases h.returned hst with hr | hr
        · exact hl _ hm hl' hr
        · exact hr hl'
      · exact hl e he
  urgent hs hu := by
    refine ⟨hu.tables, hu.shelf, ?_⟩
    intro e he hp
    rcases (mem_insertAt_iff hs.1).1 he with rfl | ⟨he, -⟩
    · replace hp : (s.pointDef sl.point).priority = .urgent := h.point ▸ hp
      obtain ⟨h1, h2⟩ := hu.slots _ hm hp
      refine ⟨Bool.eq_false_iff.2 fun hc => ?_, Bool.eq_false_iff.2 fun hc => ?_⟩
      · exact (h.shelved hc).elim (fun hx => by simp_all) fun hx => hx hu.tables hp
      · exact (h.suppressed hc).elim (fun hx => by simp_all) fun hx => hx hp
    · exact hu.slots e he hp
  unsettled hs p hok hp := by
    rintro ⟨e, he, rfl, hst⟩
    refine ⟨rfl, ?_⟩
    by_cases hi : e.1 = i
    · have hsl : e = (i, sl) := by
        have h1 := lookup_of_mem hs.1 (show (e.1, e.2) ∈ s.slots from he)
        rw [hi, lookup_of_mem hs.1 hm] at h1
        exact Prod.ext hi (Option.some.inj h1).symm
      subst hsl
      refine ⟨(i, new), (mem_insertAt_iff hs.1).2 (.inl rfl), h.point, fun ha => ?_⟩
      exact (h.acked ha).elim hst fun h => h.elim (fun h => h hp) hok
    · exact ⟨e, (mem_insertAt_iff hs.1).2 (.inr ⟨he, hi⟩), rfl, hst⟩

/-- A slot is freed: one in ACTIVE_ACKED, one of a point that is not URGENT, or one that `ok` lets be settled. -/
theorem freeSlot_evolves {s : State} {i : Nat} {sl : Slot} (hm : (i, sl) ∈ s.slots)
    (h : sl.state = .activeAcked ∨ (s.pointDef sl.point).priority ≠ .urgent ∨ ok sl.point (s.pointDef sl.point)) :
    Evolves ok s (s.freeSlot i) where
  capacity := withinCapacity_of_lists id id rfl rfl rfl rfl
  table hs := by
    obtain ⟨hk, hi, hn, hl, hq⟩ := hs
    have hsub : (removeAt s.slots i).Sublist s.slots := List.filter_sublist
    exact ⟨risingKeys_removeAt hk _, fun e he => hi e (hsub.subset he), hn.sublist ((hsub.map _).append (.refl _)),
      fun e he => hl e (hsub.subset he), hq⟩
  urgent _ hu := ⟨hu.tables, hu.shelf, fun e he => hu.slots e (mem_removeAt.1 he).1⟩
  unsettled hs p hok hp := by
    rintro ⟨e, he, rfl, hst⟩
    refine ⟨rfl, e, mem_removeAt.2 ⟨he, fun hi => ?_⟩, rfl, hst⟩
    have h1 := lookup_of_mem hs.1 (show (e.1, e.2) ∈ s.slots from he)
    rw [hi, lookup_of_mem hs.1 hm] at h1
    cases h1
    exact h.elim hst fun h => h.elim (fun h => h hp) hok

/-- A point without a slot and not queued takes a free slot: unsettled, and where it is URGENT neither shelved nor
suppressed but by the shelf list. -/
theorem onset_evolves {s : State} {i p : Nat} {x : Slot} (hi : i < Config.slotCount) (hf : lookup s.slots i = none)
    (hp : s.slotOf p = none) (hq : s.queued p = false) (hx : x.point = p) (hst : x.state = .activeUnack)
    (hsh : x.shelved = s.shelved p) (hsu : x.suppressed = false) : Evolves ok s (s.setSlot i x) where
  capacity := withinCapacity_of_lists id id rfl rfl rfl rfl
  table hs := by
    obtain ⟨hk, hi', hn, hl, hq'⟩ := hs
    have hperm : (insertAt s.slots i x).Perm ((i, x) :: s.slots) := by
      have := insertAt_perm hk i x
      rwa [removeAt_of_forall_ne (forall_ne_of_lookup_eq_none hf)] at this
    refine ⟨risingKeys_insertAt hk _ _, ?_, ?_, ?_, hq'⟩
    · intro e he
      rcases mem_insertAt he with rfl | he
      · exact hi
      · exact hi' e he
    · have := (hperm.map fun e => e.2.point).append_right (s.queue.map fun q => q.point)
      refine this.nodup_iff.2 ?_
      simp only [List.map_cons, List.cons_append, hx]
      refine List.nodup_cons.2 ⟨?_, hn⟩
      simp only [List.mem_append, List.mem_map, not_or, not_exists, not_and]
      exact ⟨fun e he => forall_ne_of_slotOf hp e he, fun q hq'' => forall_ne_of_queued hq q hq''⟩
    · intro e he
      rcases mem_insertAt he with rfl | he
      · intro _; rw [hst]; decide
      · exact hl e he
  urgent hs hu := by
    refine ⟨hu.tables, hu.shelf, ?_⟩
    intro e he hpr
    rcases mem_insertAt he with rfl | he
    · refine ⟨?_, hsu⟩
      rw [hsh]
      rw [Bool.eq_false_iff]
      intro hc
      obtain ⟨y, hy, hyp⟩ := List.any_eq_true.1 hc
      rw [beq_iff_eq] at hyp
      subst hx
      exact hu.shelf y hy (by rw [hyp]; exact hpr)
    · exact hu.slots e he hpr
  unsettled hs p' _ _ := by
    rintro ⟨e, he, rfl, hst'⟩
    exact ⟨rfl, e, (mem_insertAt_iff hs.1).2 (.inr ⟨he, forall_ne_of_lookup_eq_none hf e he⟩), rfl, hst'⟩

/-! ### The admission queue -/

/-- Entries leave the queue, or change in whether they have returned: yes only where their class is not TRACKING. -/
theorem queue_evolves {s : State} {l : List QEntry} (hsub : (l.map (·.point)).Sublist (s.queue.map (·.point)))
    (hret : ∀ q ∈ l, q.returned = true → q ∈ s.queue ∨ (s.pointDef q.point).latch ≠ .tracking) :
    Evolves ok s { s with queue := l } where
  capacity := withinCapacity_of_lists (fun h => by have := hsub.length_le; simp at this; exact this.trans h) id
    rfl rfl rfl rfl
  table hs := by
    obtain ⟨hk, hi, hn, hl, hq⟩ := hs
    refine ⟨hk, hi, hn.sublist ((List.Sublist.refl _).append hsub), hl, fun q hq' ht => ?_⟩
    rw [Bool.eq_false_iff]
    intro hr
    rcases hret q hq' hr with hm | hm
    · exact absurd hr (by rw [hq q hm ht]; decide)
    · exact hm ht
  urgent _ hu := ⟨hu.tables, hu.shelf, hu.slots⟩
  unsettled _ _ _ _ hu := ⟨rfl, hu⟩

/-- A point without a slot and not queued joins the queue. -/
theorem queueJoin_evolves {s : State} {x : QEntry} (hp : s.slotOf x.point = none) (hq : s.queued x.point = false)
    (hr : x.returned = false) (hlen : s.queue.length < Config.queueCap) :
    Evolves ok s { s with queue := s.queue ++ [x] } where
  capacity := withinCapacity_of_lists (fun _ => by simpa using hlen) id rfl rfl rfl rfl
  table hs := by
    obtain ⟨hk, hi, hn, hl, hq'⟩ := hs
    refine ⟨hk, hi, ?_, hl, ?_⟩
    · rw [List.map_append, ← List.append_assoc]
      refine List.nodup_append.2 ⟨hn, List.nodup_singleton _, ?_⟩
      intro y hy z hz
      obtain rfl : z = x.point := by simpa using hz
      rcases List.mem_append.1 hy with hy | hy
      · obtain ⟨e, he, rfl⟩ := List.mem_map.1 hy
        exact forall_ne_of_slotOf hp e he
      · obtain ⟨q, hq'', rfl⟩ := List.mem_map.1 hy
        exact forall_ne_of_queued hq q hq''
    · intro q hmem ht
      rcases List.mem_append.1 hmem with hmem | hmem
      · exact hq' q hmem ht
      · obtain rfl : q = x := by simpa using hmem
        exact hr
  urgent _ hu := ⟨hu.tables, hu.shelf, hu.slots⟩
  unsettled _ _ _ _ hu := ⟨rfl, hu⟩

/-- The head of the queue takes a free slot, unsettled (R20, R21). -/
theorem admit_evolves {s : State} {i : Nat} {q : QEntry} {rest : List QEntry} {x : Slot} (hq : s.queue = q :: rest)
    (hi : i < Config.slotCount) (hf : lookup s.slots i = none) (hx : x.point = q.point)
    (hst : x.state = if q.returned then .returnedUnack else .activeUnack) (hsh : x.shelved = s.shelved q.point)
    (hsu : x.suppressed = true → (s.pointDef q.point).priority ≠ .urgent) :
    Evolves ok s { s with queue := rest, slots := insertAt s.slots i x } where
  capacity := withinCapacity_of_lists (fun h => by rw [hq] at h; simp at h ⊢; omega) id rfl rfl rfl rfl
  table hs := by
    obtain ⟨hk, hi', hn, hl, hq'⟩ := hs
    have hperm : (insertAt s.slots i x).Perm ((i, x) :: s.slots) := by
      have := insertAt_perm hk i x
      rwa [removeAt_of_forall_ne (forall_ne_of_lookup_eq_none hf)] at this
    refine ⟨risingKeys_insertAt hk _ _, ?_, ?_, ?_, fun y hy => hq' y (by rw [hq]; exact List.mem_cons_of_mem _ hy)⟩
    · intro e he
      rcases mem_insertAt he with rfl | he
      · exact hi
      · exact hi' e he
    · refine ((hperm.map fun e => e.2.point).append_right (rest.map fun q => q.point)).nodup_iff.2 ?_
      rw [hq] at hn
      simp only [List.map_cons, List.cons_append, hx] at hn ⊢
      exact List.perm_middle.nodup_iff.1 hn
    · intro e he
      rcases mem_insertAt he with rfl | he
      · intro ht
        have := hq' q (by rw [hq]; exact List.mem_cons_self ..) (by rw [← hx]; exact ht)
        rw [hst, this]; decide
      · exact hl e he
  urgent _ hu := by
    refine ⟨hu.tables, hu.shelf, ?_⟩
    intro e he hpr
    rcases mem_insertAt he with rfl | he
    · replace hpr : (s.pointDef q.point).priority = .urgent := hx ▸ hpr
      refine ⟨?_, Bool.eq_false_iff.2 fun hc => hsu hc hpr⟩
      rw [hsh, Bool.eq_false_iff]
      intro hc
      obtain ⟨y, hy, hyp⟩ := List.any_eq_true.1 hc
      rw [beq_iff_eq] at hyp
      exact hu.shelf y hy (by rw [hyp]; exact hpr)
    · exact hu.slots e he hpr
  unsettled hs p' _ _ := by
    rintro ⟨e, he, rfl, hst'⟩
    exact ⟨rfl, e, (mem_insertAt_iff hs.1).2 (.inr ⟨he, forall_ne_of_lookup_eq_none hf e he⟩), rfl, hst'⟩

/-! ### The shelf list and the definitions -/

/-- The shelf list changes: every entry stands for a point that stood in it, or for one that is not URGENT. -/
theorem shelf_evolves {s : State} {l : List ShelfEntry}
    (hlen : s.shelf.length ≤ Config.shelfCap → l.length ≤ Config.shelfCap)
    (h : ∀ x ∈ l, (∃ y ∈ s.shelf, y.point = x.point) ∨ (s.TablesClamped → (s.pointDef x.point).priority ≠ .urgent)) :
    Evolves ok s { s with shelf := l } where
  capacity := withinCapacity_of_lists id hlen rfl rfl rfl rfl
  table hs := hs
  urgent _ hu := by
    refine ⟨hu.tables, fun x hx => ?_, hu.slots⟩
    rcases h x hx with ⟨y, hy, hp⟩ | hp
    · have := hu.shelf y hy
      rwa [hp] at this
    · exact hp hu.tables
  unsettled _ _ _ _ hu := ⟨rfl, hu⟩

end

end Sys2Proof.Machine

namespace Sys2Proof.Machine

section
variable {ok : Nat → PointDef → Prop}

/-! ## The operations of the alarm table -/

theorem moveSlot_evolves {i : Nat} {sl new : Slot} (k : ChangeKind) (o : Option Origin) {e : Ev}
    (hm : (i, sl) ∈ e.s.slots) (h : SlotMoves ok e.s sl new) : Evolves ok e.s (moveSlot i sl new k o e).s :=
  setSlot_evolves hm h

/-- A move that marks the event's stamp. -/
theorem moveMarked_evolves {i : Nat} {sl new : Slot} (k : ChangeKind) (o : Option Origin) {e : Ev}
    (hm : (i, sl) ∈ e.s.slots) (h : SlotMoves ok e.s sl new) :
    Evolves ok e.s (moveSlot i sl new k o { e with s := e.s.marked }).s :=
  (Evolves.of_still (marked_still e.s)).trans (setSlot_evolves (s := e.s.marked) hm ⟨h.1, h.2, h.3, h.4, h.5⟩)

theorem suppressedAtAdmission_low {s : State} {p : Nat} (h : suppressedAtAdmission s p = true) :
    (s.pointDef p).priority = .low := by
  unfold suppressedAtAdmission at h
  simp only [Bool.and_eq_true, beq_iff_eq] at h
  exact h.1.1

theorem admitHead_capacity {s : State} (i : Nat) (e : Ev) (h : s.WithinCapacity → e.s.WithinCapacity) :
    s.WithinCapacity → (admitHead i e).s.WithinCapacity := by
  cases hq : e.s.queue with
  | nil => rw [admitHead_of_nil hq]; exact h
  | cons q rest =>
    rw [admitHead_of_cons hq]
    refine fun hs => withinCapacity_of_lists (s := e.s) (fun hc => ?_) id rfl rfl rfl rfl (h hs)
    rw [hq, List.length_cons] at hc
    exact (Nat.le_succ _).trans hc

theorem admitHead_evolves {i : Nat} {e : Ev} (hi : i < Config.slotCount) (hf : lookup e.s.slots i = none) :
    Evolves ok e.s (admitHead i e).s := by
  cases hq : e.s.queue with
  | nil => rw [admitHead_of_nil hq]; exact .refl _
  | cons q rest =>
    rw [admitHead_of_cons hq]
    refine (Evolves.of_still (marked_still e.s)).trans
      (admit_evolves (s := e.s.marked) (q := q) (x := admittedSlot e.s q) hq hi hf rfl rfl rfl fun h => ?_)
    have hl : (e.s.pointDef q.point).priority = .low := suppressedAtAdmission_low h
    show (e.s.pointDef q.point).priority ≠ .urgent
    rw [hl]; decide

theorem freeAndAdmit_evolves {i : Nat} {sl : Slot} (k : ChangeKind) (o : Origin) {e : Ev} (hm : (i, sl) ∈ e.s.slots)
    (h : sl.state = .activeAcked ∨ (e.s.pointDef sl.point).priority ≠ .urgent ∨ ok sl.point (e.s.pointDef sl.point)) :
    Evolves ok e.s (freeAndAdmit i sl k o e).s := by
  have hf : Evolves ok e.s (e.s.freeSlot i) := freeSlot_evolves hm h
  refine .of_sound (admitHead_capacity _ _ hf.capacity) fun hs => hf.trans ?_
  exact admitHead_evolves (e := e.push (e.s.freeSlot i) _) (hs.2.1 _ hm) (lookup_removeAt_self ..)

theorem evict_evolves {v : Nat × Slot} (o : Origin) {e : Ev} (hm : v ∈ e.s.slots)
    (h : (e.s.pointDef v.2.point).priority ≠ .urgent) : Evolves ok e.s (evict v o e).s := by
  rw [evict_s]
  exact (freeSlot_evolves (sl := v.2) hm (.inr (.inl h))).trans
    (.of_still (((report_still ..).trans (modArea_still ..)).trans (latch_still ..)))

theorem onsetInto_evolves {i p : Nat} (o : Origin) {e : Ev} (hi : i < Config.slotCount)
    (hf : lookup e.s.slots i = none) (hp : e.s.slotOf p = none) (hq : e.s.queued p = false) :
    Evolves ok e.s (onsetInto i p o e).s :=
  (Evolves.of_still (marked_still e.s)).trans (onset_evolves (s := e.s.marked) hi hf hp hq rfl rfl rfl rfl)

theorem joinQueue_evolves {p : Nat} (o : Origin) {e : Ev} (hp : e.s.slotOf p = none) (hq : e.s.queued p = false) :
    Evolves ok e.s (joinQueue p o e).s := by
  unfold joinQueue
  dsimp only
  split
  · next h =>
    exact (Evolves.of_still (marked_still e.s)).trans
      (queueJoin_evolves (s := e.s.marked) (x := ⟨p, e.s.stamp, false⟩) hp hq rfl h)
  · dsimp only
    exact .of_still (modArea_still ..)

theorem allocate_evolves {p : Nat} (o : Origin) {e : Ev} (hp : e.s.slotOf p = none) (hq : e.s.queued p = false) :
    Evolves ok e.s (allocate p o e).s := by
  cases hf : e.s.lowestFree with
  | some i =>
    rw [allocate_of_free p o hf]
    obtain ⟨hi, hl⟩ := lowestFree_eq_some hf
    exact onsetInto_evolves o hi hl hp hq
  | none =>
    cases hv : victim e.s (e.s.pointDef p).priority with
    | none => rw [allocate_of_full o hf hv]; exact joinQueue_evolves o hp hq
    | some v =>
      rw [allocate_of_victim o hf hv]
      obtain ⟨hm, hc, -⟩ := victim_eq_some hv
      have hu : (e.s.pointDef v.2.point).priority ≠ .urgent := by
        simp only [victimCandidate, Bool.and_eq_true, bne_iff_ne] at hc
        exact hc.1.2
      have he : Evolves ok e.s (evict v o e).s := evict_evolves o hm hu
      have hslots : (evict v o e).s.slots = removeAt e.s.slots v.1 := by rw [evict_s]; simp
      have hqueue : (evict v o e).s.queue = e.s.queue := by rw [evict_s]; simp
      refine .of_sound (fun hs => withinCapacity_of_lists id id rfl rfl rfl rfl (he.capacity hs)) fun hs =>
        he.trans (onsetInto_evolves o (hs.2.1 _ hm) (by rw [hslots]; simp) ?_ ((queued_congr hqueue p).trans hq))
      have hall := forall_ne_of_slotOf hp
      unfold State.slotOf
      rw [hslots, List.find?_eq_none]
      exact fun x hx => by simpa using hall x (mem_removeAt.1 hx).1

/-! ### Reports and acknowledgements -/

theorem SlotMoves.of_overlay {s : State} {sl new : Slot} (hp : new.point = sl.point) (hst : new.state = sl.state)
    (hsh : new.shelved = true → sl.shelved = true) (hsu : new.suppressed = true → sl.suppressed = true) :
    SlotMoves ok s sl new :=
  ⟨hp, fun h => .inl (hst ▸ h), fun h => .inl (hst ▸ h), fun h => .inl (hsh h), fun h => .inl (hsu h)⟩

theorem keptSuppressed_imp {s : State} {sl : Slot} (h : keptSuppressed s sl = true) : sl.suppressed = true := by
  unfold keptSuppressed at h
  exact (Bool.and_eq_true _ _ ▸ h).1

/-- A slot that becomes or stays unsettled, its overlays none the more. -/
theorem SlotMoves.of_active {s : State} {sl new : Slot} (hp : new.point = sl.point) (hst : new.state = .activeUnack)
    (hsh : new.shelved = true → sl.shelved = true) (hsu : new.suppressed = true → sl.suppressed = true) :
    SlotMoves ok s sl new :=
  ⟨hp, fun h => by simp [hst] at h, fun h => by simp [hst] at h, fun h => .inl (hsh h), fun h => .inl (hsu h)⟩

theorem SlotMoves.of_returned {s : State} {sl new : Slot} (hp : new.point = sl.point) (hst : new.state = .returnedUnack)
    (hl : (s.pointDef sl.point).latch ≠ .tracking)
    (hsh : new.shelved = true → sl.shelved = true) (hsu : new.suppressed = true → sl.suppressed = true) :
    SlotMoves ok s sl new :=
  ⟨hp, fun h => by simp [hst] at h, fun _ => .inr hl, fun h => .inl (hsh h), fun h => .inl (hsu h)⟩

theorem reportSlot_evolves (hok : ∀ p d, d.latch = .tracking → ok p d) {i : Nat} {sl : Slot} (active : Bool)
    (o : Origin) {e : Ev} (hm : (i, sl) ∈ e.s.slots) : Evolves ok e.s (reportSlot i sl active o e).s := by
  unfold reportSlot
  dsimp only
  split
  · exact moveMarked_evolves _ _ hm (.of_active rfl rfl id keptSuppressed_imp)
  · exact .refl _
  · exact .refl _
  · next hl _ => exact freeAndAdmit_evolves _ _ hm (.inr (.inr (hok _ _ hl)))
  · next _ hl => exact moveMarked_evolves _ _ hm (.of_returned rfl rfl hl id id)
  · next hst hl => exact freeAndAdmit_evolves _ _ hm (.inl hst)
  · next hst hl => exact moveMarked_evolves _ _ hm (.of_returned rfl rfl (by rw [hl]; decide) id id)

theorem reportQueued_evolves (q : QEntry) (active : Bool) (o : Origin) (e : Ev) :
    Evolves ok e.s (reportQueued q active o e).s := by
  have hset (r : Bool) (hr : r = true → (e.s.pointDef q.point).latch ≠ .tracking) : Evolves ok e.s
      { e.s with queue := e.s.queue.map fun x => if x.point == q.point then { x with returned := r } else x } := by
    refine queue_evolves ?_ ?_
    · rw [List.map_map]
      have hf : ∀ x ∈ e.s.queue, ((·.point) ∘ fun x : QEntry =>
          if x.point == q.point then { x with returned := r } else x) x = x.point := by
        intro x _; dsimp only [Function.comp]; split <;> rfl
      rw [List.map_congr_left hf]
    · intro y hy hret
      obtain ⟨x, hx, rfl⟩ := List.mem_map.1 hy
      by_cases hxq : x.point = q.point
      · simp only [hxq, beq_self_eq_true, if_true] at hret ⊢
        exact .inr (hr hret)
      · simp only [beq_iff_eq, hxq, if_false]
        exact .inl hx
  unfold reportQueued
  dsimp only
  split
  · exact queue_evolves (List.filter_sublist.map _) fun y hy _ => .inl (List.mem_filter.1 hy).1
  · exact .refl _
  · next hl => exact hset true fun _ => hl
  · exact hset false nofun
  · exact .refl _

theorem applyReport_evolves (hok : ∀ p d, d.latch = .tracking → ok p d) (p : Nat) (active : Bool) (o : Origin)
    (e : Ev) : Evolves ok e.s (applyReport p active o e).s := by
  unfold applyReport
  split
  · next i sl h => exact reportSlot_evolves hok active o (mem_of_slotOf h).1
  · next h =>
    split
    · exact reportQueued_evolves ..
    · next hq =>
      split
      · exact allocate_evolves o h (by simpa [State.queued] using hq)
      · exact .refl _

theorem applyAck_evolves {i : Nat} {sl : Slot} (op : Nat) {e : Ev} (hm : (i, sl) ∈ e.s.slots)
    (h : (e.s.pointDef sl.point).priority ≠ .urgent ∨ ok sl.point (e.s.pointDef sl.point)) :
    Evolves ok e.s (applyAck i sl op e).s := by
  unfold applyAck
  split
  · exact moveMarked_evolves _ _ hm ⟨rfl, fun _ => .inr h, nofun, .inl, .inl⟩
  · exact freeAndAdmit_evolves _ _ hm (.inr h)
  · exact .refl _

theorem reannounce_evolves (p : Nat) (e : Ev) : Evolves ok e.s (reannounce p e).s := by
  unfold reannounce
  split
  · exact .refl _
  · next i sl h =>
    dsimp only
    split
    · exact moveMarked_evolves _ _ (mem_of_slotOf h).1 (.of_active rfl rfl nofun keptSuppressed_imp)
    · exact moveSlot_evolves _ _ (mem_of_slotOf h).1 (.of_overlay rfl rfl nofun keptSuppressed_imp)

/-- The state a discard of slot `i` of point `p` leaves, before the head of the queue takes the slot. -/
def State.discarded (s : State) (p i : Nat) (sl : Slot) : State :=
  ((s.freeSlot i).report
    { action := .discarded, point := p, area := (s.pointDef p).area, occ := some sl.occ, stateAfter := some 0 }).modArea
    (s.pointDef p).area fun r => { r with losts := countUp r.losts }

@[simp] theorem discarded_slots (s : State) (p i : Nat) (sl : Slot) :
    (s.discarded p i sl).slots = removeAt s.slots i := by simp [State.discarded]

@[simp] theorem discarded_queue (s : State) (p i : Nat) (sl : Slot) : (s.discarded p i sl).queue = s.queue := by
  simp [State.discarded]

/-- The slot change that a discard of slot `i` hands on. -/
def discardChange (s : State) (p i : Nat) (sl : Slot) : SlotChange where
  kind := .discard
  point := p
  area := (s.pointDef p).area
  slot := some i
  oldState := some sl.state
  oldOcc := some sl.occ
  origin := some .management

theorem discardPoint_of_slot {p i : Nat} {sl : Slot} {e : Ev} (h : e.s.slotOf p = some (i, sl)) :
    discardPoint p e = admitHead i (e.push (e.s.discarded p i sl) (discardChange e.s p i sl)) := by
  unfold discardPoint
  simp only [h]
  rfl

/-- The state a discard of queued point `p` leaves. -/
def State.dequeued (s : State) (p : Nat) : State :=
  ({ s with queue := s.queue.filter fun x => !(x.point == p) }.report
    { action := .discarded, point := p, area := (s.pointDef p).area, stateAfter := some 0 }).modArea
    (s.pointDef p).area fun r => { r with losts := countUp r.losts }

@[simp] theorem dequeued_slots (s : State) (p : Nat) : (s.dequeued p).slots = s.slots := by simp [State.dequeued]

@[simp] theorem dequeued_queue (s : State) (p : Nat) :
    (s.dequeued p).queue = s.queue.filter fun x => !(x.point == p) := by simp [State.dequeued]

theorem discardPoint_of_queued {p : Nat} {e : Ev} (h : e.s.slotOf p = none) (hq : e.s.queued p = true) :
    discardPoint p e = e.push (e.s.dequeued p)
      { kind := .discard, point := p, area := (e.s.pointDef p).area, origin := some .management } := by
  unfold discardPoint
  simp only [h, hq, if_true]
  rfl

theorem discardPoint_of_absent {p : Nat} {e : Ev} (h : e.s.slotOf p = none) (hq : e.s.queued p = false) :
    discardPoint p e = e := by
  simp [discardPoint, h, hq]

theorem discarded_evolves (hok : ∀ p d, ok p d) {s : State} {p i : Nat} {sl : Slot} (hm : (i, sl) ∈ s.slots) :
    Evolves ok s (s.discarded p i sl) :=
  (freeSlot_evolves hm (.inr (.inr (hok _ _)))).trans (.of_still ((report_still ..).trans (modArea_still ..)))

theorem dequeued_evolves (s : State) (p : Nat) : Evolves ok s (s.dequeued p) :=
  (queue_evolves (l := s.queue.filter fun x => !(x.point == p)) (List.filter_sublist.map _)
    fun _ hy _ => .inl (List.mem_filter.1 hy).1).trans (.of_still ((report_still ..).trans (modArea_still ..)))

theorem discardPoint_evolves (hok : ∀ p d, ok p d) (p : Nat) (e : Ev) : Evolves ok e.s (discardPoint p e).s := by
  cases h : e.s.slotOf p with
  | some x =>
    obtain ⟨i, sl⟩ := x
    have hm := (mem_of_slotOf h).1
    have hs : Evolves ok e.s (e.s.discarded p i sl) := discarded_evolves hok hm
    rw [discardPoint_of_slot h]
    exact .of_sound (admitHead_capacity _ _ hs.capacity) fun hsound =>
      hs.trans (admitHead_evolves (e := e.push _ _) (hsound.2.1 _ hm) (by simp [Ev.push]))
  | none =>
    cases hq : e.s.queued p with
    | true => rw [discardPoint_of_queued h hq]; exact dequeued_evolves ..
    | false => rw [discardPoint_of_absent h hq]; exact .refl _

/-- The point is at the alarm table: neither in a slot nor in the queue. -/
def Absent (p : Nat) (s : State) : Prop := s.slotOf p = none ∧ s.queued p = false

theorem absent_iff {p : Nat} {s : State} :
    Absent p s ↔ (∀ e ∈ s.slots, e.2.point ≠ p) ∧ ∀ q ∈ s.queue, q.point ≠ p := by
  simp [Absent, State.slotOf, State.queued]

theorem admitHead_absent {p i : Nat} {e : Ev} (h : Absent p e.s) : Absent p (admitHead i e).s := by
  cases hq : e.s.queue with
  | nil => rwa [admitHead_of_nil hq]
  | cons q rest =>
    rw [admitHead_of_cons hq]
    obtain ⟨hs, hw⟩ := absent_iff.1 h
    rw [hq] at hw
    refine absent_iff.2 ⟨fun x hx => ?_, fun x hx => hw x (List.mem_cons_of_mem _ hx)⟩
    rcases mem_insertAt hx with rfl | hx
    · exact hw q (List.mem_cons_self ..)
    · exact hs x hx

/-- A discarded point has no slot and is not queued any more. -/
theorem discardPoint_absent {p : Nat} {e : Ev} (hs : e.s.AlarmTableSound) : Absent p (discardPoint p e).s := by
  obtain ⟨hk, -, hn, -⟩ := hs
  cases h : e.s.slotOf p with
  | some x =>
    obtain ⟨i, sl⟩ := x
    obtain ⟨hm, rfl⟩ := mem_of_slotOf h
    rw [discardPoint_of_slot h]
    refine admitHead_absent (absent_iff.2 ⟨fun x hx => ?_, fun q hq => ?_⟩)
    · have hp := ((perm_removeAt hk hm).map fun e => e.2.point).nodup_iff.1 (List.nodup_append.1 hn).1
      intro hx'
      exact (List.nodup_cons.1 hp).1 (List.mem_map.2 ⟨x, by simpa [Ev.push] using hx, hx'⟩)
    · have hq : q ∈ e.s.queue := by simpa [Ev.push] using hq
      exact fun hq' => (List.nodup_append.1 hn).2.2 _ (List.mem_map_of_mem hm) _ (List.mem_map_of_mem hq) hq'.symm
  | none =>
    cases hq : e.s.queued p with
    | true =>
      rw [discardPoint_of_queued h hq]
      refine absent_iff.2 ⟨?_, fun x hx => ?_⟩
      · simpa [Ev.push] using forall_ne_of_slotOf h
      · exact (show x ∈ e.s.queue ∧ x.point ≠ p by simpa [Ev.push] using hx).2
    | false => rw [discardPoint_of_absent h hq]; exact ⟨h, hq⟩

/-! ### Overlays -/

theorem mem_insertAt_of_ne {α : Type} {t : List (Nat × α)} {n : Nat} {a : α} {e : Nat × α} (he : e ∈ t) (hn : e.1 ≠ n) :
    e ∈ insertAt t n a := by
  induction t with
  | nil => cases he
  | cons x t ih =>
    obtain ⟨k, v⟩ := x
    simp only [insertAt]
    split
    · exact List.mem_cons_of_mem _ he
    · rcases List.mem_cons.1 he with rfl | he
      · rw [if_neg hn]; exact List.mem_cons_self ..
      · split
        · exact List.mem_cons_of_mem _ he
        · exact List.mem_cons_of_mem _ (ih he)

/-- Slots of an event are rewritten one after another, each found in the table as the event began. -/
theorem foldl_setSlot_evolves {g : Ev → Nat × Slot → Ev} {f : Slot → Slot}
    (hg : ∀ e x, (g e x).s = e.s.setSlot x.1 (f x.2)) (hf : ∀ s sl, SlotMoves ok s sl (f sl)) (q : Nat × Slot → Bool)
    (e : Ev) : Evolves ok e.s ((e.s.slots.filter q).foldl g e).s := by
  refine .of_sound ?_ fun hs => ?_
  · intro hc
    exact List.foldlRecOn (motive := fun e : Ev => e.s.WithinCapacity) _ _ hc fun e' he x _ => by rw [hg]; exact he
  · have hl : (e.s.slots.filter q).Pairwise fun a b => a.1 < b.1 := ((risingKeys_iff _).1 hs.1).filter _
    have hm : ∀ x ∈ e.s.slots.filter q, x ∈ e.s.slots := fun x hx => (List.mem_filter.1 hx).1
    revert hl hm
    generalize e.s.slots.filter q = l
    clear hs
    induction l generalizing e with
    | nil => exact fun _ _ => .refl _
    | cons x l ih =>
      intro hl hm
      rw [List.pairwise_cons] at hl
      have hstep : Evolves ok e.s (g e x).s := by
        rw [hg]
        exact setSlot_evolves (hm x (List.mem_cons_self ..)) (hf _ _)
      refine hstep.trans (ih _ hl.2 fun y hy => ?_)
      rw [hg]
      exact mem_insertAt_of_ne (hm y (List.mem_cons_of_mem _ hy)) (hl.1 y hy).ne'

theorem overlayEach_evolves (q : Slot → Bool) {f : Slot → Slot} (hf : ∀ s sl, SlotMoves ok s sl (f sl)) (e : Ev) :
    Evolves ok e.s (overlayEach q f e).s := foldl_setSlot_evolves (fun _ _ => rfl) hf _ e

theorem clearStale_evolves (address : Nat) (e : Ev) : Evolves ok e.s (clearStale address e).s := by
  refine foldl_setSlot_evolves (f := fun sl => { sl with stale := false }) (fun e x => ?_)
    (fun _ _ => .of_overlay rfl rfl id id) _ e
  dsimp only
  split <;> rfl

theorem markHeld_evolves (p : Nat) (e : Ev) : Evolves ok e.s (markHeld p e).s := by
  unfold markHeld
  split
  · next i sl h =>
    have hm := (mem_of_slotOf h).1
    have hset : Evolves ok e.s (e.s.setSlot i { sl with chatter := true }) :=
      setSlot_evolves hm (.of_overlay rfl rfl id id)
    split
    · exact .refl _
    · dsimp only
      split
      · exact hset
      · exact hset
  · exact .refl _

theorem clearChatter_evolves (p : Nat) (s : State) : Evolves ok s (clearChatter p { s := s }).s := by
  rcases clearChatter_cases p s with ⟨i, sl, h, -, he⟩ | ⟨-, he⟩ <;> rw [he]
  · exact setSlot_evolves (mem_of_slotOf h).1 (.of_overlay rfl rfl id id)
  · exact .refl _

theorem markShelved_evolves {p : Nat} {e : Ev} (h : e.s.TablesClamped → (e.s.pointDef p).priority ≠ .urgent) :
    Evolves ok e.s (markShelved p e).s := by
  unfold markShelved
  split
  · next i sl hs =>
    obtain ⟨hm, hp⟩ := mem_of_slotOf hs
    split
    · exact .refl _
    · exact moveSlot_evolves _ _ hm ⟨rfl, .inl, .inl, fun _ => .inr (hp ▸ h), .inl⟩
  · exact .refl _

end

end Sys2Proof.Machine

namespace Sys2Proof.Machine

section
variable {ok : Nat → PointDef → Prop}

/-! ## The load stage -/

theorem enterFlood_still (s : State) (a : Nat) : Still s (s.enterFlood a) :=
  ((modArea_still ..).trans (notifyArea_still ..)).trans (latch_still ..)

theorem addLoad_still (s : State) (a w : Nat) : Still s (s.addLoad a w) := by
  unfold State.addLoad
  dsimp only
  split
  · exact (modArea_still ..).trans (enterFlood_still ..)
  · exact modArea_still ..

theorem suppresses_low {s : State} {c : SlotChange} (h : suppresses s c = true) :
    (s.pointDef c.point).priority = .low := by
  simp only [suppresses, Bool.and_eq_true, beq_iff_eq] at h
  exact h.1.1.2

theorem loadOne_evolves (e : Ev) (c : SlotChange) : Evolves ok e.s (loadOne e c).s := by
  unfold loadOne
  split
  · refine (Evolves.of_still (addLoad_still e.s c.area (e.s.pointDef c.point).priority.weight)).trans ?_
    generalize e.s.addLoad c.area (e.s.pointDef c.point).priority.weight = s
    dsimp only [Ev.push]
    split
    · next h =>
      split
      · next i sl hs =>
        obtain ⟨hm, hp⟩ := mem_of_slotOf hs
        refine setSlot_evolves hm ⟨rfl, .inl, .inl, .inl, fun _ => .inr ?_⟩
        rw [hp, suppresses_low h]
        decide
      · exact .refl s
    · exact .refl s
  · exact .refl _

theorem loadStage_evolves (e : Ev) : Evolves ok e.s (loadStage e).s := by
  unfold loadStage
  suffices h : ∀ (l : List SlotChange) (x : Ev), Evolves ok x.s (l.foldl loadOne x).s from h e.changes { s := e.s }
  intro l
  induction l with
  | nil => exact fun x => .refl x.s
  | cons c l ih => exact fun x => (loadOne_evolves x c).trans (ih _)

/-! ## Shelf entries that leave -/

theorem removeShelf_evolves (s : State) (p : Nat) : Evolves ok s { s with shelf := removeShelf p s.shelf } :=
  shelf_evolves (fun h => (List.length_filter_le _ _).trans h) fun x hx => .inl ⟨x, (List.mem_filter.1 hx).1, rfl⟩

theorem unshelveEv_evolves (p : Nat) (act : Action) (who : Option Actor) (e : Ev) :
    Evolves ok e.s (unshelveEv p act who e).1.s :=
  (((removeShelf_evolves e.s p).trans (reannounce_evolves p { s := { e.s with shelf := removeShelf p e.s.shelf } })).trans (loadStage_evolves _)).trans
    (.of_still (report_still ..))

theorem unshelveEvent_evolves (p : Nat) (act : Action) (who : Option Actor) (s : State) :
    Evolves ok s (unshelveEvent p act who s) :=
  (unshelveEv_evolves p act who { s := s }).trans (.of_still (handOn_still ..))

/-! ## Areas, the journal and the records that end -/

theorem writeJournal_still (s : State) (e : JournalEntry) : Still s (s.writeJournal e) where
  journal _ := by
    simp only [State.writeJournal, List.length_drop]
    omega

theorem holdArea_still (s : State) (a : Nat) (h : Holder) : Still s (s.holdArea a h) :=
  ((modArea_still ..).trans (retainArea_still ..)).trans (noteAuthority_still ..)

theorem enterGrace_still (s : State) (a : Nat) : Still s (s.enterGrace a) :=
  ((modArea_still ..).trans (noteAuthority_still ..)).trans (dropOwed_still ..)

theorem orphanArea_still (s : State) (a : Nat) : Still s (s.orphanArea a) :=
  (modArea_still ..).trans (noteAuthority_still ..)

theorem graceSeat_still (s : State) (h : Holder) : Still s (s.graceSeat h) :=
  .foldl (fun s a => .ite (fun _ => enterGrace_still s a) fun _ => .refl s) _ s

theorem orphanOperator_still (s : State) (op : Nat) : Still s (s.orphanOperator op) := by
  have h := Still.foldl orphanArea_still
  unfold State.orphanOperator
  dsimp only
  split
  · exact h _ s
  · exact (h _ s).trans (writeJournal_still ..)

theorem dropRecord_still (s : State) (n : Nat) : Still s (s.dropRecord n) where
  records h := (List.length_filter_le _ _).trans h
  reviews h x hx := h x (List.mem_filter.1 hx).1
  journal h := h

theorem closeAreas_still (s : State) (l : List Nat) : Still s (s.closeAreas l) :=
  .foldl (fun s a => modArea_still s a _) l s

theorem abort_still (s : State) (h : Handover) (r : AbortReason) : Still s (s.abort h r) :=
  (((closeAreas_still ..).trans (dropRecord_still ..)).trans (writeJournal_still ..)).trans (noteParties_still ..)

theorem abortIncoming_still (s : State) (op : Nat) : Still s (s.abortIncoming op) :=
  .foldl (fun s h => .ite (fun _ => abort_still s h _) fun _ => .refl s) _ s

theorem abortRemoved_still (s : State) (op : Nat) : Still s (s.abortRemoved op) :=
  .foldl (fun s h => .ite (fun _ => abort_still s h _) fun _ =>
    .ite (fun _ => abort_still s h _) fun _ => .refl s) _ s

theorem completeArea_still (h : Handover) (t : Stamp) (s : State) (a : Nat) : Still s (completeArea h t s a) :=
  (modArea_still ..).trans (holdArea_still ..)

theorem complete_still (s : State) (h : Handover) : Still s (s.complete h) :=
  ((((marked_still s).trans (.foldl (completeArea_still h s.stamp) h.areas _)).trans (dropRecord_still ..)).trans
    (writeJournal_still ..)).trans (noteParties_still ..)

theorem takeArea_still (s : State) (a : Nat) (h : Holder) (k : JournalKind) : Still s (s.takeArea a h k) :=
  ((modArea_still ..).trans (holdArea_still ..)).trans (writeJournal_still ..)

theorem forceUnheld_still (s : State) (a : Nat) : Still s (s.forceUnheld a) :=
  (((modArea_still ..).trans (retainArea_still ..)).trans (noteAuthority_still ..)).trans (writeJournal_still ..)

end

end Sys2Proof.Machine

namespace Sys2Proof.Machine

/-! ## Consoles, the gate and supervision: what leaves the alarm table as it is -/

theorem endAuthority_still (address seat op : Nat) (cause : EndCause) (s : State) :
    Still s (endAuthority address seat op cause s) := by
  cases cause with
  | detach | rehello | removed => exact graceSeat_still ..
  | roster => exact orphanOperator_still ..
  | logout | move => exact .refl s

theorem endHandovers_still (op : Nat) (cause : EndCause) (s : State) : Still s (endHandovers op cause s) := by
  cases cause with
  | roster => exact abortRemoved_still ..
  | _ => exact abortIncoming_still ..

theorem setSeat_notices (c : Console) (n : Nat) (op : Option Nat) : (c.setSeat n op).notices = c.notices := by
  unfold Console.setSeat
  split
  · rfl
  · split <;> rfl

theorem setSeat_still (s : State) (a n : Nat) (op : Option Nat) : Still s (s.modConsole a fun c => c.setSeat n op) :=
  modConsole_still s a fun c h => by rwa [setSeat_notices]

theorem endSession_still (a n : Nat) (cause : EndCause) (s : State) : Still s (endSession a n cause s) := by
  unfold endSession
  split
  · exact .refl s
  · refine ((((setSeat_still ..).trans (modConsole_still _ _ fun c h => ?_)).trans (endAuthority_still ..)).trans
      (endHandovers_still ..)).trans (hornStep2_still ..)
    split <;> exact h

theorem detachConsole_still (cause : EndCause) (a : Nat) (s : State) : Still s (detachConsole cause a s) := by
  unfold detachConsole
  split
  · refine .ite (fun _ => ?_) fun _ => .refl s
    exact ((endSession_still ..).trans (endSession_still ..)).trans (modConsole_still _ _ fun _ _ => Nat.zero_le _)
  · exact .refl s

theorem silentAttach_still (a : Nat) (s : State) : Still s (silentAttach a s) :=
  modConsole_still s a fun c h => by
    split
    · exact h
    · exact Nat.zero_le _

theorem countRequest_notices (c : Console) (n : Nat) : (c.countRequest n).1.notices = c.notices := by
  unfold Console.countRequest
  split
  · rfl
  · split <;> rfl

theorem endCommand_still (r : Result) (detail : List Byte) (s : State) (c : Command) :
    Still s (endCommand r detail s c) := by
  have h : Still s { s with commands := s.commands.filter fun x => !(x.tag == c.tag) } :=
    { commands := fun h => (List.length_filter_le _ _).trans h }
  exact .ite (fun _ => h.trans (send_still ..)) fun _ => h

theorem endCommandsTo_still (a : Nat) (s : State) : Still s (endCommandsTo a s) :=
  .foldl (endCommand_still .linkLost []) _ s

theorem endAtLimit_still (s : State) (c : Command) : Still s (endAtLimit s c) :=
  ((endCommand_still ..).trans (modController_still ..)).trans (latch_still ..)

theorem setFaultLatch_still (a : Nat) (s : State) : Still s (setFaultLatch a s) := by
  unfold setFaultLatch
  split
  · exact .ite (fun _ => .refl s) fun _ =>
      ((modController_still ..).trans (notifyAll_still ..)).trans (latch_still ..)
  · exact .refl s

theorem clearFaultLatch_still (a : Nat) (s : State) : Still s (clearFaultLatch a s) :=
  (modController_still ..).trans (notifyAll_still ..)

/-- A command is forwarded where the table has room for it (R149). -/
theorem forwardCommand_still (q : Requester) (f : Frame) (p : Nat) {s : State}
    (h : s.commands.length < Config.commandCap) : Still s (forwardCommand q f p s) :=
  (show Still s { s with tagCounter := nextTag s, commands := s.commands ++ [_] } from
    { commands := fun _ => by simpa using h }).trans (send_still ..)

theorem sendSreq_still (a : Nat) (s : State) : Still s (sendSreq a s) := by
  unfold sendSreq
  split
  · exact send_still ..
  · exact .refl s

theorem startResync_still (a : Nat) (s : State) : Still s (startResync a s) :=
  (modController_still ..).trans (sendSreq_still ..)

theorem resyncExpired_still (a : Nat) (s : State) : Still s (resyncExpired a s) := by
  unfold resyncExpired
  split
  · exact .refl s
  · exact .ite (fun _ => (modController_still ..).trans (sendSreq_still ..)) fun _ => modController_still ..

theorem followReport_still (a p : Nat) (c : Condition) (s : State) : Still s (followReport a p c s) :=
  modController_still ..

theorem snapFirst_still (a : Nat) (s : State) : Still s (snapFirst a s) := modController_still ..

theorem addSnapPoint_still (a : Nat) (data : List Byte) (s : State) : Still s (addSnapPoint a data s) :=
  .ite (fun _ => modController_still ..) fun _ => .refl s

theorem liveness_still (p : PortId) (source : Nat) (s : State) : Still s (liveness p source s).1 := by
  cases p with
  | plant =>
    unfold liveness
    dsimp only
    split
    · split
      · exact (modController_still ..).trans (startResync_still ..)
      · exact modController_still ..
    · exact .refl s
  | console => exact modConsole_still s source fun _ h => h

section
variable {ok : Nat → PointDef → Prop}

/-! ## Reports, snapshots and STALE -/

theorem Evolves.handOn {s : State} {e : Ev} (b : State) (xs : List ShelfEvent) (h : Evolves ok s e.s) :
    Evolves ok s (handOn b e xs) := h.trans (.of_still (handOn_still b e xs))

theorem Evolves.loadStage {s t : State} (l : List SlotChange) (h : Evolves ok s t) :
    Evolves ok s (loadStage { s := t, changes := l }).s := h.trans (loadStage_evolves { s := t, changes := l })

theorem applyReport_evolves_of {s t : State} (h : Still s t) (hok : ∀ p d, d.latch = .tracking → ok p d) (p : Nat)
    (active : Bool) (o : Origin) (l : List SlotChange) :
    Evolves ok s (applyReport p active o { s := t, changes := l }).s :=
  (Evolves.of_still h).trans (applyReport_evolves hok p active o { s := t, changes := l })

/-- The AREP CHATTER_HOLD of a record that starts a hold (R51, R63). -/
def holdReport (p : Nat) (active : Bool) (s : State) : Report where
  action := .chatterHold
  point := p
  area := (s.pointDef p).area
  occ := ((applyReport p active .report { s := s }).s.slotOf p).map (·.2.occ)

/-- Stages 1 and 2 of R27: the point's dynamic state and the alarm table, with the chatter hold of R51. -/
def reportStages (p : Nat) (c : Condition) (b : State) : Ev :=
  let r := reportStage1 (b.pointDef p) (b.dynOf p) c
  let s1 := b.setDyn p r.1
  let e := applyReport p (c == .active) .report { s := if r.2.2 then s1.report (holdReport p (c == .active) s1) else s1 }
  if r.2.2 then markHeld p e else e

/-- The slot changes of a record tell the load monitor what stage 1 found (R44, R51). -/
def reportFacts (p : Nat) (r : PointDyn × Bool × Bool) (x : SlotChange) : SlotChange :=
  { x with condChanged := r.2.1, startedHold := r.2.2 && x.point == p }

theorem reportEvent_eq (p : Nat) (c : Condition) (s : State) :
    reportEvent p c s =
      handOn s.beginEvent
        (loadStage
          { s := (reportStages p c s.beginEvent).s
            changes := (reportStages p c s.beginEvent).changes.map
              (reportFacts p (reportStage1 (s.beginEvent.pointDef p) (s.beginEvent.dynOf p) c)) }) [] := rfl

theorem reportStages_evolves (hok : ∀ p d, d.latch = .tracking → ok p d) (p : Nat) (c : Condition) (b : State) :
    Evolves ok b (reportStages p c b).s := by
  unfold reportStages
  dsimp only
  generalize reportStage1 (b.pointDef p) (b.dynOf p) c = r
  have h1 : Still b (b.setDyn p r.1) := setDyn_still ..
  generalize b.setDyn p r.1 = s1 at h1 ⊢
  have h2 : Still b (if r.2.2 then s1.report (holdReport p (c == .active) s1) else s1) :=
    .ite (fun _ => h1.trans (report_still ..)) fun _ => h1
  have h3 := applyReport_evolves_of h2 hok p (c == .active) .report []
  generalize applyReport p (c == .active) .report { s := _ } = e at h3 ⊢
  cases r.2.2 with
  | true => exact h3.trans (markHeld_evolves p e)
  | false => exact h3

theorem reportEvent_evolves (hok : ∀ p d, d.latch = .tracking → ok p d) (p : Nat) (c : Condition) (s : State) :
    Evolves ok s (reportEvent p c s) := by
  rw [reportEvent_eq]
  have h : Evolves ok s (reportStages p c s.beginEvent).s :=
    (Evolves.of_still (beginEvent_still s)).trans (reportStages_evolves hok p c _)
  exact .handOn _ _ (.loadStage _ h)

theorem applyPrep_evolves (hok : ∀ p d, d.latch = .tracking → ok p d) (a : Nat) (l : List Rec) (s : State) :
    Evolves ok s (applyPrep a l s) := by
  induction l generalizing s with
  | nil => exact .refl s
  | cons r l ih =>
    unfold applyPrep
    refine .ite (fun _ => ih s) fun _ => .ite (fun _ => .refl s) fun _ => ?_
    dsimp only
    split
    · exact .ite (fun _ => ((reportEvent_evolves hok ..).trans (.of_still (followReport_still ..))).trans (ih _))
        fun _ => ih s
    · exact ih s

theorem snapshotAbsent_evolves (hok : ∀ p d, d.latch = .tracking → ok p d) (e : Ev) (p : Nat) :
    Evolves ok e.s (snapshotAbsent e p).s :=
  applyReport_evolves_of (setDyn_still ..) hok p false .snapshot e.changes

theorem snapshotPresent_evolves (hok : ∀ p d, d.latch = .tracking → ok p d) (e : Ev) (p : Nat) :
    Evolves ok e.s (snapshotPresent e p).s :=
  applyReport_evolves_of (setDyn_still ..) hok p true .snapshot e.changes

theorem Evolves.foldl_ev {α : Type} {f : Ev → α → Ev} (h : ∀ e a, Evolves ok e.s (f e a).s) (l : List α) (e : Ev) :
    Evolves ok e.s (l.foldl f e).s := by
  induction l generalizing e with
  | nil => exact .refl e.s
  | cons a l ih => exact (h e a).trans (ih _)

theorem applySnapshot_evolves (hok : ∀ p d, d.latch = .tracking → ok p d) (a : Nat) (s : State) :
    Evolves ok s (applySnapshot a s) := by
  unfold applySnapshot
  dsimp only
  split
  · exact .of_still (beginEvent_still s)
  · next c _ =>
    have h1 (l : List Nat) := Evolves.foldl_ev (snapshotAbsent_evolves hok) l { s := s.beginEvent }
    have h2 (e : Ev) := Evolves.foldl_ev (snapshotPresent_evolves hok) c.snapSet e
    exact ((((((Evolves.of_still (beginEvent_still s)).trans (h1 _)).trans (h2 _)).trans
      (.of_still (modController_still ..))).trans (clearStale_evolves a { s := _, changes := _ })).trans
      (.of_still (notifyAll_still ..))).trans (.of_still (handOn_still _ { s := _, changes := _ } _))

theorem applyPsnap_evolves (hok : ∀ p d, d.latch = .tracking → ok p d) (a : Nat) (l : List Rec) (s : State) :
    Evolves ok s (applyPsnap a l s) := by
  induction l generalizing s with
  | nil => exact .refl s
  | cons r l ih =>
    have hadd (s : State) : Evolves ok s (addSnapPoint a r.data s) := .of_still (addSnapPoint_still ..)
    have hfirst : Evolves ok s (addSnapPoint a r.data (snapFirst a s)) :=
      (Evolves.of_still (snapFirst_still a s)).trans (hadd _)
    unfold applyPsnap
    refine .ite (fun _ => ih s) fun _ => .ite (fun _ => .refl s) fun _ => ?_
    dsimp only
    split
    · exact (Evolves.ite (fun _ => hadd s) fun _ => .refl s).trans (ih _)
    · exact hfirst.trans (ih _)
    · exact .ite (fun _ => (hadd s).trans (applySnapshot_evolves hok ..)) fun _ => ih s
    · exact hfirst.trans (applySnapshot_evolves hok ..)
    · exact ih s

theorem staleEv_evolves (a : Nat) (e : Ev) : Evolves ok e.s (staleEv a e).s := by
  unfold staleEv
  dsimp only
  have h1 : Evolves ok e.s (e.s.modController a Controller.stale) := .of_still (modController_still ..)
  have h2 (q : Slot → Bool) := overlayEach_evolves (ok := ok) q (f := fun sl => { sl with stale := true })
    (fun _ _ => .of_overlay rfl rfl id id) { e with s := e.s.modController a Controller.stale }
  exact (h1.trans (h2 _)).trans
    (.of_still (((endCommandsTo_still ..).trans (notifyAll_still ..)).trans (latch_still ..)))

theorem becomeStale_evolves (a : Nat) (s : State) : Evolves ok s (becomeStale a s) :=
  (staleEv_evolves a { s := s }).trans (.of_still (handOn_still ..))

end

end Sys2Proof.Machine

namespace Sys2Proof.Machine

section
variable {ok : Nat → PointDef → Prop}

/-! ## A point rewritten -/

theorem mem_writeAt {α : Type} [DecidableEq α] {d : α} {t : List (Nat × α)} {n : Nat} {a : α} {e : Nat × α}
    (h : e ∈ writeAt d t n a) : e = (n, a) ∨ e ∈ t := by
  unfold writeAt at h
  split at h
  · exact .inr (mem_removeAt.1 h).1
  · exact mem_insertAt h

/-- No definition that allows an URGENT point to be shelved or suppressed (R3). -/
def PointDef.Clamped (d : PointDef) : Prop := d.priority = .urgent → d.shelveLimit = 0 ∧ d.suppressible = false

theorem clampPoint_clamped (d : PointDef) : (clampPoint d).Clamped := by
  intro h
  have hu : d.priority = .urgent := h
  simp [clampPoint, hu]

/-- The state with point `p` defined as `d`, its shelf list `l`. -/
def State.defined (s : State) (p : Nat) (d : PointDef) (l : List ShelfEntry) : State :=
  { s with tables := { s.tables with points := writeAt {} s.tables.points p d }, shelf := l }

theorem pointDef_defined (s : State) (p q : Nat) (d : PointDef) (l : List ShelfEntry) :
    (s.defined p d l).pointDef q = if q = p then d else s.pointDef q := getD_writeAt ..

/-- A point that is at no place of the alarm table is defined anew, and its shelf entry leaves where it became URGENT. -/
theorem defined_evolves {s : State} {p : Nat} {d : PointDef} {l : List ShelfEntry} (hp : s.AlarmTableSound → Absent p s)
    (hd : d.Clamped) (hl : l.Sublist s.shelf) (hu : d.priority = .urgent → ∀ x ∈ l, x.point ≠ p) :
    Evolves ok s (s.defined p d l) := by
  refine .of_sound (withinCapacity_of_lists id (hl.length_le.trans ·) rfl rfl rfl rfl) fun hs => ?_
  obtain ⟨hslots, hqueue⟩ := absent_iff.1 (hp hs)
  have hdef {q : Nat} (hq : q ≠ p) : (s.defined p d l).pointDef q = s.pointDef q := by
    rw [pointDef_defined, if_neg hq]
  refine ⟨withinCapacity_of_lists id (hl.length_le.trans ·) rfl rfl rfl rfl, fun hs => ?_, fun _ hu' => ?_, ?_⟩
  · obtain ⟨hk, hi, hn, ht, hw⟩ := hs
    refine ⟨hk, hi, hn, fun e he => ?_, fun q hq => ?_⟩
    · rw [hdef (hslots e he)]; exact ht e he
    · rw [hdef (hqueue q hq)]; exact hw q hq
  · obtain ⟨htables, hmemory, hstore⟩ := hu'.tables
    refine ⟨⟨fun e he => ?_, hmemory, hstore⟩, fun x hx hpr => ?_, fun e he => ?_⟩
    · rcases mem_writeAt he with rfl | he
      · exact hd
      · exact htables e he
    · by_cases hxp : x.point = p
      · rw [hxp, pointDef_defined, if_pos rfl] at hpr
        exact hu hpr x hx hxp
      · exact hu'.shelf x (hl.subset hx) (hdef hxp ▸ hpr)
    · rw [hdef (hslots e he)]; exact hu'.slots e he
  · rintro _ q _ _ ⟨e, he, rfl, hst⟩
    exact ⟨hdef (hslots e he), e, he, rfl, hst⟩

theorem unshelveEv_evolves_left (p : Nat) (act : Action) (who : Option Actor) (e : Ev) :
    Evolves ok { e.s with shelf := removeShelf p e.s.shelf } (unshelveEv p act who e).1.s :=
  ((reannounce_evolves p { s := { e.s with shelf := removeShelf p e.s.shelf } }).trans (loadStage_evolves _)).trans
    (.of_still (report_still ..))

theorem rewritePoint_evolves (hok : ∀ p d, ok p d) (p : Nat) {d : PointDef} (hd : d.Clamped) (s : State) :
    Evolves ok s (rewritePoint p d s) := by
  have h1 : Evolves ok s (discardPoint p { s := s }).s := discardPoint_evolves hok p { s := s }
  have habs : s.AlarmTableSound → Absent p (discardPoint p { s := s }).s := discardPoint_absent (e := { s := s })
  unfold rewritePoint
  dsimp only
  generalize discardPoint p { s := s } = e at h1 habs ⊢
  have h2 : Evolves ok s (e.s.setDyn p { e.s.dynOf p with score := 0, held := false }) :=
    h1.trans (.of_still (setDyn_still ..))
  generalize hs2 : e.s.setDyn p { e.s.dynOf p with score := 0, held := false } = s2 at h2 ⊢
  have habs2 : s.AlarmTableSound → Absent p s2 := hs2 ▸ habs
  have hdefine (l : List ShelfEntry) (hl : l.Sublist s2.shelf) (hu : d.priority = .urgent → ∀ x ∈ l, x.point ≠ p) :
      Evolves ok s (s2.defined p d l) := by
    refine .of_sound (fun hc => ?_) fun hs => h2.trans (defined_evolves (fun _ => habs2 hs) hd hl hu)
    exact withinCapacity_of_lists (s := s2) id (hl.length_le.trans ·) rfl rfl rfl rfl (h2.capacity hc)
  split
  · exact .handOn _ _ ((hdefine (removeShelf p s2.shelf) List.filter_sublist
      fun _ x hx => by simpa using (List.mem_filter.1 hx).2).trans
      (unshelveEv_evolves_left p .unshelve none
        { e with s := { s2 with tables := { s2.tables with points := writeAt {} s2.tables.points p d } } }))
  · next hends =>
    refine .handOn _ _ (hdefine s2.shelf (List.Sublist.refl _) fun hu x hx hxp => hends ?_)
    have hsh : s2.shelved p = true := List.any_eq_true.2 ⟨x, hx, by simpa using hxp⟩
    exact Bool.and_eq_true_iff.2 ⟨hsh, by simp [endsShelving, hu]⟩

end

end Sys2Proof.Machine

namespace Sys2Proof.Machine

/-! ## The operations of an MREQ -/

theorem setRoster_still (s : State) (l : List (Nat × Operator)) : Still s (s.setRoster l) where

theorem removeOperator_still (op : Nat) (s : State) : Still s (removeOperator op s) := by
  unfold removeOperator
  split
  · exact endSession_still ..
  · exact (endAuthority_still ..).trans (endHandovers_still ..)

theorem rehornOperator_still (op : Nat) (s : State) : Still s (rehornOperator op s) := by
  unfold rehornOperator
  split
  · exact hornStep2_still ..
  · exact .refl s

theorem afterRoster_still (old : Option Operator) (new : Operator) (s : State) : Still s (afterRoster old new s) := by
  unfold afterRoster
  split
  · exact .refl s
  · have h (p : Prop) [Decidable p] (op : Nat) : Still s (if p then removeOperator op s else s) :=
      .ite (fun _ => removeOperator_still ..) fun _ => .refl s
    exact .ite (fun _ => (h ..).trans (rehornOperator_still ..)) fun _ => h ..

theorem consoles_still {s : State} {l : List (Nat × Console)} (h : ∀ e ∈ l, e ∈ s.consoles ∨ e.2.notices = []) :
    Still s { s with consoles := l } where
  notices hs _ he := (h _ he).elim (hs _) fun h => h ▸ Nat.zero_le _

theorem removeConsole_still (s : State) (a : Nat) : Still s { s with consoles := removeAt s.consoles a } :=
  consoles_still fun _ he => .inl (mem_removeAt.1 he).1

theorem newConsole_still (s : State) (a : Nat) : Still s { s with consoles := insertAt s.consoles a {} } :=
  consoles_still fun _ he => (mem_insertAt he).elim (fun h => .inr (h ▸ rfl)) .inl

theorem controllers_still (s : State) (l : List (Nat × Controller)) : Still s { s with controllers := l } where

theorem stations_still (s : State) (l : List (Nat × Station)) :
    Still s { s with tables := { s.tables with stations := l } } where
  clamped h := h

theorem areaParams_still (s : State) (l : List (Nat × AreaParams)) :
    Still s { s with tables := { s.tables with areaParams := l } } where
  clamped h := h

theorem params_still (s : State) (p : Params) : Still s { s with tables := { s.tables with params := p } } where
  clamped h := h

theorem ports_still (s : State) (p q : Port) : Still s { s with plant := p, console := q } where

theorem clearAreaCounts_still (a : Nat) (items : List Item) (s : State) : Still s (clearAreaCounts a items s) :=
  modArea_still ..

theorem clearPortCounts_still (items : List Item) (s : State) : Still s (clearPortCounts items s) := ports_still ..

theorem freeCount_still (s : State) (n : Nat) : Still s { s with freeCount := n } where

theorem drawFree_still (s : State) : Still s s.drawFree.2 := freeCount_still ..

theorem clearGateCounts_still (new : Station) (items : List Item) (s : State) :
    Still s (clearGateCounts new items s) := .ite (fun _ => modController_still ..) fun _ => .refl s

theorem dropConsole_still (a : Nat) (s : State) : Still s (dropConsole a s) :=
  (detachConsole_still .removed a s).trans (removeConsole_still ..)

section
variable {ok : Nat → PointDef → Prop}

theorem dropController_evolves (a : Nat) (s : State) : Evolves ok s (dropController a s) := by
  unfold dropController
  split
  · exact .refl s
  · next c _ =>
    have h1 : Evolves ok s (if c.live then becomeStale a s else s.modController a Controller.abandon) :=
      .ite (fun _ => becomeStale_evolves a s) fun _ => .of_still (modController_still ..)
    refine Evolves.trans (h1.trans ?_) (.of_still (controllers_still ..))
    exact .ite (fun _ => .of_still (clearFaultLatch_still ..)) fun _ => .refl _

/-- The entry's old controller and console leave the part, where the entry does not keep them (R41, R89, R146). -/
def leaveController (old new : Option Station) (s : State) : State :=
  match controllerAddress old with
  | some a => if controllerAddress new = some a then s else dropController a s
  | none => s

def leaveConsole (old new : Option Station) (s : State) : State :=
  match consoleAddress old with
  | some a => if consoleAddress new = some a then s else dropConsole a s
  | none => s

/-- The station table with the entry at an index replaced or removed. -/
def changedStations (i : Nat) (new : Option Station) (t : List (Nat × Station)) : List (Nat × Station) :=
  match new with
  | some st => insertAt t i st
  | none => removeAt t i

/-- The entry's new controller and console join the part, where the entry did not have them. -/
def joinController (old new : Option Station) (s : State) : State :=
  match controllerAddress new with
  | some a => if controllerAddress old = some a then s else { s with controllers := insertAt s.controllers a {} }
  | none => s

def joinConsole (old new : Option Station) (s : State) : State :=
  match consoleAddress new with
  | some a =>
    if consoleAddress old = some a then
      if old.map (·.hornLevel) = new.map (·.hornLevel) then s else s.hornStep2 a
    else { s with consoles := insertAt s.consoles a {} }
  | none => s

def State.withStations (s : State) (l : List (Nat × Station)) : State :=
  { s with tables := { s.tables with stations := l } }

theorem changeStation_eq (i : Nat) (new : Option Station) (s : State) :
    changeStation i new s =
      let old := lookup s.tables.stations i
      let t := leaveConsole old new (leaveController old new s)
      joinConsole old new (joinController old new (t.withStations (changedStations i new t.tables.stations))) := rfl

theorem leaveController_evolves (old new : Option Station) (s : State) : Evolves ok s (leaveController old new s) := by
  unfold leaveController
  split
  · exact .ite (fun _ => .refl s) fun _ => dropController_evolves ..
  · exact .refl s

theorem leaveConsole_still (old new : Option Station) (s : State) : Still s (leaveConsole old new s) := by
  unfold leaveConsole
  split
  · exact .ite (fun _ => .refl s) fun _ => dropConsole_still ..
  · exact .refl s

theorem joinController_still (old new : Option Station) (s : State) : Still s (joinController old new s) := by
  unfold joinController
  split
  · exact .ite (fun _ => .refl s) fun _ => controllers_still ..
  · exact .refl s

theorem joinConsole_still (old new : Option Station) (s : State) : Still s (joinConsole old new s) := by
  unfold joinConsole
  split
  · exact .ite (fun _ => .ite (fun _ => .refl s) fun _ => hornStep2_still ..) fun _ => newConsole_still ..
  · exact .refl s

theorem changeStation_evolves (i : Nat) (new : Option Station) (s : State) : Evolves ok s (changeStation i new s) := by
  rw [changeStation_eq]
  exact (leaveController_evolves _ new s).trans
    (.of_still ((((leaveConsole_still ..).trans (stations_still ..)).trans (joinController_still ..)).trans
      (joinConsole_still ..)))

/-! ### Each WRITE -/

/-- Every answer of the operation comes with a state that `R` lets it reach. -/
def Operation.Keeps (R : State → State → Prop) (op : Operation) : Prop := ∀ req data s, R s (op req data s).s

theorem writePoint_evolves (hok : ∀ p d, ok p d) (req : Request) (p : Nat) (force : Bool) (items : List Item)
    (s : State) : Evolves ok s (writePoint req p force items s).s := by
  unfold writePoint
  split
  · exact .refl s
  · split
    · exact .refl s
    · exact rewritePoint_evolves hok p (clampPoint_clamped _) s

theorem writeOperator_still (req : Request) (i : Nat) (force : Bool) (items : List Item) (s : State) :
    Still s (writeOperator req i force items s).s := by
  unfold writeOperator
  dsimp only
  split
  · exact .refl s
  · split
    · dsimp only [written]
      split
      · exact (setRoster_still ..).trans (removeOperator_still ..)
      · exact setRoster_still ..
    · split
      · exact .refl s
      · split
        · exact .refl s
        · exact (setRoster_still ..).trans (afterRoster_still ..)

theorem writeStation_evolves (req : Request) (i : Nat) (force : Bool) (items : List Item) (s : State) :
    Evolves ok s (writeStation req i force items s).s := by
  unfold writeStation
  dsimp only
  split
  · exact .refl s
  · split
    · split
      · exact .refl s
      · dsimp only [written]
        exact changeStation_evolves ..
    · split
      · exact .refl s
      · split
        · exact .refl s
        · dsimp only [written]
          exact (changeStation_evolves ..).trans (.of_still (clearGateCounts_still ..))

theorem writeArea_still (req : Request) (a : Nat) (force : Bool) (items : List Item) (s : State) :
    Still s (writeArea req a force items s).s := by
  unfold writeArea
  dsimp only
  split
  · exact .refl s
  · dsimp only [written]
    exact (areaParams_still ..).trans (clearAreaCounts_still ..)

theorem writePart_still (req : Request) (i : Nat) (force : Bool) (items : List Item) (s : State) :
    Still s (writePart req i force items s).s := by
  unfold writePart
  dsimp only
  split
  · exact .refl s
  · dsimp only [written]
    exact (params_still ..).trans (clearPortCounts_still ..)

end

/-! ### The other operations -/

theorem ofLength_keeps {R : State → State → Prop} (hr : ∀ s, R s s) (n : Nat) {op : Operation} (h : op.Keeps R) :
    (ofLength n op).Keeps R := by
  intro req data s
  unfold ofLength
  split
  · exact h ..
  · exact hr s

theorem writeOp_keeps {R : State → State → Prop} (hr : ∀ s, R s s) {t : TableId}
    {body : Request → Nat → Bool → List Item → State → Answer}
    (h : ∀ req i force items s, R s (body req i force items s).s) : (writeOp t body).Keeps R := by
  intro req data s
  unfold writeOp
  split
  · exact hr s
  · split
    · exact hr s
    · split
      · exact hr s
      · split
        · exact hr s
        · exact h ..

theorem selectOp_still : selectOp.Keeps Still :=
  ofLength_keeps .refl _ fun _ _ s => by
    split <;> exact .refl s

theorem readOp_still : readOp.Keeps Still :=
  ofLength_keeps .refl _ fun _ _ s => by
    split
    · exact .refl s
    · split
      · exact .refl s
      · exact .ite (fun _ => relatch_still s) fun _ => .refl s

theorem queryOp_still : queryOp.Keeps Still :=
  ofLength_keeps .refl _ fun _ _ s => by
    split <;> exact .refl s

theorem discardOp_evolves {ok : Nat → PointDef → Prop} (hok : ∀ p d, ok p d) : discardOp.Keeps (Evolves ok) :=
  ofLength_keeps .refl _ fun _ _ s => by
    split
    · exact .refl s
    · split
      · exact .refl s
      · exact .handOn _ _ (discardPoint_evolves hok _ { s := s })

theorem abortOpen_still (a : Nat) (s : State) : Still s (abortOpen a s) := by
  unfold abortOpen
  split
  · exact abort_still ..
  · exact .refl s

theorem forceOp_still : forceOp.Keeps Still :=
  ofLength_keeps .refl _ fun _ _ s => by
    dsimp only
    split
    · exact .refl s
    · split
      · exact (abortOpen_still ..).trans (forceUnheld_still ..)
      · split
        · exact .refl s
        · split
          · exact (abortOpen_still ..).trans (takeArea_still ..)
          · exact .refl s

theorem clearHoldOp_still : clearHoldOp.Keeps Still :=
  ofLength_keeps .refl _ fun _ _ s => by
    split
    · exact .refl s
    · exact .ite (fun _ => clearFaultLatch_still ..) fun _ => .refl s

theorem storeStarted_still (s : State) (m : Bool) :
    Still s { s with store := some { copy := s.tables, age := 0 }, memory := { s.memory with valid := m } } where
  clamped h := by
    obtain ⟨ht, hm, -⟩ := h
    exact ⟨ht, hm, fun j hj => by cases hj; exact ht⟩

theorem storeOp_still : storeOp.Keeps Still :=
  ofLength_keeps .refl _ fun _ _ s => by
    split
    · exact .refl s
    · exact (storeStarted_still s false).trans (latch_still ..)

theorem resetOp_evolves {ok : Nat → PointDef → Prop} : resetOp.Keeps (Evolves ok) :=
  ofLength_keeps .refl _ fun _ _ _ => ⟨id, id, fun _ hu => ⟨hu.tables, hu.shelf, hu.slots⟩, fun _ _ _ _ h => ⟨rfl, h⟩⟩

theorem clearedJournal_still (s : State) :
    Still s { s with retained := { s.retained with journal := [], journalSeq := 0, count := 0, lost := false } } where
  journal _ := Nat.zero_le _

theorem clearRetainedOp_still : clearRetainedOp.Keeps Still :=
  ofLength_keeps .refl _ fun _ _ s => by
    split
    · exact .refl s
    · split
      · exact .refl s
      · exact clearedJournal_still s

theorem readStatusOp_still : readStatusOp.Keeps Still := ofLength_keeps .refl _ fun _ _ s => relatch_still s

theorem otherOp_still (code : Byte) : (otherOp code).Keeps Still := by
  intro req data s
  unfold otherOp
  dsimp only
  split
  · exact drawFree_still s
  · split
    · split
      · exact .refl s
      · split <;> exact .refl s
    · exact .refl s

end Sys2Proof.Machine

namespace Sys2Proof.Machine

section
variable {ok : Nat → PointDef → Prop}

/-! ## The records of an MREQ in order -/

/-- Every operation keeps the table as its row lets it: those of a WRITE, a DISCARD_SLOT or a RESET may settle alarms or
let a reset wait, and every other leaves the alarm table as it is. -/
def MgmtRow.quiet : MgmtRow → Bool
  | .writePoints | .writeStations | .discard | .reset => false
  | _ => true

theorem MgmtRow.op_still (code : Byte) {row : MgmtRow} (h : row.quiet = true) : (row.op code).Keeps Still := by
  cases row with
  | writePoints | writeStations | discard | reset => cases h
  | select => exact selectOp_still
  | read => exact readOp_still
  | writeRoster => exact writeOp_keeps .refl writeOperator_still
  | writeAreas => exact writeOp_keeps .refl writeArea_still
  | writeParams => exact writeOp_keeps .refl writePart_still
  | query => exact queryOp_still
  | force => exact forceOp_still
  | clearHold => exact clearHoldOp_still
  | store => exact storeOp_still
  | clearRetained => exact clearRetainedOp_still
  | readStatus => exact readStatusOp_still
  | other => exact otherOp_still code

theorem Operation.Keeps.evolves {op : Operation} (h : op.Keeps Still) : op.Keeps (Evolves ok) :=
  fun req data s => .of_still (h req data s)

theorem MgmtRow.op_evolves (hok : ∀ p d, ok p d) (code : Byte) (row : MgmtRow) : (row.op code).Keeps (Evolves ok) := by
  cases row with
  | writePoints => exact writeOp_keeps .refl (writePoint_evolves hok)
  | writeStations => exact writeOp_keeps .refl writeStation_evolves
  | discard => exact discardOp_evolves hok
  | reset => exact resetOp_evolves
  | _ => exact (MgmtRow.op_still code rfl).evolves

/-- A record that no row outside the quiet ones takes is no DISCARD_SLOT, WRITE or RESET. -/
theorem rowOf_quiet {sel : Option TableId} {x : Rec} (h : ¬ (x.code = 0x85#8 ∨ x.code = 0x83#8 ∨ x.code = 0x89#8)) :
    (rowOf sel x).quiet = true := by
  simp only [not_or, ← BitVec.toNat_inj] at h
  obtain ⟨h5, h3, h9⟩ := h
  unfold rowOf
  split <;> simp_all [MgmtRow.quiet]

/-! ### What an operation keeps of its request -/

/-- The operation leaves the records that follow its own as they are. -/
def Operation.KeepsTodo (op : Operation) : Prop := ∀ req data s, (op req data s).req.todo = req.todo

theorem ofLength_keepsTodo (n : Nat) {op : Operation} (h : op.KeepsTodo) : (ofLength n op).KeepsTodo := by
  intro req data s
  unfold ofLength
  split
  · exact h ..
  · rfl

theorem writeOp_keepsTodo {t : TableId} {body : Request → Nat → Bool → List Item → State → Answer}
    (h : ∀ req i force items s, (body req i force items s).req.todo = req.todo) : (writeOp t body).KeepsTodo := by
  intro req data s
  unfold writeOp
  split
  · rfl
  · split
    · rfl
    · split
      · rfl
      · split
        · rfl
        · exact h ..

theorem MgmtRow.op_keepsTodo (code : Byte) (row : MgmtRow) : (row.op code).KeepsTodo := by
  cases row with
  | select | query | clearHold | store =>
    refine ofLength_keepsTodo _ fun req data s => ?_
    split <;> rfl
  | read | discard | clearRetained =>
    refine ofLength_keepsTodo _ fun req data s => ?_
    split
    · rfl
    · split <;> rfl
  | force =>
    refine ofLength_keepsTodo _ fun req data s => ?_
    split
    · rfl
    · split
      · rfl
      · split
        · rfl
        · split <;> rfl
  | reset | readStatus => exact ofLength_keepsTodo _ fun _ _ _ => rfl
  | writePoints =>
    refine writeOp_keepsTodo fun req i force items s => ?_
    unfold writePoint
    split
    · rfl
    · split <;> rfl
  | writeRoster =>
    refine writeOp_keepsTodo fun req i force items s => ?_
    unfold writeOperator
    dsimp only
    split
    · rfl
    · split
      · rfl
      · split
        · rfl
        · split <;> rfl
  | writeStations =>
    refine writeOp_keepsTodo fun req i force items s => ?_
    unfold writeStation
    dsimp only
    split
    · rfl
    · split
      · split <;> rfl
      · split
        · rfl
        · split <;> rfl
  | writeAreas =>
    refine writeOp_keepsTodo fun req i force items s => ?_
    unfold writeArea
    dsimp only
    split <;> rfl
  | writeParams =>
    refine writeOp_keepsTodo fun req i force items s => ?_
    unfold writePart
    dsimp only
    split <;> rfl
  | other =>
    intro req data s
    unfold MgmtRow.op otherOp
    dsimp only
    split
    · rfl
    · split
      · split
        · rfl
        · split <;> rfl
      · rfl

end

end Sys2Proof.Machine

namespace Sys2Proof.Machine

section
variable {ok : Nat → PointDef → Prop}

/-! ## The open request -/

theorem request_still (s : State) (r : Option Request) : Still s { s with request := r } where
theorem heldMreps_still (s : State) (l : List Request) : Still s { s with heldMreps := l } where

theorem fitted_s (req : Request) (s : State) (n : Nat) (a : Answer) :
    (fitted req s n a).s = a.s ∨ (fitted req s n a).s = s := by
  unfold fitted
  split
  · exact .inl rfl
  · exact .inr rfl

theorem fitted_todo (req : Request) (s : State) (n : Nat) {a : Answer} (h : a.req.todo = req.todo) :
    (fitted req s n a).req.todo = req.todo := by
  unfold fitted
  split
  · exact h
  · rfl

/-- What taking the head record can do to the state is what its operation can, or nothing but the answer. -/
theorem takeHead_keeps {R : State → State → Prop} (hr : ∀ s, R s s)
    (hreq : ∀ s t r, R s t → R s { t with request := r }) {op : Operation} {s : State} (h : op.Keeps R) :
    R s (takeHead op s) := by
  unfold takeHead
  split
  · exact hr s
  · next r _ =>
    split
    · exact hr s
    · next x rest _ =>
      dsimp only
      refine hreq _ _ _ ?_
      split
      · exact hr s
      · rcases fitted_s { r with todo := rest } s rest.length (op { r with todo := rest } x.data s) with he | he
        · rw [he]; exact h ..
        · rw [he]; exact hr s

theorem takeHead_still {op : Operation} (h : op.Keeps Still) (s : State) : Still s (takeHead op s) :=
  takeHead_keeps .refl (fun _ _ _ h => h.trans (request_still ..)) h

theorem takeHead_evolves {op : Operation} (h : op.Keeps (Evolves ok)) (s : State) : Evolves ok s (takeHead op s) :=
  takeHead_keeps .refl (fun _ _ _ h => h.trans (.of_still (request_still ..))) h

theorem sendMrep_still (r : Request) (s : State) : Still s (sendMrep r s) := sendEntry_still ..

theorem closeRequest_still (s : State) : Still s (closeRequest s) := by
  unfold closeRequest
  split
  · exact .refl s
  · exact .ite (fun _ => (request_still ..).trans (heldMreps_still ..)) fun _ =>
      (request_still ..).trans (sendMrep_still ..)

theorem answerUnowned_still (n : Nat) (s : State) : Still s (answerUnowned n s) := by
  induction n generalizing s with
  | zero => exact .refl s
  | succ n ih => exact .ite (fun _ => (takeHead_still (otherOp_still _) s).trans (ih _)) fun _ => .refl s

theorem advance_still (s : State) : Still s (advance s) := by
  have h := answerUnowned_still 16 s
  unfold advance
  dsimp only
  split
  · split
    · exact h.trans (closeRequest_still _)
    · exact h
  · exact h

theorem takeRecord_evolves (row : MgmtRow) {op : Operation} (h : op.Keeps (Evolves ok)) (s : State) :
    Evolves ok s (takeRecord row op s) := by
  unfold takeRecord
  split
  · split
    · exact .ite (fun _ => (takeHead_evolves h s).trans (.of_still (advance_still _))) fun _ => .refl s
    · exact .refl s
  · exact .refl s

theorem openRequest_still (f : Frame) (s : State) : Still s (openRequest f s) :=
  .ite (fun _ => (request_still ..).trans (advance_still _)) fun _ => sendMrep_still ..

/-- The open MREQ still carries a DISCARD_SLOT, a WRITE or a RESET. -/
def State.carries (s : State) : Prop :=
  ∃ r, s.request = some r ∧ ∃ x ∈ r.todo, x.code = 0x85#8 ∨ x.code = 0x83#8 ∨ x.code = 0x89#8

theorem headOp_evolves (hok : ∀ p d, ok p d) (s : State) : (headOp s).Keeps (Evolves ok) := by
  unfold headOp
  split
  · split
    · exact MgmtRow.op_evolves hok _ _
    · exact (otherOp_still _).evolves
  · exact (otherOp_still _).evolves

theorem headOp_still {s : State} (h : ¬ s.carries) : (headOp s).Keeps Still := by
  unfold headOp
  split
  · next r hr =>
    split
    · next x rest hx =>
      refine MgmtRow.op_still _ (rowOf_quiet fun hc => h ⟨r, hr, x, ?_, hc⟩)
      rw [hx]; exact List.mem_cons_self ..
    · exact otherOp_still _
  · exact otherOp_still _

theorem headOp_keepsTodo (s : State) : (headOp s).KeepsTodo := by
  unfold headOp
  split
  · split
    · exact MgmtRow.op_keepsTodo _ _
    · exact MgmtRow.op_keepsTodo 0 .other
  · exact MgmtRow.op_keepsTodo 0 .other

/-- The records left after the head are those behind it. -/
theorem takeHead_todo {op : Operation} (h : op.KeepsTodo) {s : State} {r r' : Request} (hr : s.request = some r)
    (hr' : (takeHead op s).request = some r') : ∀ x ∈ r'.todo, x ∈ r.todo := by
  unfold takeHead at hr'
  rw [hr] at hr'
  dsimp only at hr'
  split at hr'
  · rw [hr] at hr'; cases hr'; exact fun _ hx => hx
  · next x rest hx =>
    have ht : r'.todo = rest := by
      cases hr'
      dsimp only
      split
      · rfl
      · exact fitted_todo _ _ _ (h ..)
    rw [ht, hx]
    exact fun _ => List.mem_cons_of_mem _

theorem takeHead_not_carries {op : Operation} (h : op.KeepsTodo) {s : State} (hs : ¬ s.carries) :
    ¬ (takeHead op s).carries := by
  rintro ⟨r', hr', x, hx, hc⟩
  cases hr : s.request with
  | none =>
    have : takeHead op s = s := by simp only [takeHead, hr]
    rw [this, hr] at hr'
    cases hr'
  | some r => exact hs ⟨r, hr, x, takeHead_todo h hr hr' x hx, hc⟩

theorem finishOpen_evolves (hok : ∀ p d, ok p d) (n : Nat) (s : State) : Evolves ok s (finishOpen n s) := by
  induction n generalizing s with
  | zero => exact .of_still (closeRequest_still s)
  | succ n ih =>
    unfold finishOpen
    split
    · exact .ite (fun _ => .of_still (closeRequest_still s)) fun _ =>
        (takeHead_evolves (headOp_evolves hok s) s).trans (ih _)
    · exact .refl s

theorem finishOpen_still (n : Nat) {s : State} (h : ¬ s.carries) : Still s (finishOpen n s) := by
  induction n generalizing s with
  | zero => exact closeRequest_still s
  | succ n ih =>
    unfold finishOpen
    split
    · exact .ite (fun _ => closeRequest_still s) fun _ =>
        (takeHead_still (headOp_still h) s).trans (ih (takeHead_not_carries (headOp_keepsTodo s) h))
    · exact .refl s

/-! ## Start-up -/

theorem summaries_still (s : State) (l : List Summary) :
    Still s { s with retained := { s.retained with summaries := l } } where
  journal h := h

theorem abortSummaries_still (s : State) : Still s (abortSummaries s) :=
  (Still.foldl (fun s _ => writeJournal_still s _) _ s).trans (summaries_still ..)

theorem latchAtStart_still (s : State) : Still s (latchAtStart s) := by
  have h (s : State) (f : StatusFlag) : Still s (if s.condition f then s.latch f else s) :=
    .ite (fun _ => latch_still ..) fun _ => .refl s
  exact (h s .configInvalid).trans (h _ .retainedLost)

theorem freshRecords_mem {α : Type} {q : Station → Bool} {new : α} {t : List (Nat × Station)} {e : Nat × α}
    (he : e ∈ freshRecords q new t) : e.2 = new := by
  revert he
  refine List.foldlRecOn (motive := fun l : List (Nat × α) => e ∈ l → e.2 = new) _ _ nofun fun l ih x _ he => ?_
  rcases mem_insertAt he with rfl | he
  · rfl
  · exact ih he

/-- After a start-up there is no alarm, nothing shelved, and the tables are the configuration memory's or the defaults. -/
theorem blocksReset_evolves (hok : ∀ p d, ok p d) {s : State} {r : Retained} (u v : Bool)
    (hj : s.retained.journal.length ≤ Config.journalCap → r.journal.length ≤ Config.journalCap) :
    Evolves ok s (blocksReset r u v s) where
  capacity h := by
    obtain ⟨-, -, -, -, -, hjournal, -⟩ := h
    refine ⟨Nat.zero_le _, Nat.zero_le _, Nat.zero_le _, Nat.zero_le _, nofun, hj hjournal, fun e he => ?_⟩
    rw [freshRecords_mem he]
    exact Nat.zero_le _
  table _ := ⟨rfl, nofun, .nil, nofun, nofun⟩
  urgent _ hu := by
    obtain ⟨-, hmemory, -⟩ := hu.tables
    refine ⟨⟨fun e he => ?_, hmemory, nofun⟩, nofun, nofun⟩
    change e ∈ (loadedTables s.memory).points at he
    unfold loadedTables at he
    split at he
    · exact hmemory e he
    · cases he
  unsettled _ p h := absurd (hok _ _) h

theorem startUp_evolves (hok : ∀ p d, ok p d) (cause : ResetCause) {kept : Retained} (u v : Bool) {s : State}
    (hj : s.retained.journal.length ≤ Config.journalCap → kept.journal.length ≤ Config.journalCap) :
    Evolves ok s (startUp cause kept u v s) :=
  (blocksReset_evolves (r := { kept with cause := cause, count := countUp kept.count }) hok u v hj).trans (.of_still ((abortSummaries_still _).trans (latchAtStart_still _)))

theorem systemReset_evolves (hok : ∀ p d, ok p d) (cause : ResetCause) (s : State) :
    Evolves ok s (systemReset cause s) := startUp_evolves hok cause _ _ id

theorem takeDueReset_evolves (hok : ∀ p d, ok p d) (s : State) : Evolves ok s (takeDueReset s) :=
  .ite (fun _ => systemReset_evolves hok ..) fun _ => .refl s

/-- A reset waits, or the open MREQ still carries what may settle an alarm. -/
def State.managed (s : State) : Prop := s.resetWaits = true ∨ s.carries

/-- What stands before a command settles alarms only as a reset that waits, or an open MREQ, lets it. -/
theorem settle_evolves {s : State} (hok : s.managed → ∀ p d, ok p d) : Evolves ok s (settle s) := by
  by_cases hm : s.managed
  · exact (finishOpen_evolves (hok hm) 16 s).trans (takeDueReset_evolves (hok hm) _)
  · obtain ⟨hw, hc⟩ := not_or.1 hm
    have h := finishOpen_still 16 hc
    unfold settle
    rw [takeDueReset_of_not (h.waits.trans (Bool.eq_false_iff.2 hw))]
    exact .of_still h

theorem enter_evolves {s : State} (hok : s.managed → ∀ p d, ok p d) : Evolves ok s (enter s) :=
  (settle_evolves hok).trans (.of_still (beginEvent_still _))

end

end Sys2Proof.Machine

namespace Sys2Proof.Machine

/-! ## The time base, the ports and the console's turn -/

theorem time_still (s : State) (b : TimeBase) : Still s { s with time := b } where
theorem owed_still (s : State) (l : List TickItem) : Still s { s with owed := l } where
theorem turn_still (s : State) (n : Nat) : Still s { s with turn := n } where

theorem timeWork_still (s : State) : Still s (timeWork s) := by
  have hlatch (s : State) (f : StatusFlag) (p : Prop) [Decidable p] : Still s (if p then s.latch f else s) :=
    .ite (fun _ => latch_still ..) fun _ => .refl s
  have h := (time_still s s.time.tick.1).trans (hlatch _ .timeStep (s.time.tick.2 = true))
  exact .ite (fun _ => h) fun _ => (h.trans (hlatch ..)).trans (notifyAll_still ..)

theorem arriveAt_still (ms : Nat) (s : State) : Still s (arriveAt ms s) := by
  refine Still.trans (.ite (fun _ => ?_) fun _ => .refl s) (time_still _ _)
  exact ((owed_still ..).trans (timeWork_still ..)).trans (beginEvent_still ..)

theorem classify_still (p : PortId) (kind : Byte) (f : Frame) (s : State) : Still s (classify p kind f s) := by
  have h := forwardFrom_still s p ⟨kind, f⟩
  have h0 := Still.refl s
  exact .ite (fun _ => h) fun _ => .ite (fun _ => .ite (fun _ => h0) fun _ => h) fun _ => .ite (fun _ => h) fun _ => h0

theorem consoleLoss_still (s : State) : Still s (consoleLoss s) :=
  .foldl (fun s a => detachConsole_still .detach a s) _ s

theorem takeMark_still (m : Nat × Nat) (s : State) : Still s (takeMark m s) := time_still ..

theorem takeConfirmation_still (a tag : Nat) (r : Result) (detail : List Byte) (s : State) :
    Still s (takeConfirmation a tag r detail s) := by
  unfold takeConfirmation
  split
  · exact .ite (fun _ => (endCommand_still ..).trans (setFaultLatch_still ..)) fun _ => endCommand_still ..
  · exact modController_still ..

theorem placePaged_still (a : Nat) (t : Transfer) (s : State) : Still s (placePaged a t s) :=
  (modConsole_still s a (f := fun c => { c with transfer := (nextPaged s a t).2 }) fun _ h => h).trans (send_still ..)

theorem placeNote_still (a : Nat) (s : State) : Still s (placeNote a s) := by
  unfold placeNote
  split
  · next c hc =>
    split
    · next n rest hn =>
      refine Still.trans (t := s.modConsole a fun c => { c with notices := rest, noticeSeq := _ }) ?_ (send_still ..)
      exact {
        notices := fun h e he => by
          simp only [State.modConsole, hc] at he
          rcases mem_insertAt he with rfl | he
          · have := h _ (mem_of_lookup hc)
            rw [hn] at this
            exact (Nat.le_succ _).trans this
          · exact h e he }
    · exact .refl s
  · exact .refl s

theorem serve_still (a : Nat) (s : State) : Still s (serve a s) := by
  unfold serve
  dsimp only
  split
  · exact (turn_still s a).trans (placePaged_still ..)
  · exact (turn_still s a).trans (placeNote_still ..)

theorem serveNext_still (q : Bool → Bool) (s : State) : Still s (serveNext q s) := by
  unfold serveNext
  split
  · exact .ite (fun _ => serve_still ..) fun _ => .refl s
  · exact .refl s

/-! ## HELLO, LOGIN and LOGOUT -/

theorem attach_still (a : Nat) (cls : ConsoleClass) (ft : Features) (s : State) :
    Still s (s.modConsole a fun k => k.attach cls ft) := modConsole_still s a fun _ _ => Nat.zero_le _

theorem attachWith_still (a : Nat) (c : Console) (cls : ConsoleClass) (ft : Features) (s : State) :
    Still s (attachWith a c cls ft s) :=
  .ite (fun _ => .refl s) fun _ => (detachConsole_still ..).trans (attach_still ..)

theorem takeHello_still (f : Frame) (s : State) : Still s (takeHello f s) := by
  unfold takeHello
  dsimp only
  split
  · split
    · exact answer_still ..
    · exact (attachWith_still ..).trans (answer_still ..)
  · exact .refl s

theorem countFailure_notices (c : Console) : c.countFailure.notices = c.notices := by
  unfold Console.countFailure
  split <;> rfl

theorem records_still {s : State} {l : List Handover} (hlen : l.length = s.records.length)
    (hl : ∀ x ∈ l, ∃ y ∈ s.records, x.list = y.list) : Still s { s with records := l } where
  records h := hlen.trans_le h
  reviews h x hx := by
    obtain ⟨y, hy, he⟩ := hl x hx
    exact he ▸ h y hy

theorem moveOutgoing_still (a op address seat : Nat) (s : State) : Still s (moveOutgoing a op address seat s) :=
  records_still (List.length_map ..) fun x hx => by
    obtain ⟨y, hy, rfl⟩ := List.mem_map.1 hx
    refine ⟨y, hy, ?_⟩
    split <;> rfl

theorem rehome_still (op address seat : Nat) (l : List Nat) (s : State) : Still s (rehome op address seat l s) :=
  .foldl (fun _ _ => (holdArea_still ..).trans (moveOutgoing_still ..)) l s

theorem moveSession_still (op address seat : Nat) (s : State) : Still s (moveSession op address seat s) := by
  unfold moveSession
  split
  · exact (endSession_still ..).trans (notify_still ..)
  · exact .refl s

theorem loginTaken_still (f : Frame) (o : Operator) (s : State) : Still s (loginTaken f o s) := by
  unfold loginTaken
  dsimp only
  have h1 := (moveSession_still o.id f.source.toNat f.seat.toNat s).trans
    (setSeat_still _ f.source.toNat f.seat.toNat (some o.id))
  generalize (moveSession o.id f.source.toNat f.seat.toNat s).modConsole _ _ = t at h1 ⊢
  have h2 (l : List Nat) : Still s
      (if t.consoleAtLeast f.source.toNat .full then rehome o.id f.source.toNat f.seat.toNat l t else t) :=
    .ite (fun _ => h1.trans (rehome_still ..)) fun _ => h1
  exact ((h2 _).trans (hornStep2_still ..)).trans (answer_still ..)

theorem takeLogin_still (f : Frame) (c : Console) (s : State) : Still s (takeLogin f c s) := by
  have hcount (g : Console → Console) (hg : ∀ c, (g c).notices = c.notices) :
      Still s (s.modConsole f.source.toNat g) := modConsole_still s _ fun c h => by rwa [hg]
  unfold takeLogin
  dsimp only
  split
  · exact answer_still ..
  · split
    · exact answer_still ..
    · split
      · exact answer_still ..
      · split
        · have h := hcount (fun k => { k with failed := 0 }) fun _ => rfl
          split
          · exact h.trans (answer_still ..)
          · split
            · exact h.trans (loginTaken_still ..)
            · exact h
        · exact (hcount _ countFailure_notices).trans (answer_still ..)

theorem takeLogout_still (f : Frame) (q : Requester) (s : State) : Still s (takeLogout f q s) :=
  .ite (fun _ => answer_still ..) fun _ => (endSession_still ..).trans (answer_still ..)

/-! ## The requests that act on no alarm -/

theorem takeSilence_still (f : Frame) (q : Requester) (s : State) : Still s (takeSilence f q s) := by
  have h : Still s (if s.hornOf q.console = .sounding then s.setHorn q.console .silenced else s) :=
    .ite (fun _ => setHorn_still ..) fun _ => .refl s
  exact .ite (fun _ => answer_still ..) fun _ => .ite (fun _ => answer_still ..) fun _ => h.trans (answer_still ..)

theorem takeClaim_still (f : Frame) (q : Requester) (s : State) : Still s (takeClaim f q s) := by
  unfold takeClaim
  split
  · exact answer_still ..
  · refine .ite (fun _ => answer_still ..) fun _ => ?_
    split
    · exact answer_still ..
    · exact Still.trans (.ite (fun _ => .refl s) fun _ => takeArea_still ..) (answer_still ..)

theorem pageChecked_still (f : Frame) {k : Nat → Nat → Requester → State → State}
    (hk : ∀ a p q s, Still s (k a p q s)) (q : Requester) (s : State) : Still s (pageChecked f k q s) := by
  unfold pageChecked
  split
  · exact answer_still ..
  · exact .ite (fun _ => hk ..) fun _ => answer_still ..

theorem startTransfer_still (f : Frame) (area : Nat) (q : Requester) (s : State) :
    Still s (startTransfer f area q s) := by
  have h (t : Transfer) : Still s (s.modConsole q.console fun c => { c with transfer := some t }) :=
    modConsole_still s _ fun _ h => h
  exact .ite (fun _ => answer_still ..) fun _ => .ite (fun _ => (h _).trans (placePaged_still ..)) fun _ => h _

theorem takePage_still (f : Frame) (area page : Nat) (q : Requester) (s : State) :
    Still s (takePage f area page q s) :=
  .ite (fun _ => startTransfer_still ..) fun _ => send_still ..

/-- A list of checks passes where the first passes and the others do. -/
theorem check_eq_none {α : Type} {p : Prop} [Decidable p] {r : α} {x : Option α} :
    (if p then some r else x) = none ↔ ¬ p ∧ x = none := by
  split <;> simp_all

theorem takeOpcmd_still (f : Frame) (q : Requester) (s : State) : Still s (takeOpcmd f q s) := by
  unfold takeOpcmd
  split
  · exact answer_still ..
  · refine .ite (fun _ => answer_still ..) fun _ => ?_
    split
    · exact answer_still ..
    · next h =>
      refine forwardCommand_still _ _ _ (Nat.lt_of_not_le fun hc => ?_)
      simp only [opcmdRefusal, check_eq_none] at h
      exact h.2.2.2.2.2.2.1 hc

theorem takeClearHold_still (f : Frame) (q : Requester) (s : State) : Still s (takeClearHold f q s) := by
  unfold takeClearHold
  split
  · exact answer_still ..
  · refine .ite (fun _ => answer_still ..) fun _ => ?_
    split
    · exact answer_still ..
    · exact (clearFaultLatch_still ..).trans (answer_still ..)

/-! ## The handover steps -/

theorem mem_of_record {s : State} {n : Nat} {h : Handover} (hr : s.record n = some h) : h ∈ s.records :=
  List.mem_of_find?_eq_some hr

theorem writeSummary_still (s : State) (h : Handover) : Still s (s.writeSummary h) where
  journal h := h

theorem insertRecord_perm (h : Handover) (l : List Handover) : (insertRecord h l).Perm (h :: l) := by
  induction l with
  | nil => exact .refl _
  | cons x t ih =>
    unfold insertRecord
    split
    · exact .refl _
    · exact (ih.cons x).trans (.swap ..)

/-- A record joins the table where the table and its review list have room (R123). -/
theorem openRecord_still {h : Handover} {s : State} (hr : s.records.length < Config.recordCap)
    (hl : h.list.length ≤ Config.reviewCap) : Still s (openRecord h s) := by
  have h1 : Still s
      { s with records := insertRecord h s.records, retained := { s.retained with counter := h.number } } :=
    { records := fun _ => by rw [(insertRecord_perm h _).length_eq]; exact hr
      reviews := fun hs x hx => by
        rcases List.mem_cons.1 ((insertRecord_perm h _).mem_iff.1 hx) with rfl | hx
        · exact hl
        · exact hs x hx
      journal := id }
  exact ((h1.trans (.foldl (fun s a => modArea_still s a _) h.areas _)).trans (writeSummary_still ..)).trans
    (noteHandover_still ..)

theorem takeOffer_still (f : Frame) (d : List Byte) (q : Requester) (s : State) : Still s (takeOffer f d q s) := by
  unfold takeOffer
  dsimp only
  split
  · exact answer_still ..
  · next hr _ _ =>
    split
    · exact answer_still ..
    · split
      · exact answer_still ..
      · next hl =>
        refine (openRecord_still (Nat.lt_of_not_le fun hc => ?_) (Nat.le_of_not_lt hl)).trans (answer_still ..)
        simp only [offerRefusal, check_eq_none] at hr
        exact hr.2.2.2.2.2.2.1 hc
  · exact .refl s

theorem partyStep_still (f : Frame) (incoming only : Bool) {k : Handover → List Byte → Requester → State → State}
    (hk : ∀ h d q s, h ∈ s.records → Still s (k h d q s)) (d : List Byte) (q : Requester) (s : State) :
    Still s (partyStep f incoming only k d q s) := by
  unfold partyStep
  split
  · exact answer_still ..
  · next h hr =>
    exact .ite (fun _ => answer_still ..) fun _ => .ite (fun _ => answer_still ..) fun _ => hk _ _ _ _ (mem_of_record hr)

theorem takeAttend_still (f : Frame) (h : Handover) (d : List Byte) (q : Requester) (s : State) (hm : h ∈ s.records) :
    Still s (takeAttend f h d q s) :=
  .ite (fun _ => (((setRecord_still s (h := { h with state := .review, attendLeft := 0 }) fun hs => hs h hm).trans (writeSummary_still ..)).trans
    (noteHandover_still ..)).trans (answer_still ..)) fun _ => answer_still ..

theorem reviewPair_length (pos occ : Nat) (l : List ReviewEntry) : (reviewPair pos occ l).2.length = l.length := by
  unfold reviewPair
  split
  · rfl
  · split
    · rfl
    · split
      · rfl
      · exact List.length_set

theorem reviewAll_length (ps : List (Nat × Nat)) (l : List ReviewEntry) : (reviewAll ps l).2.length = l.length := by
  induction ps generalizing l with
  | nil => rfl
  | cons p ps ih => exact (ih _).trans (reviewPair_length ..)

theorem takeReviewed_still (f : Frame) (h : Handover) (d : List Byte) (q : Requester) (s : State)
    (hm : h ∈ s.records) : Still s (takeReviewed f h d q s) :=
  (setRecord_still s fun hs => (reviewAll_length ..).trans_le (hs h hm)).trans (answer_still ..)

theorem takeAccept_still (f : Frame) (h : Handover) (d : List Byte) (q : Requester) (s : State) :
    Still s (takeAccept f h d q s) :=
  .ite (fun _ => answer_still ..) fun _ => .ite (fun _ => answer_still ..) fun _ => .ite (fun _ => answer_still ..)
    fun _ => (complete_still ..).trans (answer_still ..)

theorem endRecord_still (r : AbortReason) (f : Frame) (h : Handover) (d : List Byte) (q : Requester) (s : State) :
    Still s (endRecord r f h d q s) := (abort_still ..).trans (answer_still ..)

end Sys2Proof.Machine

namespace Sys2Proof.Machine

/-! ## Arrival and intake -/

/-- `t` has the areas and the configuration of `s`, by which authority is judged. -/
def SameAuthority (s t : State) : Prop := t.areas = s.areas ∧ t.tables = s.tables

theorem SameAuthority.refl (s : State) : SameAuthority s s := ⟨rfl, rfl⟩

theorem SameAuthority.trans {s t u : State} (h : SameAuthority s t) (k : SameAuthority t u) : SameAuthority s u :=
  ⟨k.1.trans h.1, k.2.trans h.2⟩

theorem timeWork_sameAuthority (s : State) : SameAuthority s (timeWork s) := by
  unfold timeWork
  dsimp only
  split
  · split
    · exact ⟨by simp, by simp⟩
    · exact .refl s
  · constructor <;> split <;> split <;> simp

theorem arriveAt_sameAuthority (ms : Nat) (s : State) : SameAuthority s (arriveAt ms s) := by
  unfold arriveAt
  dsimp only
  split
  · exact timeWork_sameAuthority _
  · exact .refl s

theorem liveness_sameAuthority (p : PortId) (source : Nat) (s : State) : SameAuthority s (liveness p source s).1 := by
  unfold liveness startResync sendSreq
  cases p with
  | plant =>
    dsimp only
    split
    · split
      · dsimp only
        split
        · exact ⟨by simp, by simp⟩
        · exact ⟨by simp, by simp⟩
      · exact ⟨by simp, by simp⟩
    · exact .refl s
  | console => exact ⟨by simp, by simp⟩

section
variable {ok : Nat → PointDef → Prop}

theorem receive_evolves {s : State} (hok : s.managed → ∀ p d, ok p d) (p : PortId) (ms : Nat) (f : Frame)
    {k : Bool → State → State} (hk : ∀ b t, SameAuthority (enter s) t → Evolves ok t (k b t)) :
    Evolves ok s (receive p ms f k s) := by
  unfold receive
  refine .ite (fun _ => ?_) fun _ => .refl s
  have h : Evolves ok s (arriveAt ms (enter s)) := (enter_evolves hok).trans (.of_still (arriveAt_still ..))
  refine .ite (fun _ => ?_) fun _ => h.trans (.of_still (countMalformed_still ..))
  exact (h.trans (.of_still ((liveness_still ..).trans (beginEvent_still _)))).trans
    (hk _ _ ((arriveAt_sameAuthority ..).trans (liveness_sameAuthority ..)))

theorem fromConsole_evolves {s : State} (hok : s.managed → ∀ p d, ok p d) (ms : Nat) (kind : Byte) (f : Frame)
    {k : State → State} (hk : ∀ t, SameAuthority (enter s) t → Evolves ok t (k t)) :
    Evolves ok s (fromConsole ms kind f k s) :=
  receive_evolves hok .console ms f fun _ t ht =>
    .ite (fun _ => .ite (fun _ => hk t ht) fun _ => .refl t) fun _ => .of_still (forwardFrom_still ..)

theorem intakeSeat_evolves (f : Frame) (view : View) {k : Console → State → State} {s : State}
    (hk : ∀ c, Evolves ok s (k c s)) : Evolves ok s (intakeSeat f view k s) := by
  have h (r : Result) : Evolves ok s (s.answer f 0 r (view s)) := .of_still (answer_still ..)
  unfold intakeSeat
  split
  · exact .refl s
  · exact .ite (fun _ => h _) fun _ => .ite (fun _ => h _) fun _ => hk _

theorem intakeLogged_evolves (f : Frame) (view : View) {k : Requester → State → State} {s : State}
    (hk : ∀ q, q.operator = f.operator.toNat → Evolves ok s (k q s)) : Evolves ok s (intakeLogged f view k s) := by
  refine intakeSeat_evolves f view fun c => ?_
  split
  · exact .of_still (answer_still ..)
  · next op _ =>
    split
    · next h => exact hk _ h.symm
    · exact .of_still (answer_still ..)

theorem intakeCounted_evolves (f : Frame) (view : View) {k : Requester → State → State} {s : State}
    (hk : ∀ q t, q.operator = f.operator.toNat → SameAuthority s t → Evolves ok t (k q t)) :
    Evolves ok s (intakeCounted f view k s) := by
  refine intakeLogged_evolves f view fun q hq => ?_
  dsimp only
  split
  · exact .refl s
  · next c hc =>
    generalize hr : c.countRequest s.tables.params.rateLimit = r
    have hcount : Still s (s.modConsole q.console fun _ => r.1) := {
      notices := fun h e he => by
        simp only [State.modConsole, hc] at he
        rcases mem_insertAt he with rfl | he
        · rw [← hr, countRequest_notices]
          exact h _ (mem_of_lookup hc)
        · exact h e he }
    refine .ite (fun _ => ?_) fun _ => .of_still (hcount.trans (answer_still ..))
    exact (Evolves.of_still hcount).trans (hk q _ hq ⟨by simp, by simp⟩)

theorem silentAttach_sameAuthority (a : Nat) (s : State) : SameAuthority s (silentAttach a s) :=
  ⟨by simp [silentAttach], by simp [silentAttach]⟩

/-- A counted request of a console, of whatever kind. -/
theorem counted_evolves {s : State} (hok : s.managed → ∀ p d, ok p d) (ms : Nat) (kind : Byte) (f : Frame) (view : View)
    {k : Requester → State → State}
    (hk : ∀ q t, q.operator = f.operator.toNat → SameAuthority (enter s) t → Evolves ok t (k q t)) :
    Evolves ok s
      (fromConsole ms kind f (fun t => intakeCounted f view k (silentAttach f.source.toNat t)) s) :=
  fromConsole_evolves hok ms kind f fun _ ht =>
    (Evolves.of_still (silentAttach_still ..)).trans
      (intakeCounted_evolves f view fun q u hq hu => hk q u hq ((ht.trans (silentAttach_sameAuthority ..)).trans hu))

theorem hovr_evolves {s : State} (hok : s.managed → ∀ p d, ok p d) (ms : Nat) (code : Byte) (l : List Byte → Bool)
    (f : Frame) {k : List Byte → Requester → State → State} (hk : ∀ d q s, Still s (k d q s)) :
    Evolves ok s (hovr ms code l f k s) := by
  refine counted_evolves hok ms _ f noView fun q _ _ _ => .of_still ?_
  unfold hovrStep
  split
  · exact .ite (fun _ => answer_still ..) fun _ => .ite (fun _ => answer_still ..) fun _ =>
      .ite (fun _ => answer_still ..) fun _ => hk ..
  · exact .ite (fun _ => answer_still ..) fun _ => answer_still ..

/-! ## ACK, GROUP_ACK, SHELVE and UNSHELVE -/

theorem acknowledge_evolves (q : Requester) {i : Nat} {sl : Slot} {s : State} (hm : (i, sl) ∈ s.slots)
    (h : (s.pointDef sl.point).priority ≠ .urgent ∨ ok sl.point (s.pointDef sl.point)) :
    Evolves ok s (acknowledge q i sl s) := by
  unfold acknowledge
  dsimp only
  exact (Evolves.handOn _ _ (applyAck_evolves q.operator (e := { s := s }) hm h)).trans (.of_still (report_still ..))

theorem matchAck_evolves (q : Requester) {p : Nat} (occ : Nat) {s : State}
    (h : (s.pointDef p).priority ≠ .urgent ∨ ok p (s.pointDef p)) : Evolves ok s (matchAck q p occ s).2 := by
  unfold matchAck
  split
  · exact .refl s
  · next i sl hs =>
    obtain ⟨hm, rfl⟩ := mem_of_slotOf hs
    split
    · exact .refl s
    · split
      · exact .refl s
      · exact acknowledge_evolves q hm h

/-- An ACK past its checks acts on a point that is not URGENT or whose acknowledgement R57 permits. -/
theorem ackRefusal_urgent {q : Requester} {p : Nat} {s : State} (h : ackRefusal q p s = none)
    (hp : (s.pointDef p).priority = .urgent) : urgentAllowed s q.operator (s.pointDef p).area = true := by
  simp only [ackRefusal, check_eq_none] at h
  simpa [hp] using h.2.2.2.1

theorem takeAck_evolves (f : Frame) (q : Requester) {s : State}
    (hok : ∀ d p, oreqData 0x21#8 4 f = some d → field2 d 0 = p →
      urgentAllowed s q.operator (s.pointDef p).area = true → ok p (s.pointDef p)) :
    Evolves ok s (takeAck f q s) := by
  unfold takeAck
  split
  · exact .of_still (answer_still ..)
  · next d hd =>
    dsimp only
    split
    · exact .of_still (answer_still ..)
    · next hr =>
      refine (matchAck_evolves q _ ?_).trans (.of_still (answer_still ..))
      by_cases hp : (s.pointDef (field2 d 0)).priority = .urgent
      · exact .inr (hok d _ hd rfl (ackRefusal_urgent hr hp))
      · exact .inl hp

/-- A GROUP_ACK past a pair's checks acts on a point that is not URGENT (R62). -/
theorem pairRefusal_not_urgent {q : Requester} {p : Nat} {s : State} (h : pairRefusal q p s = none) :
    (s.pointDef p).priority ≠ .urgent := by
  simp only [pairRefusal, check_eq_none] at h
  simpa using h.2.1

theorem Evolves.report {s t : State} (r : Report) (h : Evolves ok s t) : Evolves ok s (t.report r) :=
  h.trans (.of_still (report_still ..))

theorem takePair_evolves (q : Requester) (p occ : Nat) (s : State) : Evolves ok s (takePair q p occ s).2 := by
  unfold takePair
  split
  · exact .refl s
  · next h =>
    exact (Evolves.of_still (beginEvent_still s)).trans
      (matchAck_evolves q occ (s := s.beginEvent) (.inl (pairRefusal_not_urgent h)))

theorem takePairs_evolves (q : Requester) (l : List Rec) (s : State) : Evolves ok s (takePairs q l s).2 := by
  induction l generalizing s with
  | nil => exact .refl s
  | cons r l ih => exact (takePair_evolves q _ _ s).trans (ih _)

theorem takeGroupAck_evolves (f : Frame) (q : Requester) (s : State) : Evolves ok s (takeGroupAck f q s) :=
  .ite (fun _ => .of_still (answer_still ..)) fun _ =>
    .ite (fun _ => (takePairs_evolves q f.recs s).trans (.of_still (answer_still ..))) fun _ => .of_still (answer_still ..)

theorem mem_placeShelf {e x : ShelfEntry} {l : List ShelfEntry} (h : x ∈ placeShelf e l) : x = e ∨ x ∈ l := by
  induction l with
  | nil => exact .inl (List.mem_singleton.1 h)
  | cons y l ih =>
    unfold placeShelf at h
    split at h
    · exact List.mem_cons.1 h
    · rcases List.mem_cons.1 h with rfl | h
      · exact .inr (List.mem_cons_self ..)
      · exact (ih h).imp_right (List.mem_cons_of_mem _)

theorem placeShelf_length (e : ShelfEntry) (l : List ShelfEntry) : (placeShelf e l).length = l.length + 1 := by
  induction l with
  | nil => rfl
  | cons y l ih =>
    unfold placeShelf
    split
    · rfl
    · simp [ih]

theorem removeShelf_length_lt {p : Nat} {l : List ShelfEntry} (h : ∃ x ∈ l, x.point = p) :
    (removeShelf p l).length < l.length := by
  obtain ⟨x, hx, hp⟩ := h
  exact List.length_filter_lt_length_iff_exists.2 ⟨x, hx, by simpa using hp⟩

/-- No URGENT point has a shelve limit in tables that R3 has clamped. -/
theorem not_urgent_of_shelveLimit {s : State} {p : Nat} (hs : s.TablesClamped) (h : (s.pointDef p).shelveLimit ≠ 0) :
    (s.pointDef p).priority ≠ .urgent := by
  intro hu
  refine h ?_
  cases hl : lookup s.tables.points p with
  | none => rw [State.pointDef, hl]; rfl
  | some d =>
    have hd : s.pointDef p = d := by rw [State.pointDef, hl]; rfl
    rw [hd] at hu ⊢
    exact (hs.1 _ (mem_of_lookup hl) hu).1

/-- The shelf list with a new entry of the point in place of an earlier one. -/
theorem shelf_placed_evolves {s : State} {x : ShelfEntry}
    (hroom : s.shelved x.point = true ∨ s.shelf.length < Config.shelfCap)
    (hx : (∃ y ∈ s.shelf, y.point = x.point) ∨ (s.TablesClamped → (s.pointDef x.point).priority ≠ .urgent)) :
    Evolves ok s { s with shelf := placeShelf x (removeShelf x.point s.shelf) } := by
  refine shelf_evolves (fun h => ?_) fun y hy => ?_
  · rw [placeShelf_length]
    rcases hroom with hroom | hroom
    · have := removeShelf_length_lt (p := x.point) (l := s.shelf) (by simpa [State.shelved] using hroom)
      omega
    · exact (Nat.succ_le_succ (List.length_filter_le _ _)).trans hroom
  · rcases mem_placeShelf hy with rfl | hy
    · exact hx
    · exact .inl ⟨y, (List.mem_filter.1 hy).1, rfl⟩

theorem shelvePoint_evolves (q : Requester) {p : Nat} (granted : Nat) {s : State}
    (hroom : s.shelved p = true ∨ s.shelf.length < Config.shelfCap) (hlimit : (s.pointDef p).shelveLimit ≠ 0) :
    Evolves ok s (shelvePoint q p granted s) := by
  have hu (h : s.TablesClamped) : (s.pointDef p).priority ≠ .urgent := not_urgent_of_shelveLimit h hlimit
  have h1 : Still s (s.marked.dropOwed (.shelf p)) := (marked_still s).trans (dropOwed_still ..)
  have h2 : Evolves ok s
      { s.marked.dropOwed (.shelf p) with shelf := placeShelf (newShelfEntry q p granted s) (removeShelf p s.shelf) } :=
    (Evolves.of_still h1).trans (shelf_placed_evolves (s := s.marked.dropOwed (.shelf p))
      (x := newShelfEntry q p granted s) hroom (.inr hu))
  unfold shelvePoint
  dsimp only
  refine .handOn _ _ ?_
  dsimp only
  exact .report _ (h2.trans (markShelved_evolves (e := { s := { s.marked.dropOwed (.shelf p) with shelf := _ } }) hu))

theorem takeShelve_evolves (f : Frame) (q : Requester) (s : State) : Evolves ok s (takeShelve f q s) := by
  have h (r : Result) (d : List Rec) : Evolves ok s (reply f q r d s) := .of_still (answer_still ..)
  unfold takeShelve
  split
  · exact h ..
  · dsimp only
    split
    · exact h ..
    · split
      · exact h ..
      · split
        · exact h ..
        · next hr =>
          simp only [shelveRefusal, check_eq_none] at hr
          obtain ⟨hlimit, hroom⟩ := hr
          refine (shelvePoint_evolves q _ ?_ hlimit).trans (.of_still (answer_still ..))
          split at hroom
          · next hc => simpa using hc
          · cases hroom

theorem takeUnshelve_evolves (f : Frame) (q : Requester) (s : State) : Evolves ok s (takeUnshelve f q s) := by
  have h (r : Result) (d : List Rec) : Evolves ok s (reply f q r d s) := .of_still (answer_still ..)
  unfold takeUnshelve
  split
  · exact h ..
  · dsimp only
    split
    · exact h ..
    · split
      · exact (unshelveEvent_evolves ..).trans (.of_still (answer_still ..))
      · exact h ..

/-! ## The tick -/

theorem releaseChatter_evolves (p : Nat) (s : State) : Evolves ok s (releaseChatter p s) := by
  have h : Evolves ok s (clearChatter p { s := s.setDyn p { s.dynOf p with held := false } }).s :=
    (Evolves.of_still (setDyn_still ..)).trans (clearChatter_evolves ..)
  unfold releaseChatter
  dsimp only
  refine .handOn _ _ ?_
  dsimp only
  exact .report _ h

theorem chatterWork_evolves (p : Nat) (s : State) : Evolves ok s (chatterWork p s) := by
  have h : Evolves ok s (s.setDyn p { s.dynOf p with score := (s.dynOf p).score - 1 }) := .of_still (setDyn_still ..)
  exact .ite (fun _ => h.trans (releaseChatter_evolves ..)) fun _ => h

theorem shelfWork_evolves (p : Nat) (s : State) : Evolves ok s (shelfWork p s) := by
  unfold shelfWork
  split
  · exact .refl s
  · next e he =>
    have hm : e ∈ s.shelf := List.mem_of_find?_eq_some he
    obtain rfl : e.point = p := by simpa using List.find?_some he
    refine .ite (fun _ => unshelveEvent_evolves ..) fun _ => ?_
    exact shelf_placed_evolves (x := { e with ticks := e.ticks - 1 })
      (.inl (List.any_eq_true.2 ⟨e, hm, by simp⟩)) (.inl ⟨e, hm, rfl⟩)

theorem leaveFlood_evolves (a : Nat) (s : State) : Evolves ok s (leaveFlood a s) := by
  have h1 : Evolves ok s (s.modArea a fun r => { r with flood := false }) := .of_still (modArea_still ..)
  have h2 (q : Slot → Bool) := overlayEach_evolves (ok := ok) q (f := fun sl => { sl with suppressed := false })
    (fun _ _ => .of_overlay rfl rfl id nofun) { s := s.modArea a fun r => { r with flood := false } }
  unfold leaveFlood
  dsimp only
  refine .handOn _ _ ?_
  dsimp only
  exact (h1.trans (h2 _)).trans (.of_still (notifyArea_still ..))

theorem loadWork_evolves (a : Nat) (s : State) : Evolves ok s (loadWork a s) := by
  have h : Evolves ok s (s.modArea a fun r => { r with load := decayed (s.area a).load }) := .of_still (modArea_still ..)
  exact .ite (fun _ => h.trans (leaveFlood_evolves ..)) fun _ => h

theorem controllerSilenceWork_evolves (a : Nat) (s : State) : Evolves ok s (controllerSilenceWork a s) := by
  unfold controllerSilenceWork
  split
  · exact .ite (fun _ => .refl s) fun _ => .ite (fun _ => becomeStale_evolves ..) fun _ =>
      .of_still (modController_still ..)
  · exact .refl s

theorem resyncWaitWork_still (a : Nat) (s : State) : Still s (resyncWaitWork a s) := by
  unfold resyncWaitWork
  split
  · exact .ite (fun _ => .refl s) fun _ => .ite (fun _ => resyncExpired_still ..) fun _ => modController_still ..
  · exact .refl s

theorem consoleSilenceWork_still (a : Nat) (s : State) : Still s (consoleSilenceWork a s) := by
  unfold consoleSilenceWork
  split
  · exact .ite (fun _ => .refl s) fun _ => .ite (fun _ => detachConsole_still ..) fun _ =>
      modConsole_still s a fun _ h => h
  · exact .refl s

theorem graceWork_still (a : Nat) (s : State) : Still s (graceWork a s) :=
  .ite (fun _ => .ite (fun _ => (orphanArea_still ..).trans (writeJournal_still ..)) fun _ => modArea_still ..)
    fun _ => .refl s

theorem handoverWork_still (n : Nat) (s : State) : Still s (handoverWork n s) := by
  unfold handoverWork
  split
  · exact .refl s
  · next h hr =>
    have hset (l m : Nat) : Still s (s.setRecord { h with left := l, attendLeft := m }) :=
      setRecord_still s fun hs => hs h (mem_of_record hr)
    exact .ite (fun _ => abort_still ..) fun _ => .ite (fun _ => .ite (fun _ => abort_still ..) fun _ => hset ..)
      fun _ => hset _ h.attendLeft

theorem confirmWork_still (tag : Nat) (s : State) : Still s (confirmWork tag s) := by
  unfold confirmWork
  split
  · exact .refl s
  · refine .ite (fun _ => endAtLimit_still ..) fun _ => ?_
    exact { commands := fun h => by simpa using h }

theorem tickWork_evolves (x : TickItem) (s : State) : Evolves ok s (tickWork x s) := by
  refine (Evolves.of_still (beginEvent_still s)).trans ?_
  cases x with
  | chatter p => exact chatterWork_evolves ..
  | shelf p => exact shelfWork_evolves ..
  | load a => exact loadWork_evolves ..
  | controllerSilence c => exact controllerSilenceWork_evolves ..
  | resyncWait c => exact .of_still (resyncWaitWork_still ..)
  | consoleSilence c => exact .of_still (consoleSilenceWork_still ..)
  | rateHold c | loginHold c => exact .of_still (modConsole_still _ _ fun _ h => h)
  | grace a => exact .of_still (graceWork_still ..)
  | handover n => exact .of_still (handoverWork_still ..)
  | confirm t => exact .of_still (confirmWork_still ..)
  | time => exact .of_still (timeWork_still _)

theorem completeFirst_evolves (n : Nat) (s : State) : Evolves ok s (completeFirst n s) := by
  induction n generalizing s with
  | zero => exact .refl s
  | succ n ih =>
    unfold completeFirst
    split
    · exact .refl s
    · exact ((Evolves.of_still (owed_still ..)).trans (tickWork_evolves ..)).trans (ih _)

theorem tickOne_evolves (s : State) (x : TickItem) : Evolves ok s (tickOne s x) :=
  .ite (fun _ => .of_still (owed_still ..)) fun _ => tickWork_evolves ..

theorem takeOwed_evolves (x : TickItem) (s : State) : Evolves ok s (takeOwed x s) :=
  .ite (fun _ => (Evolves.of_still (dropOwed_still ..)).trans (tickWork_evolves ..)) fun _ => .refl s

theorem sendLive_still (p : PortId) (s : State) : Still s (sendLive p s) := .ite (fun _ => send_still ..) fun _ => .refl s

theorem tickStart_still (s : State) : Still s (tickStart s) := by
  have h : Still s
      { s with
        time := { s.time with elapsed := 0 }
        consoles := s.consoles.map fun e => (e.1, { e.2 with requests := 0 })
        store := s.store.map fun j => { j with age := j.age + 1 } } :=
    { clamped := fun ⟨ht, hm, hs⟩ => ⟨ht, hm, fun j hj => by
        obtain ⟨i, hi, rfl⟩ := Option.map_eq_some_iff.1 hj
        exact hs i hi⟩
      notices := fun hs e he => by
        obtain ⟨x, hx, rfl⟩ := List.mem_map.1 he
        exact hs x hx }
  exact (h.trans (sendLive_still ..)).trans (sendLive_still ..)

theorem completeStore_still (good : Bool) (s : State) : Still s (completeStore good s) := by
  unfold completeStore
  split
  · exact .refl s
  · next j hj =>
    have hend : Still s { s with store := none } :=
      { clamped := fun ⟨ht, hm, _⟩ => ⟨ht, hm, nofun⟩ }
    have hgood : Still s { s with store := none, memory := { copy := j.copy, valid := true } } :=
      { clamped := fun ⟨ht, _, hs⟩ => ⟨ht, hs j hj, nofun⟩ }
    dsimp only
    refine Still.trans (Still.trans ?_ (heldMreps_still _ [])) (.foldl (fun s r => sendMrep_still r s) _ _)
    exact .ite (fun _ => hgood) fun _ => hend.trans (latch_still ..)

theorem overdueStore_still (s : State) : Still s (overdueStore s) :=
  .ite (fun _ => (drawFree_still s).trans (completeStore_still ..)) fun _ => .refl s

/-! ## The links -/

theorem plantLoss_evolves (s : State) : Evolves ok s (plantLoss s) := by
  have h (l : List Nat) : Evolves ok s (l.foldl (fun e a => staleEv a e) { s := s }).s :=
    Evolves.foldl_ev (fun e a => staleEv_evolves a e) l { s := s }
  exact (Evolves.handOn _ _ (h _)).trans (.of_still (controllers_still ..))

end

end Sys2Proof.Machine

namespace Sys2Proof.Machine

/-! ## One command -/

/-- What may settle the URGENT alarm of point `p`, defined as `d`, at command `c` in state `s` (R60). -/
def MaySettle (c : Instr) (s : State) (p : Nat) (d : PointDef) : Prop :=
  (∃ ms f, c = .ack ms f ∧ (s.settled = true →
      ∃ x, f.recs = [⟨0x21#8, x⟩] ∧ field2 x 0 = p ∧ urgentPermitted s f.operator.toNat d.area = true))
  ∨ (d.latch = .tracking ∧ ∃ ms f, c = .prep ms f ∨ c = .psnap ms f)
  ∨ (∃ k u v, c = .powerOn k u v) ∨ c = .resetLine ∨ s.managed

theorem maySettle_of_managed (c : Instr) {s : State} (h : s.managed) (p : Nat) (d : PointDef) : MaySettle c s p d :=
  .inr (.inr (.inr (.inr h)))

/-- The model's condition for an URGENT acknowledgement is R57's. -/
theorem urgentAllowed_eq (s : State) (op a : Nat) : urgentAllowed s op a = urgentPermitted s op a := by
  unfold urgentAllowed urgentPermitted State.holds
  generalize (s.area a).authority = x
  cases (s.area a).holder with
  | none => cases x <;> simp
  | some h => cases x <;> simp

theorem urgentPermitted_congr {s t : State} (h : SameAuthority s t) (op a : Nat) :
    urgentPermitted t op a = urgentPermitted s op a := by
  obtain ⟨ha, ht⟩ := h
  unfold urgentPermitted State.hasRole State.operatorEntry State.area
  rw [ha, ht]

theorem oreqData_eq_some {code : Byte} {n : Nat} {f : Frame} {d : List Byte} (h : oreqData code n f = some d) :
    f.recs = [⟨code, d⟩] := by
  unfold oreqData at h
  split at h
  · next r hr =>
    split at h
    · next hc =>
      obtain ⟨rfl, -⟩ := hc
      cases h
      exact hr
    · cases h
  · cases h

theorem execAck_evolves (ms : Nat) (f : Frame) (s : State) :
    Evolves (MaySettle (.ack ms f) s) s (oreq ms f (takeAck f) s) := by
  refine counted_evolves (fun h => maySettle_of_managed _ h) ms _ f (oreqView f) fun q t hq ht =>
    takeAck_evolves f q fun d p hd hp hu => .inl ⟨ms, f, rfl, fun hs => ⟨d, oreqData_eq_some hd, hp, ?_⟩⟩
  rw [enter_of_settled hs] at ht
  have hb : SameAuthority s t := SameAuthority.trans ⟨rfl, rfl⟩ ht
  rwa [← urgentPermitted_congr hb, ← urgentAllowed_eq, ← hq]

theorem Evolves.of_next {ok : Nat → PointDef → Prop} {s t u : State} (h : (Host.Outcome.next u : Out) = .next t)
    (he : Evolves ok s u) : Evolves ok s t := by
  cases h
  exact he

theorem pageArrives_evolves {ok : Nat → PointDef → Prop} {s : State} (hok : s.managed → ∀ p d, ok p d) (ms : Nat)
    (f : Frame) : Evolves ok s (pageArrives ms f s) :=
  fromConsole_evolves hok _ _ _ fun _ _ => (Evolves.of_still (silentAttach_still ..)).trans
    (intakeLogged_evolves _ _ fun q _ => .of_still (pageChecked_still f (takePage_still f) q _))

/-- A record of an open MREQ acts as its row lets it, and only where the request carries it. -/
theorem takeRow_evolves {ok : Nat → PointDef → Prop} {s : State} (hok : s.managed → ∀ p d, ok p d) (row : MgmtRow)
    (code : Byte := 0) : Evolves ok s (takeRecord row (row.op code) s) := by
  cases hq : row.quiet with
  | true => exact takeRecord_evolves row (MgmtRow.op_still code hq).evolves s
  | false =>
    by_cases hm : s.managed
    · exact takeRecord_evolves row (MgmtRow.op_evolves (hok hm) code row) s
    · unfold takeRecord
      split
      · next r hr =>
        split
        · next x rest hx =>
          refine .ite (fun hc => absurd (Or.inr ⟨r, hr, x, hx ▸ List.mem_cons_self .., ?_⟩) hm) fun _ => .refl s
          by_contra hcode
          have hrow : rowOf r.selected x = row := by simpa using (Bool.and_eq_true_iff.1 hc).2
          rw [← hrow, rowOf_quiet hcode] at hq
          cases hq
        · exact .refl s
      · exact .refl s

theorem execLinkDown_evolves {ok : Nat → PointDef → Prop} {s u : State} (hok : s.managed → ∀ p d, ok p d) {ms : Nat}
    {p : PortId} (h : execLinkDown ms p s = .next u) : Evolves ok s u := by
  refine .of_next h (.ite (fun _ => ?_) fun _ => .refl s)
  dsimp only
  generalize ht : arriveAt ms (enter s) = t
  have h1 : Evolves ok s t := ht ▸ (enter_evolves hok).trans (.of_still (arriveAt_still ..))
  have h2 : Still t (if (t.port p).ownLost > 0 then (t.modPort p Port.goDown).latch .egressDrop
      else t.modPort p Port.goDown) :=
    .ite (fun _ => (modPort_still ..).trans (latch_still ..)) fun _ => modPort_still ..
  have h3 := h1.trans (.of_still h2)
  cases p with
  | plant => exact h3.trans (plantLoss_evolves _)
  | console => exact h3.trans (.of_still (consoleLoss_still _))

/-- Every command keeps the bounds, and settles an URGENT alarm only where it may. -/
theorem exec_evolves {c : Instr} {s t : State} (h : exec c s = .next t) : Evolves (MaySettle c s) s t := by
  have hm : s.managed → ∀ p d, MaySettle c s p d := fun h => maySettle_of_managed c h
  have henter : Evolves (MaySettle c s) s (enter s) := enter_evolves hm
  have howed (x : TickItem) : Evolves (MaySettle c s) s (takeOwed x (enter s)) :=
    henter.trans (takeOwed_evolves ..)
  cases c with
  | powerOn k u v =>
    have hok : ∀ p d, MaySettle (.powerOn k u v) s p d := fun _ _ => .inr (.inr (.inl ⟨k, u, v, rfl⟩))
    refine .of_next h ((settle_evolves hm).trans (startUp_evolves hok _ _ _ fun hj => ?_))
    unfold checkedRetained
    split
    · exact hj
    · exact Nat.zero_le _
  | resetLine =>
    have hok : ∀ p d, MaySettle .resetLine s p d := fun _ _ => .inr (.inr (.inr (.inl rfl)))
    exact .of_next h ((settle_evolves hm).trans (systemReset_evolves hok ..))
  | systemCommandReset => exact .of_next h (settle_evolves hm)
  | linkDown ms p => exact execLinkDown_evolves hm h
  | linkUp p => exact .of_next h (henter.trans (.of_still (modPort_still ..)))
  | malformedTelegram ms p b =>
    have ht : Evolves (MaySettle (.malformedTelegram ms p b) s) s (arriveAt ms (enter s)) :=
      henter.trans (.of_still (arriveAt_still ..))
    exact .of_next h (.ite (fun _ => .ite (fun _ => ht.trans (.of_still (countMalformed_still ..))) fun _ => ht)
      fun _ => .refl s)
  | passThrough ms p k f =>
    exact .of_next h (receive_evolves hm _ _ _ fun _ _ _ => .of_still (classify_still ..))
  | discardedTelegram ms p k f =>
    exact .of_next h (receive_evolves hm _ _ _ fun _ _ _ => .of_still (classify_still ..))
  | live ms p f => exact .of_next h (receive_evolves hm _ _ _ fun _ t _ => .refl t)
  | tmark ms f =>
    refine .of_next h (receive_evolves hm _ _ _ fun _ t _ => .ite (fun _ => ?_) fun _ => .refl t)
    split
    · exact .of_still (takeMark_still ..)
    · exact .refl t
  | prep ms f =>
    have hok (p : Nat) (d : PointDef) (ht : d.latch = .tracking) : MaySettle (.prep ms f) s p d :=
      .inr (.inl ⟨ht, ms, f, .inl rfl⟩)
    exact .of_next h (receive_evolves hm _ _ _ fun _ t _ => .ite (fun _ => applyPrep_evolves hok ..) fun _ => .refl t)
  | psnap ms f =>
    have hok (p : Nat) (d : PointDef) (ht : d.latch = .tracking) : MaySettle (.psnap ms f) s p d :=
      .inr (.inl ⟨ht, ms, f, .inr rfl⟩)
    refine .of_next h (receive_evolves hm _ _ _ fun _ t _ => ?_)
    split
    · exact .ite (fun _ => (Evolves.of_still (modController_still ..)).trans (applyPsnap_evolves hok ..)) fun _ => .refl t
    · exact .refl t
  | cconf ms f =>
    refine .of_next h (receive_evolves hm _ _ _ fun _ t _ => .ite (fun _ => ?_) fun _ => .refl t)
    split
    · exact .of_still (takeConfirmation_still ..)
    · exact .refl t
  | hello ms f =>
    exact .of_next h (fromConsole_evolves hm _ _ _ fun _ _ => .of_still (takeHello_still ..))
  | login ms f =>
    exact .of_next h (fromConsole_evolves hm _ _ _ fun _ _ => (Evolves.of_still (silentAttach_still ..)).trans
      (intakeSeat_evolves _ _ fun _ => .of_still (takeLogin_still ..)))
  | logout ms f =>
    exact .of_next h (fromConsole_evolves hm _ _ _ fun _ _ =>
      intakeLogged_evolves _ _ fun _ _ => .of_still (takeLogout_still ..))
  | ack ms f => exact .of_next h (execAck_evolves ms f s)
  | groupAck ms f => exact .of_next h (counted_evolves hm _ _ _ _ fun q t _ _ => takeGroupAck_evolves f q t)
  | shelve ms f => exact .of_next h (counted_evolves hm _ _ _ _ fun q t _ _ => takeShelve_evolves f q t)
  | unshelve ms f => exact .of_next h (counted_evolves hm _ _ _ _ fun q t _ _ => takeUnshelve_evolves f q t)
  | silence ms f => exact .of_next h (counted_evolves hm _ _ _ _ fun q t _ _ => .of_still (takeSilence_still f q t))
  | claim ms f => exact .of_next h (counted_evolves hm _ _ _ _ fun q t _ _ => .of_still (takeClaim_still f q t))
  | clearHold ms f =>
    exact .of_next h (counted_evolves hm _ _ _ _ fun q t _ _ => .of_still (takeClearHold_still f q t))
  | opcmd ms f => exact .of_next h (counted_evolves hm _ _ _ _ fun q t _ _ => .of_still (takeOpcmd_still f q t))
  | page ms f => exact .of_next h (pageArrives_evolves hm ms f)
  | pageAll ms f => exact .of_next h (pageArrives_evolves hm ms f)
  | transferPaged | noticeDequeue => exact .of_next h (henter.trans (.of_still (serveNext_still ..)))
  | offer ms f => exact .of_next h (hovr_evolves hm _ _ _ _ fun d q t => takeOffer_still f d q t)
  | attend ms f =>
    exact .of_next h (hovr_evolves hm _ _ _ _ (partyStep_still f _ _ fun r d q t hr => takeAttend_still f r d q t hr))
  | reviewed ms f =>
    exact .of_next h (hovr_evolves hm _ _ _ _ (partyStep_still f _ _ fun r d q t hr => takeReviewed_still f r d q t hr))
  | accept ms f =>
    exact .of_next h (hovr_evolves hm _ _ _ _ (partyStep_still f _ _ fun r d q t _ => takeAccept_still f r d q t))
  | decline ms f | withdraw ms f =>
    exact .of_next h (hovr_evolves hm _ _ _ _ (partyStep_still f _ _ fun r d q t _ => endRecord_still _ f r d q t))
  | mreqCredential ms f =>
    exact .of_next h (receive_evolves hm _ _ _ fun _ _ _ =>
      .ite (fun _ => .of_still (openRequest_still ..)) fun _ => .of_still (forwardFrom_still ..))
  | mreqSelect => exact .of_next h (takeRow_evolves hm .select)
  | mreqRead => exact .of_next h (takeRow_evolves hm .read)
  | writePoints => exact .of_next h (takeRow_evolves hm .writePoints)
  | writeRoster => exact .of_next h (takeRow_evolves hm .writeRoster)
  | writeStations => exact .of_next h (takeRow_evolves hm .writeStations)
  | writeAreas => exact .of_next h (takeRow_evolves hm .writeAreas)
  | writeParams => exact .of_next h (takeRow_evolves hm .writeParams)
  | querySlot => exact .of_next h (takeRow_evolves hm .query)
  | discardSlot => exact .of_next h (takeRow_evolves hm .discard)
  | forceArea => exact .of_next h (takeRow_evolves hm .force)
  | mgmtClearHold => exact .of_next h (takeRow_evolves hm .clearHold)
  | store => exact .of_next h (takeRow_evolves hm .store)
  | reset => exact .of_next h (takeRow_evolves hm .reset)
  | clearRetained => exact .of_next h (takeRow_evolves hm .clearRetained)
  | readStatus => exact .of_next h (takeRow_evolves hm .readStatus)
  | storeCompletion good => exact .of_next h (henter.trans (.of_still (completeStore_still ..)))
  | tick =>
    have h1 : Evolves (MaySettle .tick s) s (completeOwed (enter s)).beginEvent :=
      (henter.trans (completeFirst_evolves ..)).trans (.of_still (beginEvent_still _))
    have h2 (s : State) : Still s (tickStart (overdueStore s).beginEvent) :=
      ((overdueStore_still s).trans (beginEvent_still _)).trans (tickStart_still _)
    exact .of_next h ((h1.trans (.of_still (h2 _))).trans (.foldl tickOne_evolves _ _))
  | floodExit a => exact .of_next h (howed _)
  | chatterRelease p => exact .of_next h (howed _)
  | controllerSilenceExpiry a => exact .of_next h (howed _)
  | resyncWaitExpiry a => exact .of_next h (howed _)
  | consoleSilenceExpiry a => exact .of_next h (howed _)
  | rateHoldEnd a => exact .of_next h (howed _)
  | loginHoldEnd a => exact .of_next h (howed _)
  | graceExpiry a => exact .of_next h (howed _)
  | masterSilenceExpiry => exact .of_next h (howed _)
  | shelfExpired =>
    refine .of_next h ?_
    split
    · exact howed _
    · exact henter
  | notAttended n => exact .of_next h (.ite (fun _ => howed _) fun _ => henter)
  | handoverExpired n => exact .of_next h (.ite (fun _ => howed _) fun _ => henter)
  | confirmLimitExpiry =>
    refine .of_next h ?_
    split
    · exact howed _
    · exact henter
  | transmitEnd p =>
    have ht (s : State) : Still s (s.modPort p Port.endTransmission) := modPort_still ..
    exact .of_next h (henter.trans (.ite (fun _ => .ite (fun _ => .of_still ((ht _).trans (serveNext_still ..)))
      fun _ => .of_still (ht _)) fun _ => .refl _))

/-- A step is a command on the state with the queue's rest, or nothing. -/
theorem step_evolves {s t : State} (h : step s = .next t) : ∃ ok, Evolves ok s t := by
  unfold step at h
  split at h
  · cases h
    exact ⟨fun _ _ => False, .refl s⟩
  · next c rest _ =>
    have hpending : Evolves (MaySettle c { s with pending := rest }) s { s with pending := rest } :=
      .of_still { }
    exact ⟨_, hpending.trans (exec_evolves h)⟩

/-! ## The statements -/

/-- Settles O5: no part of a step lets a bounded list grow above its capacity. -/
theorem stepKeepsCapacities : Obligations.StepKeepsCapacities := by
  intro s t hs h
  obtain ⟨ok, he⟩ := step_evolves h
  exact he.capacity hs

/-- Settles O7: no part of a step puts a point at two places of the alarm table. -/
theorem stepKeepsAlarmTableSound : Obligations.StepKeepsAlarmTableSound := by
  intro s t hs h
  obtain ⟨ok, he⟩ := step_evolves h
  exact he.table hs

theorem not_unsettled_of_slotSettled {p : Nat} {s t : State} (ht : t.AlarmTableSound) (h : SlotSettled p s t) :
    ¬ Unsettled p t := by
  rintro ⟨⟨i, sl⟩, hm, rfl, hst⟩
  exact hst (h.2 i sl (slotOf_of_mem ht hm))

theorem unsettled_of_slotSettled {p : Nat} {s t : State} (h : SlotSettled p s t) : Unsettled p s := by
  obtain ⟨⟨i, sl, hsl, hst⟩, -⟩ := h
  obtain ⟨hm, hp⟩ := mem_of_slotOf hsl
  exact ⟨(i, sl), hm, hp, hst⟩

/-- Settles O10: an unsettled URGENT alarm stays so through every part of a command but those that R60 names. -/
theorem stepKeepsUrgentAlarms : Obligations.StepKeepsUrgentAlarms := by
  refine ⟨fun s t _ hs hu h => ?_, fun c p s t hs hp h hset => ?_⟩
  · obtain ⟨ok, he⟩ := step_evolves h
    exact he.urgent hs hu
  · have he := exec_evolves h
    by_contra hno
    have hu := (he.unsettled hs p hno hp (unsettled_of_slotSettled hset)).2
    exact not_unsettled_of_slotSettled (he.table hs) hset hu

end Sys2Proof.Machine

namespace Sys2Proof.Machine

/-! ## What latching a flag does (R191) -/

theorem bit_getLsbD (f g : StatusFlag) : f.bit.getLsbD g.position = decide (f = g) := by
  cases f <;> cases g <;> rfl

/-- Latching the flag sends STATs: it was not latched, its notice enable is set, and somebody receives them. -/
def State.sendsStat (s : State) (f : StatusFlag) : Bool :=
  !s.isLatched f && s.tables.params.enables.getLsbD f.position && !s.engineering.isEmpty

/-- The STATs of a flag, as they join the plant port's OWN queue. -/
def State.statEntries (s : State) (f : StatusFlag) : List OwnEntry :=
  s.engineering.map fun a => ⟨statTelegram s f a, false⟩

/-- The state with a flag's latched value set. -/
def State.withFlag (s : State) (f : StatusFlag) : State := { s with latched := s.latched ||| f.bit }

theorem withFlag_isLatched (s : State) (f g : StatusFlag) :
    (s.withFlag f).isLatched g = (s.isLatched g || decide (f = g)) := by
  rw [← bit_getLsbD]
  exact isLatched_or ..

theorem sendStats_eq (f : StatusFlag) (l : List Nat) (s : State) :
    (sendStats f l s).1 =
      { s with plant := (l.map fun a => (⟨statTelegram s f a, false⟩ : OwnEntry)).foldl Port.joinOwn s.plant } := by
  induction l generalizing s with
  | nil => rfl
  | cons a l ih =>
    simp only [sendStats]
    rw [ih]
    rfl

theorem latchOnce_of_latched {f : StatusFlag} {s : State} (h : s.isLatched f = true) : latchOnce f s = (s, false) := by
  simp [latchOnce, h]

theorem latchOnce_of_silent {f : StatusFlag} {s : State} (hl : s.isLatched f = false) (h : s.sendsStat f = false) :
    latchOnce f s = (s.withFlag f, false) := by
  simp only [State.sendsStat, hl, Bool.not_false, Bool.true_and] at h
  unfold latchOnce
  rw [if_neg (by simp [hl])]
  exact if_neg (Bool.eq_false_iff.1 h)

theorem latchOnce_of_sends {f : StatusFlag} {s : State} (h : s.sendsStat f = true) :
    latchOnce f s = sendStats f s.engineering (s.withFlag f).takeStatNumber := by
  simp only [State.sendsStat, Bool.and_eq_true, Bool.not_eq_true'] at h
  obtain ⟨⟨hl, he⟩, hr⟩ := h
  unfold latchOnce
  rw [if_neg (by simp [hl])]
  have hr' : (!(s.withFlag f).engineering.isEmpty) = true := by rw [Bool.not_eq_true']; exact hr
  exact if_pos (Bool.and_eq_true_iff.2 ⟨he, hr'⟩)

theorem latchOnce_cases (f : StatusFlag) (s : State) :
    (s.isLatched f = true ∧ s.sendsStat f = false ∧ latchOnce f s = (s, false))
    ∨ (s.isLatched f = false ∧ s.sendsStat f = false ∧ latchOnce f s = (s.withFlag f, false))
    ∨ (s.isLatched f = false ∧ s.sendsStat f = true
        ∧ latchOnce f s = sendStats f s.engineering (s.withFlag f).takeStatNumber) := by
  cases hl : s.isLatched f with
  | true => exact .inl ⟨rfl, by simp [State.sendsStat, hl], latchOnce_of_latched hl⟩
  | false =>
    cases h : s.sendsStat f with
    | false => exact .inr (.inl ⟨rfl, rfl, latchOnce_of_silent hl h⟩)
    | true => exact .inr (.inr ⟨rfl, rfl, latchOnce_of_sends h⟩)

theorem isLatched_congr {s t : State} (h : t.latched = s.latched) (f : StatusFlag) : t.isLatched f = s.isLatched f := by
  unfold State.isLatched
  rw [h]

theorem takeStatNumber_latched (s : State) : s.takeStatNumber.latched = s.latched := by
  unfold State.takeStatNumber
  split <;> rfl

theorem takeStatNumber_plant (s : State) : s.takeStatNumber.plant = s.plant := by
  unfold State.takeStatNumber
  split <;> rfl

/-- Latching sets its flag and no other. -/
theorem latchOnce_isLatched_eq (f g : StatusFlag) (s : State) :
    (latchOnce f s).1.isLatched g = (s.isLatched g || decide (f = g)) := by
  rcases latchOnce_cases f s with ⟨hl, -, he⟩ | ⟨-, -, he⟩ | ⟨-, -, he⟩
  · rw [he]
    by_cases hfg : f = g
    · subst hfg; simp [hl]
    · simp [hfg]
  · rw [he]; exact withFlag_isLatched ..
  · rw [he, ← withFlag_isLatched]
    exact isLatched_congr ((sendStats_latched ..).trans (takeStatNumber_latched _)) g

/-- A STAT was dropped only where one was to be sent. -/
theorem latchOnce_dropped {f : StatusFlag} {s : State} (h : (latchOnce f s).2 = true) : s.sendsStat f = true := by
  rcases latchOnce_cases f s with ⟨-, -, he⟩ | ⟨-, -, he⟩ | ⟨-, hs, -⟩
  · rw [he] at h; cases h
  · rw [he] at h; cases h
  · exact hs

theorem latch_isLatched_eq (f g : StatusFlag) (s : State) :
    (s.latch f).isLatched g =
      (s.isLatched g || decide (f = g) || ((latchOnce f s).2 && decide (.egressDrop = g))) := by
  unfold State.latch
  dsimp only
  split
  · next h => simp [latchOnce_isLatched_eq, h]
  · next h => simp [latchOnce_isLatched_eq, h]

/-- No other flag than the flag itself and EGRESS_DROP latches. -/
theorem latch_isLatched_of_ne {f g : StatusFlag} (s : State) (hf : g ≠ f) (he : g ≠ .egressDrop) :
    (s.latch f).isLatched g = s.isLatched g := by
  simp [latch_isLatched_eq, hf.symm, he.symm]

/-! ### The STAT number -/

theorem latchOnce_statSent (f : StatusFlag) (s : State) :
    (latchOnce f s).1.statSent = (s.statSent || s.sendsStat f) := by
  rcases latchOnce_cases f s with ⟨-, hs, he⟩ | ⟨-, hs, he⟩ | ⟨-, hs, he⟩
  · simp [he, hs]
  · simp [he, hs, State.withFlag]
  · rw [he, hs, sendStats_frame]
    unfold State.takeStatNumber
    split
    · next h => simpa [State.withFlag] using h
    · simp

theorem latchOnce_statSeq (f : StatusFlag) (s : State) :
    (latchOnce f s).1.statSeq = if s.sendsStat f && !s.statSent then wrapUp s.statSeq else s.statSeq := by
  rcases latchOnce_cases f s with ⟨-, hs, he⟩ | ⟨-, hs, he⟩ | ⟨-, hs, he⟩
  · simp [he, hs]
  · simp [he, hs, State.withFlag]
  · rw [he, hs, sendStats_frame]
    cases hsent : s.statSent <;> simp [State.takeStatNumber, State.withFlag, hsent]

theorem latch_statSent (f : StatusFlag) (s : State) : (s.latch f).statSent = (s.statSent || s.sendsStat f) := by
  unfold State.latch
  dsimp only
  split
  · next h => simp [latchOnce_statSent, latchOnce_dropped h]
  · exact latchOnce_statSent ..

/-- The first flag of an event that sends STATs takes the next number for all of them (R191). -/
theorem latch_statSeq (f : StatusFlag) (s : State) :
    (s.latch f).statSeq = if s.sendsStat f && !s.statSent then wrapUp s.statSeq else s.statSeq := by
  unfold State.latch
  dsimp only
  split
  · next h => simp [latchOnce_statSeq, latchOnce_statSent, latchOnce_dropped h]
  · exact latchOnce_statSeq ..

/-! ### The plant port -/

theorem latchOnce_plant_cases (f : StatusFlag) (s : State) :
    (latchOnce f s).1.plant = s.plant ∨ ∃ l : List OwnEntry, (latchOnce f s).1.plant = l.foldl Port.joinOwn s.plant := by
  rcases latchOnce_cases f s with ⟨-, -, he⟩ | ⟨-, -, he⟩ | ⟨-, -, he⟩
  · exact .inl (by rw [he])
  · exact .inl (by rw [he]; rfl)
  · rw [he, sendStats_eq, takeStatNumber_plant]
    exact .inr ⟨_, rfl⟩

/-- Latching adds telegrams to the plant port's OWN queue and nothing else. -/
theorem latch_plant_cases (f : StatusFlag) (s : State) : ∃ l : List OwnEntry, (s.latch f).plant = l.foldl Port.joinOwn s.plant := by
  have h (f : StatusFlag) (s : State) : ∃ l : List OwnEntry, (latchOnce f s).1.plant = l.foldl Port.joinOwn s.plant :=
    (latchOnce_plant_cases f s).elim (fun h => ⟨[], h⟩) id
  unfold State.latch
  dsimp only
  split
  · obtain ⟨l, hl⟩ := h f s
    obtain ⟨m, hm⟩ := h .egressDrop (latchOnce f s).1
    exact ⟨l ++ m, by rw [hm, hl, List.foldl_append]⟩
  · exact h f s

theorem startNext_own_length (q : Port) : q.startNext.own.length ≤ q.own.length := by
  unfold Port.startNext
  split
  · split
    · exact le_rfl
    · next h _ => simp [h]
    · exact le_rfl
    · next h _ =>
      split
      · simp [h]
      · exact le_rfl
  · exact le_rfl

theorem joinOwn_own_length (q : Port) (e : OwnEntry) : (q.joinOwn e).own.length ≤ q.own.length + 1 := by
  unfold Port.joinOwn
  split
  · exact (startNext_own_length _).trans (by simp)
  · exact Nat.le_succ _

theorem foldl_joinOwn_own_length (l : List OwnEntry) (q : Port) :
    (l.foldl Port.joinOwn q).own.length ≤ q.own.length + l.length := by
  induction l generalizing q with
  | nil => exact le_rfl
  | cons e l ih =>
    have h1 := ih (q.joinOwn e)
    have h2 := joinOwn_own_length q e
    simp only [List.foldl_cons, List.length_cons]
    omega

theorem foldl_joinOwn_up (l : List OwnEntry) (q : Port) : (l.foldl Port.joinOwn q).up = q.up := by
  induction l generalizing q with
  | nil => rfl
  | cons e l ih => exact (ih _).trans (joinOwn_up ..)

theorem sendStats_dropped_of_room (f : StatusFlag) (l : List Nat) (s : State) (hu : s.plant.up = true)
    (h : s.plant.own.length + l.length ≤ Config.ownCap) : (sendStats f l s).2 = false := by
  induction l generalizing s with
  | nil => rfl
  | cons a l ih =>
    simp only [List.length_cons] at h
    have hroom : s.plant.ownRoom = true := by
      simp only [Port.ownRoom, hu, Bool.true_and, decide_eq_true_eq]; omega
    have hlen := joinOwn_own_length s.plant ⟨statTelegram s f a, false⟩
    simp only [sendStats, hroom, Bool.not_true, Bool.or_false]
    refine ih _ ((joinOwn_up ..).trans hu) ?_
    show (s.plant.joinOwn _).own.length + l.length ≤ _
    omega

theorem sendStats_dropped_of_noRoom (f : StatusFlag) (l : List Nat) {s : State} (h : s.plant.ownRoom = false) :
    (sendStats f l s).2 = !l.isEmpty := by
  cases l with
  | nil => rfl
  | cons a l => simp [sendStats, h]

theorem latchOnce_dropped_of_room (f : StatusFlag) {s : State} (hu : s.plant.up = true)
    (h : s.plant.own.length + s.engineering.length ≤ Config.ownCap) : (latchOnce f s).2 = false := by
  rcases latchOnce_cases f s with ⟨-, -, he⟩ | ⟨-, -, he⟩ | ⟨-, -, he⟩
  · rw [he]
  · rw [he]
  · rw [he]
    refine sendStats_dropped_of_room _ _ _ ?_ ?_ <;> rw [takeStatNumber_plant]
    · exact hu
    · exact h

theorem latchOnce_dropped_of_noRoom (f : StatusFlag) {s : State} (h : s.plant.ownRoom = false) :
    (latchOnce f s).2 = s.sendsStat f := by
  rcases latchOnce_cases f s with ⟨-, hs, he⟩ | ⟨-, hs, he⟩ | ⟨-, hs, he⟩
  · rw [he, hs]
  · rw [he, hs]
  · rw [he, sendStats_dropped_of_noRoom _ _ (by rw [takeStatNumber_plant]; exact h), hs]
    simp only [State.sendsStat, Bool.and_eq_true] at hs
    exact hs.2

/-- Where there is room a flag latches with its STATs, as it stands. -/
theorem latch_of_room (f : StatusFlag) {s : State} (hu : s.plant.up = true)
    (h : s.plant.own.length + s.engineering.length ≤ Config.ownCap) : s.latch f = (latchOnce f s).1 := by
  unfold State.latch
  simp [latchOnce_dropped_of_room f hu h]

end Sys2Proof.Machine

namespace Sys2Proof.Machine

/-! ## What a start-up leaves (R193) -/

/-- The last entries of a journal, as many as its ring holds (R143). -/
def lastEntries (l : List JournalEntry) : List JournalEntry := l.drop (l.length - Config.journalCap)

theorem lastEntries_append (l m : List JournalEntry) : lastEntries (lastEntries l ++ m) = lastEntries (l ++ m) := by
  unfold lastEntries
  generalize Config.journalCap = n
  rw [← List.drop_append_of_le_length (by omega : l.length - n ≤ l.length), List.drop_drop]
  congr 1
  simp only [List.length_drop, List.length_append]
  omega

/-- The RESET_ABORT entries of summaries, from journal number `n` on (R144, R145). -/
def abortEntries (n : Nat) (xs : List Summary) : List JournalEntry :=
  xs.mapIdx fun i x =>
    { kind := .resetAbort, seq := (n + i + 1) % 4294967296, time := ⟨true, 0, 0⟩, areas := x.areas
      number := some x.number, recordKind := some x.kind, outgoing := some x.outOp, incoming := some x.inOp
      reached := some x.state }

theorem abortEntries_cons (n : Nat) (x : Summary) (xs : List Summary) :
    abortEntries n (x :: xs) = abortEntries n [x] ++ abortEntries ((n + 1) % 4294967296) xs := by
  simp only [abortEntries, List.mapIdx_cons, List.mapIdx_nil, List.singleton_append, List.cons.injEq, true_and]
  congr 1
  funext i y
  congr 1
  omega

theorem marked_of_fresh {s : State} (h : s.time = {}) : s.stamp = ⟨true, 0, 0⟩ ∧ s.marked = s := by
  have hs : s.stamp = ⟨true, 0, 0⟩ := by unfold State.stamp; rw [h]; rfl
  refine ⟨hs, ?_⟩
  unfold State.marked
  rw [hs, h]
  show { s with time := ({} : TimeBase) } = s
  rw [← h]

/-- The journal after RESET_ABORT entries for summaries, and its number. -/
def abortedRetained (r : Retained) (xs : List Summary) : Retained :=
  { r with
    journalSeq := if xs = [] then r.journalSeq else (r.journalSeq + xs.length) % 4294967296
    journal := if xs = [] then r.journal else lastEntries (r.journal ++ abortEntries r.journalSeq xs) }

theorem abortSummary_eq {s : State} (h : s.time = {}) (x : Summary) :
    abortSummary s x = { s with retained := abortedRetained s.retained [x] } := by
  obtain ⟨hs, hm⟩ := marked_of_fresh h
  unfold abortSummary State.writeJournal
  rw [hs, hm]
  rfl

theorem foldl_abortSummary_eq (xs : List Summary) {s : State} (h : s.time = {}) :
    xs.foldl abortSummary s = { s with retained := abortedRetained s.retained xs } := by
  induction xs generalizing s with
  | nil => rfl
  | cons x xs ih =>
    rw [List.foldl_cons, abortSummary_eq h, ih (by exact h)]
    cases xs with
    | nil => rfl
    | cons y ys =>
      simp only [abortedRetained, if_neg (List.cons_ne_nil _ _), abortEntries_cons s.retained.journalSeq x (y :: ys)]
      rw [lastEntries_append, List.append_assoc]
      have hseq (n : Nat) : ((n + [x].length) % 4294967296 + (y :: ys).length) % 4294967296
          = (n + (x :: y :: ys).length) % 4294967296 := by
        simp only [List.length_cons, List.length_nil]
        omega
      rw [hseq]
      rfl

theorem abortSummaries_eq {s : State} (h : s.time = {}) :
    abortSummaries s = { s with
      retained := { abortedRetained s.retained s.retained.summaries with summaries := [] } } := by
  unfold abortSummaries
  rw [foldl_abortSummary_eq _ h]

/-- The state at the end of step 6 of R193, before the flags latch. -/
def State.formed (s : State) (cause : ResetCause) (kept : Retained) (u v : Bool) : State :=
  abortSummaries (blocksReset { kept with cause := cause, count := countUp kept.count } u v s)

theorem formed_eq (s : State) (cause : ResetCause) (kept : Retained) (u v : Bool) :
    s.formed cause kept u v = { blocksReset kept u v s with
      retained := { abortedRetained { kept with cause := cause, count := countUp kept.count } kept.summaries with
        summaries := [] } 
      areas := formedAreas (loadedTables s.memory) kept } :=
  abortSummaries_eq rfl

theorem lookup_foldl_insertAt {α β : Type} (k : β → Nat) (new : α) (l : List β) (t : List (Nat × α)) (a : Nat) :
    lookup (l.foldl (fun acc e => insertAt acc (k e) new) t) a =
      if l.any fun e => k e == a then some new else lookup t a := by
  induction l generalizing t with
  | nil => rfl
  | cons e l ih =>
    rw [List.foldl_cons, ih, lookup_insertAt, List.any_cons]
    by_cases h : k e = a
    · simp [h]
    · simp [h, Ne.symm h]

/-- A fresh record stands for each station that is picked, and for no other address. -/
theorem lookup_freshRecords {α : Type} (q : Station → Bool) (new : α) (l : List (Nat × Station)) (a : Nat) :
    lookup (freshRecords q new l) a = if l.any fun e => q e.2 && e.2.address == a then some new else none := by
  unfold freshRecords
  rw [lookup_foldl_insertAt, List.any_filter]
  rfl

theorem getD_foldl_writeAt {α : Type} [DecidableEq α] (d : α) (g : Nat → α) (l : List Nat) (t : List (Nat × α)) (b : Nat) :
    (lookup (l.foldl (fun acc a => writeAt d acc a (g a)) t) b).getD d =
      if b ∈ l then g b else (lookup t b).getD d := by
  induction l generalizing t with
  | nil => rfl
  | cons a l ih =>
    rw [List.foldl_cons, ih, getD_writeAt]
    by_cases hb : b ∈ l
    · simp [hb]
    · by_cases ha : b = a <;> simp [hb, ha]

theorem area_formedAreas (t : Tables) (r : Retained) {a : Nat} (h : a < 16) :
    (lookup (formedAreas t r) a).getD {} = formedArea t r a := by
  unfold formedAreas
  rw [getD_foldl_writeAt, if_pos (by exact List.mem_range.2 h)]

/-! ### The flags of a start-up -/

/-- The state after the first of the two flags a start-up looks at. -/
def State.firstLatched (b : State) : State := if b.memory.valid then b else b.latch .configInvalid

theorem latchAtStart_eq (b : State) :
    latchAtStart b = if b.retained.lost then b.firstLatched.latch .retainedLost else b.firstLatched := by
  unfold latchAtStart State.firstLatched State.condition
  cases hv : b.memory.valid
  · simp
  · simp

@[simp] theorem latch_engineering (s : State) (f : StatusFlag) : (s.latch f).engineering = s.engineering := by
  simp [State.engineering]

/-- The state before the flags of a start-up latch: none is latched, and no STAT has been numbered. -/
structure Unlatched (b : State) : Prop where
  latched : b.latched = 0
  sent    : b.statSent = false
  seq     : b.statSeq = 0

section
variable {b : State}

theorem Unlatched.isLatched (h : Unlatched b) (f : StatusFlag) : b.isLatched f = false := by
  unfold State.isLatched
  rw [h.latched]
  simp

theorem firstLatched_isLatched (h : Unlatched b) {f : StatusFlag} (he : f ≠ .egressDrop) :
    b.firstLatched.isLatched f = (!b.memory.valid && decide (f = .configInvalid)) := by
  unfold State.firstLatched
  cases b.memory.valid with
  | true => simpa using h.isLatched f
  | false =>
    by_cases hf : f = .configInvalid
    · subst hf; simp
    · simpa [hf] using (latch_isLatched_of_ne b hf he).trans (h.isLatched f)

theorem latchAtStart_isLatched (h : Unlatched b) {f : StatusFlag} (he : f ≠ .egressDrop) :
    (latchAtStart b).isLatched f =
      ((!b.memory.valid && decide (f = .configInvalid)) || (b.retained.lost && decide (f = .retainedLost))) := by
  rw [latchAtStart_eq, ← firstLatched_isLatched h he]
  cases b.retained.lost with
  | false => simp
  | true =>
    by_cases hf : f = .retainedLost
    · subst hf; simp
    · simpa [hf] using latch_isLatched_of_ne _ hf he

theorem firstLatched_frame (b : State) : b.firstLatched = { b with
    plant := b.firstLatched.plant, latched := b.firstLatched.latched, statSeq := b.firstLatched.statSeq
    statSent := b.firstLatched.statSent } := by
  unfold State.firstLatched
  split
  · rfl
  · rw [latch_frame]

/-- The flags of a start-up change the plant port, the latched values and the STAT number alone. -/
theorem latchAtStart_frame (b : State) : latchAtStart b = { b with
    plant := (latchAtStart b).plant, latched := (latchAtStart b).latched, statSeq := (latchAtStart b).statSeq
    statSent := (latchAtStart b).statSent } := by
  rw [latchAtStart_eq]
  split
  · rw [latch_frame, firstLatched_frame]
  · exact firstLatched_frame b

theorem latchAtStart_engineering (b : State) : (latchAtStart b).engineering = b.engineering := by
  rw [latchAtStart_frame]; rfl

/-- The flag of a lost configuration sends STATs. -/
def State.configStats (b : State) : Bool :=
  !b.memory.valid && b.tables.params.enables.getLsbD 9 && !b.engineering.isEmpty

/-- The flag of a lost retained store sends STATs. -/
def State.lostStats (b : State) : Bool :=
  b.retained.lost && b.tables.params.enables.getLsbD 10 && !b.engineering.isEmpty

theorem startStats_latchAtStart (b : State) :
    startStats (latchAtStart b) b.retained.lost = (b.configStats || b.lostStats) := by
  have ht : (latchAtStart b).tables = b.tables := by rw [latchAtStart_frame]
  have hm : (latchAtStart b).memory = b.memory := by rw [latchAtStart_frame]
  unfold startStats State.configStats State.lostStats
  rw [latchAtStart_engineering, ht, hm]
  cases b.engineering.isEmpty <;> simp

theorem sendsStat_config (h : Unlatched b) (hv : b.memory.valid = false) : b.sendsStat .configInvalid = b.configStats := by
  simp [State.sendsStat, State.configStats, h.isLatched, hv, StatusFlag.position]

theorem sendsStat_lost (h : Unlatched b) (hl : b.retained.lost = true) :
    b.firstLatched.sendsStat .retainedLost = b.lostStats := by
  have he : b.firstLatched.engineering = b.engineering := by rw [firstLatched_frame]; rfl
  have ht : b.firstLatched.tables = b.tables := by rw [firstLatched_frame]
  unfold State.sendsStat State.lostStats
  rw [firstLatched_isLatched h (by decide), he, ht, hl]
  simp [StatusFlag.position]

theorem firstLatched_stat (h : Unlatched b) :
    b.firstLatched.statSent = b.configStats ∧ b.firstLatched.statSeq = if b.configStats then 1 else 0 := by
  unfold State.firstLatched
  cases hv : b.memory.valid with
  | true => simp [State.configStats, hv, h.sent, h.seq]
  | false => simp [latch_statSent, latch_statSeq, sendsStat_config h hv, h.sent, h.seq, wrapUp]

theorem latchAtStart_statSeq (h : Unlatched b) :
    (latchAtStart b).statSeq = if b.configStats || b.lostStats then 1 else 0 := by
  obtain ⟨hsent, hseq⟩ := firstLatched_stat h
  rw [latchAtStart_eq]
  cases hl : b.retained.lost with
  | false => simp [State.lostStats, hl, hseq]
  | true =>
    simp only [if_true, latch_statSeq, sendsStat_lost h hl, hsent, hseq]
    cases b.configStats <;> cases b.lostStats <;> simp [wrapUp]

theorem latchAtStart_plant_cases (b : State) :
    ∃ l : List OwnEntry, (latchAtStart b).plant = l.foldl Port.joinOwn b.plant := by
  have hfirst : ∃ l : List OwnEntry, b.firstLatched.plant = l.foldl Port.joinOwn b.plant := by
    unfold State.firstLatched
    split
    · exact ⟨[], rfl⟩
    · exact latch_plant_cases ..
  rw [latchAtStart_eq]
  split
  · obtain ⟨l, hl⟩ := hfirst
    obtain ⟨m, hm⟩ := latch_plant_cases .retainedLost b.firstLatched
    exact ⟨l ++ m, by rw [hm, hl, List.foldl_append]⟩
  · exact hfirst

/-! ### On a plant link that is DOWN -/

theorem firstLatched_of_noRoom (h : Unlatched b) (hr : b.plant.ownRoom = false) :
    b.firstLatched.plant = b.plant ∧ b.firstLatched.isLatched .egressDrop = b.configStats := by
  unfold State.firstLatched
  cases hv : b.memory.valid with
  | true => simp [State.configStats, hv, h.isLatched]
  | false =>
    refine ⟨latch_plant_noRoom _ _ hr, ?_⟩
    simp [latch_isLatched_eq, latchOnce_dropped_of_noRoom _ hr, sendsStat_config h hv, h.isLatched]

theorem latchAtStart_of_noRoom (h : Unlatched b) (hr : b.plant.ownRoom = false) :
    (latchAtStart b).plant = b.plant ∧ (latchAtStart b).isLatched .egressDrop = (b.configStats || b.lostStats) := by
  obtain ⟨hp, he⟩ := firstLatched_of_noRoom h hr
  rw [latchAtStart_eq]
  cases hl : b.retained.lost with
  | false => simp [State.lostStats, hl, hp, he]
  | true =>
    have hr' : b.firstLatched.plant.ownRoom = false := by rw [hp]; exact hr
    refine ⟨(latch_plant_noRoom _ _ hr').trans hp, ?_⟩
    simp [latch_isLatched_eq, latchOnce_dropped_of_noRoom _ hr', sendsStat_lost h hl, he]

/-! ### On a plant link that is UP -/

theorem latchOnce_of_unlatched {f : StatusFlag} {s : State} (hl : s.isLatched f = false) :
    (latchOnce f s).1.latched = s.latched ||| f.bit ∧
      (latchOnce f s).1.plant =
        (if s.sendsStat f then (s.withFlag f).takeStatNumber.statEntries f else []).foldl Port.joinOwn s.plant := by
  rcases latchOnce_cases f s with ⟨h, -, -⟩ | ⟨-, hs, he⟩ | ⟨-, hs, he⟩
  · rw [hl] at h; cases h
  · rw [he, hs]; exact ⟨rfl, rfl⟩
  · have heng : (s.withFlag f).takeStatNumber.engineering = s.engineering := by
      unfold State.takeStatNumber; split <;> rfl
    rw [he, hs, sendStats_eq]
    refine ⟨takeStatNumber_latched _, ?_⟩
    unfold State.statEntries
    rw [heng, takeStatNumber_plant]
    rfl

/-- A STAT of a start-up, numbered 1. -/
def startStat (t : State) (x : StatusFlag) (latched a : Nat) : OwnEntry :=
  ⟨generated t 0x42#8 a 0 1 0 [⟨0x91#8, b1 x.position ++ b2 latched⟩], false⟩

theorem generated_congr {s t : State} (h : t.tables = s.tables) (kind : Byte) (dest seat : Nat) (seq op : Half)
    (recs : List Rec) : generated t kind dest seat seq op recs = generated s kind dest seat seq op recs := by
  unfold generated State.ownAddress
  rw [h]

theorem statEntries_eq {s t : State} {f : StatusFlag} {n : Nat} (ht : t.tables = s.tables) (hseq : s.statSeq = 1)
    (hn : s.latched.toNat = n) : s.statEntries f = t.engineering.map (startStat t f n) := by
  have he : t.engineering = s.engineering := by unfold State.engineering; rw [ht]
  unfold State.statEntries startStat statTelegram
  rw [he, hseq, hn]
  refine List.map_congr_left fun a _ => ?_
  rw [generated_congr ht]
  rfl

theorem takeStatNumber_withFlag_seq {s : State} (f : StatusFlag)
    (h : (s.statSent = false ∧ s.statSeq = 0) ∨ (s.statSent = true ∧ s.statSeq = 1)) :
    (s.withFlag f).takeStatNumber.statSeq = 1 := by
  unfold State.takeStatNumber State.withFlag
  rcases h with ⟨hs, hq⟩ | ⟨hs, hq⟩ <;> simp [hs, hq, wrapUp]

/-- The telegrams of the flag of a lost configuration at a start-up. -/
def State.configEntries (b : State) : List OwnEntry :=
  if b.configStats then b.engineering.map (startStat b .configInvalid 512) else []

/-- The telegrams of the flag of a lost retained store at a start-up. -/
def State.lostEntries (b : State) : List OwnEntry :=
  if b.lostStats then b.engineering.map (startStat b .retainedLost (if b.memory.valid then 1024 else 1536)) else []

theorem firstLatched_of_room (h : Unlatched b) (hu : b.plant = { up := true }) (he : b.engineering.length ≤ 4) :
    b.firstLatched.plant = b.configEntries.foldl Port.joinOwn b.plant ∧ b.firstLatched.isLatched .egressDrop = false
      ∧ b.firstLatched.latched = if b.memory.valid then 0 else 512 := by
  unfold State.firstLatched
  cases hv : b.memory.valid with
  | true => simp [State.configEntries, State.configStats, hv, h.isLatched, h.latched]
  | false =>
    have hup : b.plant.up = true := by rw [hu]
    have hroom : b.plant.own.length + b.engineering.length ≤ Config.ownCap := by
      rw [hu]; exact (Nat.zero_add _).trans_le (he.trans (by decide))
    obtain ⟨hl, hp⟩ := latchOnce_of_unlatched (h.isLatched .configInvalid)
    refine ⟨?_, ?_, ?_⟩
    · simp only [Bool.false_eq_true, if_false]
      rw [latch_of_room _ hup hroom, hp, sendsStat_config h hv, State.configEntries]
      congr 2
      refine statEntries_eq ?_ (takeStatNumber_withFlag_seq _ (.inl ⟨h.sent, h.seq⟩)) ?_
      · unfold State.takeStatNumber; split <;> rfl
      · rw [takeStatNumber_latched]; simp only [State.withFlag, h.latched]; rfl
    · simp [latch_isLatched_eq, latchOnce_dropped_of_room _ hup hroom, h.isLatched]
    · simp only [Bool.false_eq_true, if_false]
      rw [latch_of_room _ hup hroom, hl, h.latched]
      rfl

theorem latchAtStart_of_room (h : Unlatched b) (hu : b.plant = { up := true }) (he : b.engineering.length ≤ 4) :
    (latchAtStart b).plant = (b.configEntries ++ b.lostEntries).foldl Port.joinOwn b.plant
      ∧ (latchAtStart b).isLatched .egressDrop = false := by
  obtain ⟨hp, hd, hl⟩ := firstLatched_of_room h hu he
  rw [latchAtStart_eq, List.foldl_append]
  cases hlost : b.retained.lost with
  | false => simp [State.lostEntries, State.lostStats, hlost, hp, hd]
  | true =>
    have hup : b.firstLatched.plant.up = true := by rw [hp, foldl_joinOwn_up, hu]
    have heng : b.firstLatched.engineering = b.engineering := by rw [firstLatched_frame]; rfl
    have hconfig : b.configEntries.length ≤ 4 := by
      unfold State.configEntries
      split
      · simpa using he
      · exact Nat.zero_le _
    have hroom : b.firstLatched.plant.own.length + b.firstLatched.engineering.length ≤ Config.ownCap := by
      have := foldl_joinOwn_own_length b.configEntries b.plant
      rw [← hp, hu] at this
      rw [heng]
      have hz : ({ up := true } : Port).own.length = 0 := rfl
      have hc : Config.ownCap = 128 := rfl
      omega
    have hlatched : b.firstLatched.isLatched .retainedLost = false := by
      rw [firstLatched_isLatched h (by decide)]; simp
    obtain ⟨-, hp'⟩ := latchOnce_of_unlatched hlatched
    refine ⟨?_, ?_⟩
    · simp only [if_true]
      rw [latch_of_room _ hup hroom, hp', sendsStat_lost h hlost, hp, State.lostEntries]
      congr 2
      obtain ⟨hsent, hseq⟩ := firstLatched_stat h
      refine statEntries_eq ?_ (takeStatNumber_withFlag_seq _ ?_) ?_
      · unfold State.takeStatNumber
        split <;> exact (congrArg State.tables (firstLatched_frame b)).symm
      · rw [hsent, hseq]; cases b.configStats <;> simp
      · rw [takeStatNumber_latched]
        simp only [State.withFlag, hl]
        cases b.memory.valid <;> rfl
    · simp [latch_isLatched_eq, latchOnce_dropped_of_room _ hup hroom, hd]

end

/-! ### The statement -/

theorem formed_unlatched (s : State) (cause : ResetCause) (kept : Retained) (u v : Bool) :
    Unlatched (s.formed cause kept u v) := by
  rw [formed_eq]
  exact ⟨rfl, rfl, rfl⟩

theorem startNext_forward_of_nil {q : Port} (h : q.forward = []) : q.startNext.forward = [] := by
  unfold Port.startNext
  rw [h]
  split
  · split
    · exact h
    · rfl
    · next hf => cases hf
    · next hf => cases hf
  · exact h

/-- A port that has only taken generated telegrams since it was empty. -/
theorem foldl_joinOwn_fresh (l : List OwnEntry) (q : Port) (h : q.forward = [] ∧ q.malformed = 0 ∧ q.dropped = 0) :
    (l.foldl Port.joinOwn q).forward = [] ∧ (l.foldl Port.joinOwn q).malformed = 0
      ∧ (l.foldl Port.joinOwn q).dropped = 0 := by
  induction l generalizing q with
  | nil => exact h
  | cons e l ih =>
    obtain ⟨hf, hm, hd⟩ := h
    refine ih _ ?_
    unfold Port.joinOwn
    split
    · exact ⟨startNext_forward_of_nil hf, (startNext_malformed _).trans hm, (startNext_dropped _).trans hd⟩
    · exact ⟨hf, hm, hd⟩

theorem startUp_eq (cause : ResetCause) (kept : Retained) (u v : Bool) (s : State) :
    startUp cause kept u v s = latchAtStart (s.formed cause kept u v) := rfl

theorem area_startUp (cause : ResetCause) (kept : Retained) (u v : Bool) (s : State) {a : Nat} (h : a < 16) :
    (startUp cause kept u v s).area a = formedArea (loadedTables s.memory) kept a := by
  rw [← area_formedAreas _ _ h]
  unfold State.area
  rw [startUp_eq, latchAtStart_frame, formed_eq]

theorem lookup_fresh_consoles (t : Tables) (a : Nat) :
    lookup (freshRecords Station.isConsole ({} : Console) t.stations) a
      = if t.lists .console .console a then some {} else none := lookup_freshRecords ..

theorem lookup_fresh_controllers (t : Tables) (a : Nat) :
    lookup (freshRecords Station.isController ({} : Controller) t.stations) a
      = if t.lists .controller .plant a then some {} else none := lookup_freshRecords ..

theorem startTelegrams_eq {b t : State} (ht : t.tables = b.tables) (hm : t.memory = b.memory) :
    startTelegrams t b.retained.lost = b.configEntries ++ b.lostEntries := by
  have he : t.engineering = b.engineering := by unfold State.engineering; rw [ht]
  have hstat (f : StatusFlag) (n : Nat) : startStat t f n = startStat b f n := by
    funext a
    unfold startStat
    rw [generated_congr ht]
  unfold startTelegrams State.configEntries State.lostEntries State.configStats State.lostStats
  rw [← hm, ← ht, ← he, ← hstat, ← hstat]
  cases hn : t.engineering with
  | nil => simp
  | cons a l => simp; rfl

/-- Every start-up leaves what R193 gives. -/
theorem startUp_startedUp (cause : ResetCause) (kept : Retained) (u v : Bool) (s : State) :
    StartedUp cause kept u v s (startUp cause kept u v s) := by
  have h := formed_unlatched s cause kept u v
  have hb := formed_eq s cause kept u v
  have harea {a : Nat} := area_startUp cause kept u v s (a := a)
  rw [startUp_eq] at harea ⊢
  generalize s.formed cause kept u v = b at h hb harea ⊢
  have hf := latchAtStart_frame b
  have htables : (latchAtStart b).tables = loadedTables s.memory := by rw [hf, hb]; rfl
  have hmemory : (latchAtStart b).memory = s.memory := by rw [hf, hb]; rfl
  have hretained : (latchAtStart b).retained = { abortedRetained
      { kept with cause := cause, count := countUp kept.count } kept.summaries with summaries := [] } := by rw [hf, hb]
  have hlost : b.retained.lost = kept.lost := by rw [hb]; rfl
  have hbmemory : b.memory = s.memory := by rw [hb]; rfl
  have hplant : b.plant = { up := u } := by rw [hb]; rfl
  have heng := latchAtStart_engineering b
  have hbtables : (latchAtStart b).tables = b.tables := by rw [hf]
  constructor
  case tables => exact htables
  case memory => exact hmemory
  case alarms => rw [hf, hb]; exact ⟨rfl, rfl, rfl, rfl⟩
  case areas =>
    intro a ha
    rw [harea ha, State.areaParams, htables]
    unfold formedArea
    rcases (lookup kept.areas a).getD {} with ⟨_ | holder, relief⟩ <;> rfl
  case consoles =>
    intro a
    rw [htables, ← lookup_fresh_consoles, hf, hb]
    rfl
  case controllers =>
    intro a
    rw [htables, ← lookup_fresh_controllers, hf, hb]
    rfl
  case gate => rw [hf, hb]; exact ⟨rfl, rfl⟩
  case handover => rw [hretained, hf, hb]; exact ⟨rfl, rfl, rfl⟩
  case retained => rw [hretained]; exact ⟨rfl, rfl, rfl, rfl⟩
  case journal =>
    rw [hretained]
    dsimp only [abortedRetained]
    split
    · next hs => simp [hs]
    · exact ⟨Nat.mod_mod .., rfl⟩
  case time => rw [hf, hb]; rfl
  case ports =>
    obtain ⟨l, hl⟩ := latchAtStart_plant_cases b
    obtain ⟨hfw, hm, hd⟩ := foldl_joinOwn_fresh l { up := u } ⟨rfl, rfl, rfl⟩
    rw [hplant] at hl
    refine ⟨by rw [hf, hb]; rfl, ?_, ?_, ?_, ?_, ?_, ?_⟩
    · rw [hl, foldl_joinOwn_up]
    · rw [hl, hfw]
    · rw [hl, hm]
    · rw [hl, hd]
    · rintro rfl
      rw [(latchAtStart_of_noRoom h (by rw [hplant]; rfl)).1, hplant]
    · rintro rfl he
      rw [← hlost, startTelegrams_eq hbtables (by rw [hf]), (latchAtStart_of_room h hplant (heng ▸ he)).1, hplant]
  case flags =>
    refine ⟨?_, ?_, ?_, ?_, ?_⟩
    · simp [latchAtStart_isLatched h, hbmemory]
    · simp [latchAtStart_isLatched h, hlost]
    · intro x hc hr he
      simp [latchAtStart_isLatched h he, hc, hr]
    · intro he
      rw [← hlost, startStats_latchAtStart]
      cases u with
      | false => simpa using (latchAtStart_of_noRoom h (by rw [hplant]; rfl)).2
      | true => simpa using (latchAtStart_of_room h hplant (heng ▸ he)).2
    · rw [← hlost, startStats_latchAtStart, latchAtStart_statSeq h]
  case management => rw [hf, hb]; exact ⟨rfl, rfl, rfl, rfl, rfl⟩
  case numbers => rw [hf, hb]; exact ⟨rfl, rfl⟩
  case commands => rw [hf, hb]; rfl

theorem decidingWaits_eq_false {q : Port} : decidingWaits q = false ↔
    (∀ e ∈ q.own, e.resets = false) ∧ ∀ e, q.sending = some (.own e) → e.resets = false := by
  unfold decidingWaits
  rcases q.sending with _ | (e | e) <;> simp

/-- The moment of a waiting reset has come as the model tests it (R189). -/
theorem resetDue_iff {s : State} (h : s.request = none) : resetDue s = true ↔ s.resetMoment := by
  unfold State.resetMoment
  rw [← decidingWaits_eq_false]
  simp [resetDue, h, and_assoc]

theorem settle_of_moment {s : State} (h : s.request = none) (hm : s.resetMoment) :
    settle s = systemReset .systemCommand s := by
  unfold settle takeDueReset
  rw [finishOpen_of_none _ h, if_pos ((resetDue_iff h).2 hm)]

theorem settle_of_not_moment {s : State} (h : s.request = none) (hm : ¬ s.resetMoment) : settle s = s := by
  unfold settle takeDueReset
  rw [finishOpen_of_none _ h, if_neg (mt (resetDue_iff h).1 hm)]

/-- What a power-on keeps of the retained store (R192), but for the cause, which the start-up writes. -/
theorem powerOn_startedUp (keep u v : Bool) (s : State) :
    StartedUp .powerOn (if keep then s.retained else { lost := true }) u v s
      (startUp .powerOn (checkedRetained keep s.retained) u v s) := by
  cases keep
  · exact startUp_startedUp .powerOn { lost := true } u v s
  · exact startUp_startedUp .powerOn s.retained u v s

/-- Settles O12: each of the three start-ups is one start-up event on the state it finds. -/
theorem startUpFormsTheState : Obligations.StartUpFormsTheState := by
  refine ⟨fun keep u v s hr hm => ⟨_, rfl, ?_⟩, fun s hr hm => ⟨_, rfl, ?_⟩, fun s hr hm => ?_, fun s hr hm => ?_⟩
  · rw [settle_of_not_moment hr hm]
    exact powerOn_startedUp ..
  · rw [settle_of_not_moment hr hm]
    exact startUp_startedUp ..
  · have ht : StartedUp .systemCommand s.retained s.plant.up s.console.up s (settle s) := by
      rw [settle_of_moment hr hm]
      exact startUp_startedUp ..
    obtain ⟨hconsole, hplant, -⟩ := ht.ports
    refine ⟨_, rfl, ht, ⟨_, rfl, ?_⟩, fun keep u v => ⟨_, rfl, powerOn_startedUp ..⟩⟩
    have h := startUp_startedUp .systemLine (settle s).retained (settle s).plant.up (settle s).console.up (settle s)
    rw [hplant, show (settle s).console.up = s.console.up by rw [hconsole]] at h
    unfold systemReset
    rw [hplant, show (settle s).console.up = s.console.up by rw [hconsole]]
    exact h
  · show Host.Outcome.next (settle s) = _
    rw [settle_of_not_moment hr hm]

end Sys2Proof.Machine

namespace Sys2Proof.Machine

/-! ## Numbers in fields -/

theorem natOf_b2 {n : Nat} (h : n < 65536) : natOf (b2 n) = n := by
  simp only [natOf, b2, List.foldl_cons, List.foldl_nil, BitVec.toNat_ofNat]
  omega

theorem field2_b2 {n : Nat} (h : n < 65536) (l : List Byte) : field2 (b2 n ++ l) 0 = n := natOf_b2 h

theorem field2_b2_b2 {n : Nat} (m : Nat) (h : n < 65536) (l : List Byte) : field2 (b2 m ++ (b2 n ++ l)) 2 = n := natOf_b2 h

/-! ## Ascending lists -/

theorem mem_insertNat {n m : Nat} {l : List Nat} : m ∈ insertNat n l ↔ m = n ∨ m ∈ l := by
  induction l with
  | nil => simp [insertNat]
  | cons k l ih =>
    unfold insertNat
    split
    · simp
    · split
      · next h => subst h; simp
      · simp only [List.mem_cons, ih]; tauto

theorem insertNat_sorted {n : Nat} {l : List Nat} (h : l.Pairwise (· < ·)) : (insertNat n l).Pairwise (· < ·) := by
  induction l with
  | nil => simp [insertNat]
  | cons k l ih =>
    obtain ⟨hk, hl⟩ := List.pairwise_cons.1 h
    unfold insertNat
    split
    · next hn =>
      refine List.pairwise_cons.2 ⟨fun m hm => ?_, h⟩
      rcases List.mem_cons.1 hm with rfl | hm
      · exact hn
      · exact hn.trans (hk m hm)
    · split
      · exact h
      · refine List.pairwise_cons.2 ⟨fun m hm => ?_, ih hl⟩
        rcases mem_insertNat.1 hm with rfl | hm
        · omega
        · exact hk m hm

theorem mem_ascending {n : Nat} {l : List Nat} : n ∈ ascending l ↔ n ∈ l := by
  have h : ∀ (l acc : List Nat), n ∈ l.foldl (fun acc n => insertNat n acc) acc ↔ n ∈ l ∨ n ∈ acc := by
    intro l
    induction l with
    | nil => simp
    | cons m l ih => intro acc; rw [List.foldl_cons, ih, mem_insertNat, List.mem_cons]; tauto
  simpa [ascending] using h l []

theorem ascending_nodup (l : List Nat) : (ascending l).Nodup := by
  have h : (ascending l).Pairwise (· < ·) :=
    List.foldlRecOn (motive := fun acc : List Nat => acc.Pairwise (· < ·)) _ _ .nil fun _ ih _ _ => insertNat_sorted ih
  exact h.imp fun h => h.ne

/-! ## What an alarm event leaves as it was -/

/-- The fields that no alarm event reaches. -/
def State.kept (s : State) :=
  (s.tables, s.memory, s.retained, s.dyn, s.queue, s.shelf, s.turn, s.controllers, s.commands, s.tagCounter, s.request,
    s.store, s.heldMreps, s.resetWaits, s.owed, s.freeCount, s.pending)

theorem alarmEventFrame_iff {s t : State} : AlarmEventFrame s t ↔ t.kept = s.kept := by
  constructor
  · intro h
    unfold AlarmEventFrame at h
    rw [h]
    rfl
  · intro h
    simp only [State.kept, Prod.mk.injEq] at h
    obtain ⟨h1, h2, h3, h4, h5, h6, h7, h8, h9, h10, h11, h12, h13, h14, h15, h16, h17⟩ := h
    unfold AlarmEventFrame
    exact State.ext h1 h2 h3 h4 rfl h5 h6 rfl rfl h7 h8 h9 h10 rfl rfl rfl rfl rfl rfl rfl h11 h12 h13 h14 h15 rfl h16
      h17

theorem AlarmEventFrame.trans {s t u : State} (h : AlarmEventFrame s t) (k : AlarmEventFrame t u) :
    AlarmEventFrame s u :=
  alarmEventFrame_iff.2 ((alarmEventFrame_iff.1 k).trans (alarmEventFrame_iff.1 h))

/-- The frame of an event that leaves the queue as it was. -/
theorem AlarmEventFrame.congr_queue {s t : State} {l : List QEntry} (h : AlarmEventFrame { s with queue := l } t)
    (hl : l = s.queue) : AlarmEventFrame s t := by
  subst hl; exact h

theorem kept_congr_queue {s t : State} (h : t.kept = s.kept) (l : List QEntry) :
    ({ t with queue := l } : State).kept = ({ s with queue := l } : State).kept := by
  simp only [State.kept, Prod.mk.injEq] at h ⊢
  tauto

@[simp] theorem kept_modArea (s : State) (a : Nat) (f : Area → Area) : (s.modArea a f).kept = s.kept := rfl
@[simp] theorem kept_setSlot (s : State) (i : Nat) (x : Slot) : (s.setSlot i x).kept = s.kept := rfl
@[simp] theorem kept_freeSlot (s : State) (i : Nat) : (s.freeSlot i).kept = s.kept := rfl
@[simp] theorem kept_marked (s : State) : s.marked.kept = s.kept := rfl
@[simp] theorem kept_latch (s : State) (f : StatusFlag) : (s.latch f).kept = s.kept := by simp [State.kept]
@[simp] theorem kept_report (s : State) (r : Report) : (s.report r).kept = s.kept := by simp [State.kept]
@[simp] theorem kept_sendEntry (s : State) (p : PortId) (e : OwnEntry) : (s.sendEntry p e).kept = s.kept := by
  simp [State.kept]
@[simp] theorem kept_answer (s : State) (f : Frame) (o : Nat) (r : Result) (d : List Rec) :
    (s.answer f o r d).kept = s.kept := by simp [State.kept]
@[simp] theorem kept_modConsole (s : State) (a : Nat) (f : Console → Console) : (s.modConsole a f).kept = s.kept := by
  simp [State.kept]
@[simp] theorem kept_notifyArea (s : State) (a : Nat) (n : Notice) : (s.notifyArea a n).kept = s.kept := by
  simp [State.kept]
@[simp] theorem kept_atArrival (s : State) (ms : Nat) : (s.atArrival ms).kept = s.kept := rfl
@[simp] theorem kept_taken (s : State) (ms n : Nat) (f : Frame) : (s.taken ms n f).kept = s.kept := by
  unfold State.taken; simp

/-- Outside an MREQ handing on reaches none of them. -/
theorem kept_handOn {b : State} {e : Ev} {xs : List ShelfEvent} (h : e.s.request = none) :
    (handOn b e xs).kept = e.s.kept := by
  simp [State.kept, handOn_request, h]

/-! ## Areas after handing on -/

theorem area_foldl_modArea (f : Area → Area) {l : List Nat} (hl : l.Nodup) (s : State) (b : Nat) :
    (l.foldl (fun acc a => acc.modArea a f) s).area b = if b ∈ l then f (s.area b) else s.area b := by
  induction l generalizing s with
  | nil => rfl
  | cons a l ih =>
    obtain ⟨ha, hl⟩ := List.nodup_cons.1 hl
    rw [List.foldl_cons, ih hl, area_modArea]
    by_cases hb : b = a
    · subst hb; simp [ha]
    · simp [hb]

theorem handOn_areas (b : State) (e : Ev) (xs : List ShelfEvent) :
    (handOn b e xs).areas = (advanceGenerations (namedAreas e.changes) e.s).areas := by
  unfold handOn
  dsimp only
  split
  · rw [engineEvent_frame]
  · rw [evaluateHorns_frame, queueNewAlarms_frame, engineEvent_frame]

/-- Outside an MREQ each area that a slot change names advances its generation once, and no other (R16). -/
theorem handOn_area {b : State} {e : Ev} {xs : List ShelfEvent} (h : e.s.request = none) (a : Nat) :
    (handOn b e xs).area a =
      if a ∈ e.changes.map (·.area) then { e.s.area a with generation := ((e.s.area a).generation + 1) % 65536 }
      else e.s.area a := by
  rw [area_congr (handOn_areas b e xs), advanceGenerations_of_none _ _ h,
    area_foldl_modArea _ (l := namedAreas e.changes) (ascending_nodup _)]
  simp only [namedAreas, mem_ascending]
  rfl

theorem handOn_areasKept {b : State} {e : Ev} {xs : List ShelfEvent} (h : e.s.request = none) :
    AreasKept e.s (handOn b e xs) := by
  intro a
  rw [handOn_area h]
  split <;> rfl

theorem handOn_oneGeneration {b : State} {e : Ev} {xs : List ShelfEvent} (h : e.s.request = none) {a : Nat}
    (ha : ∀ c, c ∈ e.changes.map (·.area) ↔ c = a) : OneGeneration a e.s (handOn b e xs) := by
  intro c
  rw [handOn_area h]
  simp only [ha]
  split <;> rfl

theorem AreasKept.congr {s s' t t' : State} (hs : s'.areas = s.areas) (ht : t'.areas = t.areas) (h : AreasKept s t) :
    AreasKept s' t' := fun a => by rw [area_congr hs, area_congr ht]; exact h a

theorem OneGeneration.congr {s s' t t' : State} {a : Nat} (hs : s'.areas = s.areas) (ht : t'.areas = t.areas)
    (h : OneGeneration a s t) : OneGeneration a s' t' := fun b => by rw [area_congr hs, area_congr ht]; exact h b

/-! ## Consoles after an event -/

theorem ConsolesKept.refl (s : State) : ConsolesKept s s := fun _ => rfl

theorem ConsolesKept.trans {s t u : State} (h : ConsolesKept s t) (k : ConsolesKept t u) : ConsolesKept s u :=
  fun a => (k a).trans (h a)

theorem ConsolesKept.of_eq {s t : State} (h : t.consoles = s.consoles) : ConsolesKept s t := fun a => by rw [h]

theorem modConsole_consolesKept (s : State) (a : Nat) {f : Console → Console} (hf : ∀ c, (f c).bare = c.bare) :
    ConsolesKept s (s.modConsole a f) := by
  intro b
  rw [lookup_modConsole]
  split
  · next h => subst h; cases lookup s.consoles b <;> simp [hf]
  · rfl

theorem ConsolesKept.foldl {α : Type} {f : State → α → State} (h : ∀ s a, ConsolesKept s (f s a)) (l : List α)
    (s : State) : ConsolesKept s (l.foldl f s) := by
  induction l generalizing s with
  | nil => exact .refl s
  | cons a l ih => exact (h s a).trans (ih _)

theorem take_bare (c : Console) (n : Notice) : (c.take n).bare = c.bare := by
  unfold Console.take
  split <;> rfl

theorem notify_consolesKept (s : State) (a : Nat) (n : Notice) : ConsolesKept s (s.notify a n) :=
  modConsole_consolesKept s a fun c => take_bare c n

theorem notifyArea_consolesKept (s : State) (a : Nat) (n : Notice) : ConsolesKept s (s.notifyArea a n) :=
  .foldl (fun s a => notify_consolesKept s a n) _ s

theorem setHorn_consolesKept (s : State) (a : Nat) (h : Horn) : ConsolesKept s (s.setHorn a h) := by
  unfold State.setHorn
  split
  · split
    · exact .refl s
    · exact (modConsole_consolesKept s a (f := fun c => { c with horn := h }) fun _ => rfl).trans
        (notify_consolesKept _ _ _)
  · exact .refl s

theorem hornStep_consolesKept (b : State) (cs : List SlotChange) (s : State) (a : Nat) :
    ConsolesKept s (hornStep b cs s a) := by
  unfold hornStep State.hornStep2
  split
  · split
    · exact setHorn_consolesKept _ _ _
    · split
      · split
        · exact setHorn_consolesKept _ _ _
        · exact .refl s
      · exact .refl s
  · exact .refl s

theorem engineEvent_consolesKept (cs : List SlotChange) (xs : List ShelfEvent) (s : State) :
    ConsolesKept s (engineEvent cs xs s) := by
  rw [engineEvent_eq]
  refine .foldl (fun t h => ?_) _ s
  unfold reviewRecord
  dsimp only
  split
  · exact (ConsolesKept.of_eq rfl).trans (notify_consolesKept _ _ _)
  · exact .of_eq rfl

theorem handOn_consolesKept (b : State) (e : Ev) (xs : List ShelfEvent) : ConsolesKept e.s (handOn b e xs) := by
  have h : ConsolesKept e.s (engineEvent e.changes xs (advanceGenerations (namedAreas e.changes) e.s)) :=
    (ConsolesKept.of_eq (by rw [advanceGenerations_frame])).trans (engineEvent_consolesKept _ _ _)
  unfold handOn
  dsimp only
  split
  · exact h
  · refine (h.trans ?_).trans (.foldl (fun s a => hornStep_consolesKept b e.changes s a) _ _)
    refine .foldl (fun s a => ?_) _ _
    split
    · exact .refl s
    · exact notifyArea_consolesKept _ _ _

/-! ## Records after handing on -/

theorem setRecord_of_mem {s : State} (hn : (s.records.map fun h => h.number).Nodup) {h : Handover}
    (hm : h ∈ s.records) : s.setRecord h = s := by
  have hr : (s.records.map fun x => if x.number == h.number then h else x) = s.records := by
    rw [List.map_congr_left (g := id), List.map_id]
    intro x hx
    split
    · next he => exact (List.inj_on_of_nodup_map hn hx hm (by simpa using he)).symm
    · rfl
  unfold State.setRecord
  rw [hr]

/-- An event that no review list takes leaves the records as they are. -/
theorem engineEvent_of_unreviewed {cs : List SlotChange} {xs : List ShelfEvent} {s : State}
    (hn : (s.records.map fun h => h.number).Nodup) (hr : ∀ h, reviewEvent s cs xs h = (h, false)) :
    engineEvent cs xs s = s := by
  rw [engineEvent_eq]
  refine List.foldlRecOn (motive := fun t : State => t = s) _ _ rfl fun t ht h hm => ?_
  unfold reviewRecord
  rw [hr, ht]
  exact setRecord_of_mem hn hm

theorem handOn_records_of_unreviewed {b : State} {e : Ev} {xs : List ShelfEvent}
    (hn : (e.s.records.map fun h => h.number).Nodup) (hr : ∀ s h, reviewEvent s e.changes xs h = (h, false)) :
    (handOn b e xs).records = e.s.records := by
  have hrec : (advanceGenerations (namedAreas e.changes) e.s).records = e.s.records := by rw [advanceGenerations_frame]
  have h := engineEvent_of_unreviewed (s := advanceGenerations (namedAreas e.changes) e.s) (by rw [hrec]; exact hn)
    (hr _)
  unfold handOn
  dsimp only
  rw [h]
  split
  · exact hrec
  · rw [evaluateHorns_frame, queueNewAlarms_frame]; exact hrec

/-! ## Slots found by their point -/

/-- A slot rewritten for its point is the one the point is found in. -/
theorem slotOf_setSlot {s : State} {p i : Nat} {sl new : Slot} (h : s.slotOf p = some (i, sl)) (hp : new.point = p) :
    (s.setSlot i new).slotOf p = some (i, new) := by
  have hf : ∀ t : List (Nat × Slot), (t.find? fun e => e.2.point == p) = some (i, sl) →
      ((insertAt t i new).find? fun e => e.2.point == p) = some (i, new) := by
    intro t
    induction t with
    | nil => simp
    | cons e t ih =>
      obtain ⟨k, v⟩ := e
      intro ht
      unfold insertAt
      split
      · simp [hp]
      · split
        · simp [hp]
        · next hlt hne =>
          rw [List.find?_cons] at ht ⊢
          split at ht
          · cases ht; exact absurd rfl hne
          · exact ih ht
  exact hf _ h

end Sys2Proof.Machine

namespace Sys2Proof.Machine

/-! ## Requests as their owner finds them (R92) -/

theorem request_of_countedFrom {s : State} {f : Frame} {op : Nat} (h : countedFrom s f op = true) : s.request = none := by
  simp only [countedFrom, fromAttached, arrives, Bool.and_eq_true, ready_iff, settled_iff] at h
  obtain ⟨⟨⟨⟨⟨⟨hr, -⟩, -⟩, -⟩, -⟩, -⟩, -⟩ := h
  exact hr

@[simp] theorem taken_request (s : State) (ms n : Nat) (f : Frame) : (s.taken ms n f).request = s.request := by
  unfold State.taken; simp

@[simp] theorem taken_arepSeq (s : State) (ms n : Nat) (f : Frame) : (s.taken ms n f).arepSeq = s.arepSeq := by
  unfold State.taken; simp

@[simp] theorem pointDef_taken (s : State) (ms n p : Nat) (f : Frame) : (s.taken ms n f).pointDef p = s.pointDef p :=
  pointDef_congr (by simp) p

/-- A telegram keeps the time base within its ranges. -/
theorem taken_time_sound {s : State} (h : s.time.Sound) (ms n : Nat) (f : Frame) : (s.taken ms n f).time.Sound := by
  obtain ⟨h1, h2, h3, h4, h5, h6⟩ := h
  have ht : (s.taken ms n f).time = (s.atArrival ms).time := State.modConsole_time ..
  rw [ht]
  exact ⟨h1, h2, h3, h4, max_le h5 (min_le_right ..), h6⟩

theorem consoleAtLeast_taken (s : State) (ms n : Nat) (f : Frame) (k : ConsoleClass) :
    (s.taken ms n f).consoleAtLeast f.source.toNat k = s.consoleAtLeast f.source.toNat k := by
  unfold State.consoleAtLeast
  rw [lookup_taken]
  cases lookup s.consoles f.source.toNat <;> rfl

theorem hasRight_congr {s t : State} (h : t.tables = s.tables) (op a : Nat) (l : RightLevel) :
    t.hasRight op a l = s.hasRight op a l := by
  unfold State.hasRight State.operatorEntry; rw [h]

theorem holds_congr {s t : State} (h : t.areas = s.areas) (op a : Nat) : t.holds op a = s.holds op a := by
  unfold State.holds; rw [area_congr h]

theorem known_congr {s t : State} (h : t.tables = s.tables) (p : Nat) : known t p = known s p := by
  unfold known; rw [pointDef_congr (congrArg Tables.points h)]

theorem stateRec_congr {s t : State} (hs : t.slots = s.slots) (hq : t.queue = s.queue) (p : Nat) :
    stateRec t p = stateRec s p := by
  unfold stateRec slotView; rw [slotOf_congr hs, queued_congr hq]

@[simp] theorem stateRec_taken (s : State) (ms n p : Nat) (f : Frame) : stateRec (s.taken ms n f) p = stateRec s p :=
  stateRec_congr (taken_slots ..) (taken_queue ..) p

/-- The answer to a request, where the tables are those the request found. -/
theorem reply_eq {s t : State} (h : t.tables = s.tables) (f : Frame) (op : Nat) (r : Result) (d : List Rec) :
    reply f (senderOf f op) r d t = t.sendEntry .console (respTo s f op r d) := by
  unfold reply State.answer State.respond State.send senderOf respTo
  rw [generated_congr h]

theorem oreqData_of_recs {f : Frame} {code : Byte} {d : List Byte} (h : f.recs = [⟨code, d⟩]) {n : Nat}
    (hn : d.length = n) : oreqData code n f = some d := by
  unfold oreqData; rw [h]; simp [hn]

/-! ## Checks in their order -/

theorem firstFailing_nil : firstFailing [] = none := rfl

theorem firstFailing_cons (ok : Bool) (r : Result) (l : List (Bool × Result)) :
    firstFailing ((ok, r) :: l) = if !ok then some r else firstFailing l := by
  cases ok <;> rfl

/-! ## What an answered event leaves -/

theorem sendEntry_console_plant_of_room {s : State} (h : s.console.ownRoom = true) (e : OwnEntry) :
    (s.sendEntry .console e).plant = s.plant := by
  unfold State.sendEntry
  rw [if_pos (show (s.port .console).ownRoom = true from h)]
  rfl

theorem arepAt_congr {s t : State} (ht : t.tables = s.tables) (hn : t.arepSeq = s.arepSeq) (now : Stamp) (r : Report) :
    arepAt t now r = arepAt s now r := by
  unfold arepAt
  rw [generated_congr ht, hn]

theorem reportedAnswered_consolesKept {s : State} (r : Report) (e : OwnEntry) :
    ConsolesKept s ((s.report r).sendEntry .console e) := .of_eq (by simp)

theorem reportedAnswered_plant {s : State} (h : s.console.ownRoom = true) (r : Report) (e : OwnEntry) :
    ((s.report r).sendEntry .console e).plant = s.plant.joinOwn (arepAt s s.stamp r) := by
  rw [sendEntry_console_plant_of_room (by simpa using h), report_plant]

/-! ## A freed slot -/

/-- A point whose slot is freed is at the alarm table no more. -/
theorem freeSlot_absent {s : State} (hs : s.AlarmTableSound) {i : Nat} {sl : Slot} (hm : (i, sl) ∈ s.slots) :
    Absent sl.point (s.freeSlot i) := by
  obtain ⟨hk, -, hn, -⟩ := hs
  obtain ⟨hslots, -, hdisjoint⟩ := List.nodup_append.1 hn
  refine absent_iff.2 ⟨fun x hx he => ?_, fun q hq he => ?_⟩
  · have hp := ((perm_removeAt hk hm).map fun e => e.2.point).nodup_iff.1 hslots
    exact (List.nodup_cons.1 hp).1 (List.mem_map.2 ⟨x, hx, he⟩)
  · exact hdisjoint _ (List.mem_map_of_mem hm) _ (List.mem_map_of_mem hq) he.symm

theorem stateRec_of_slot {s : State} {p i : Nat} {sl : Slot} (h : s.slotOf p = some (i, sl)) :
    stateRec s p = ⟨0x71#8, b2 p ++ b2 sl.occ ++ b1 sl.state.code⟩ := by
  unfold stateRec slotView
  rw [h]

theorem stateRec_of_absent {s : State} {p : Nat} (h : Absent p s) : stateRec s p = ⟨0x71#8, b2 p ++ b2 0 ++ b1 0⟩ := by
  obtain ⟨hs, hq⟩ := h
  unfold stateRec slotView
  rw [hs, hq]
  rfl

/-- The slot change of a freed slot (R10, R15). -/
def freedChange (s : State) (i : Nat) (sl : Slot) (k : ChangeKind) (o : Origin) : SlotChange :=
  { kind := k, point := sl.point, area := (s.pointDef sl.point).area, slot := some i, oldState := some sl.state
    oldOcc := some sl.occ, origin := some o }

theorem freeAndAdmit_of_nil {i : Nat} {sl : Slot} {k : ChangeKind} {o : Origin} {s : State} (h : s.queue = []) :
    freeAndAdmit i sl k o { s := s } = { s := s.freeSlot i, changes := [freedChange s i sl k o] } :=
  admitHead_of_nil h

theorem freeAndAdmit_of_cons {i : Nat} {sl : Slot} {k : ChangeKind} {o : Origin} {s : State} {q : QEntry}
    {rest : List QEntry} (h : s.queue = q :: rest) :
    freeAndAdmit i sl k o { s := s } =
      { s := { (s.freeSlot i).marked with queue := rest
                                          slots := insertAt (removeAt s.slots i) i (admittedSlot (s.freeSlot i) q) }
        changes := [freedChange s i sl k o, admissionChange (s.freeSlot i) i q] } :=
  admitHead_of_cons (e := ({ s := s } : Ev).push (s.freeSlot i) (freedChange s i sl k o)) h

/-! ## ACK (R56 to R59) -/

theorem ackRefusal_taken (s : State) (ms n op p : Nat) (f : Frame) :
    ackRefusal (senderOf f op) p (s.taken ms n f) = firstFailing (ackChecks s f op p) := by
  have ht := taken_tables s ms n f
  unfold ackRefusal ackChecks classOf senderOf
  dsimp only
  rw [consoleAtLeast_taken, known_congr ht, pointDef_congr (congrArg Tables.points ht), hasRight_congr ht,
    urgentAllowed_eq, urgentPermitted_congr ⟨taken_areas .., ht⟩]
  simp only [firstFailing_cons, firstFailing_nil, Bool.not_or, bne, Bool.not_not]

section
variable {ms op p n : Nat} {f : Frame} {s : State} (hc : countedFrom s f op = true)
  (hr : f.recs = [⟨0x21#8, b2 p ++ b2 n⟩]) (hp : p < 65536)
include hc hr hp

/-- A refused ACK is answered with the first failing check and changes nothing else (R56). -/
theorem exec_ack_of_refused {r : Result} (h : firstFailing (ackChecks s f op p) = some r) :
    exec (.ack ms f) s = .next ((s.taken ms 1 f).sendEntry .console (respTo s f op r [stateRec s p])) := by
  refine congrArg Host.Outcome.next ((oreq_of_counted hc ms _).trans ?_)
  unfold takeAck
  rw [oreqData_of_recs (n := 4) hr rfl]
  dsimp only
  rw [field2_b2 hp, ackRefusal_taken, h]
  dsimp only
  rw [reply_eq (taken_tables ..), stateRec_taken]

/-- An ACK past its checks is matched and answered with what the matching leaves (R58). -/
theorem exec_ack_of_matched (hn : n < 65536) {r : Result} {t : State} (h : firstFailing (ackChecks s f op p) = none)
    (hm : matchAck (senderOf f op) p n (s.taken ms 1 f) = (r, t)) (ht : t.tables = s.tables) :
    exec (.ack ms f) s = .next (t.sendEntry .console (respTo s f op r [stateRec t p])) := by
  refine congrArg Host.Outcome.next ((oreq_of_counted hc ms _).trans ?_)
  have h2 : field2 (b2 p ++ b2 n) 2 = n := by simpa using field2_b2_b2 p hn []
  unfold takeAck
  rw [oreqData_of_recs (n := 4) hr rfl]
  dsimp only
  rw [field2_b2 hp, ackRefusal_taken, h]
  dsimp only
  rw [h2, hm]
  exact reply_eq ht ..

end

theorem matchAck_of_absent {q : Requester} {p n : Nat} {s : State} (h : s.slotOf p = none) :
    matchAck q p n s = (.notPending, s) := by
  unfold matchAck; rw [h]

section
variable {q : Requester} {p n i : Nat} {sl : Slot} {s : State} (h : s.slotOf p = some (i, sl))
include h

theorem matchAck_of_acked (ha : sl.state = .activeAcked) : matchAck q p n s = (.notPending, s) := by
  unfold matchAck; rw [h]; simp [ha]

theorem matchAck_of_stale (ha : sl.state ≠ .activeAcked) (hn : sl.occ ≠ n) : matchAck q p n s = (.staleAck, s) := by
  unfold matchAck; rw [h]; simp [ha, hn]

theorem matchAck_of_match (ha : sl.state ≠ .activeAcked) (hn : sl.occ = n) :
    matchAck q p n s = (.ok, acknowledge q i sl s) := by
  unfold matchAck; rw [h]; simp [ha, hn]

end

/-- The AREP of an acknowledgement (R64). -/
def ackReport (q : Requester) (sl : Slot) (s : State) : Report :=
  { action := .ack, point := sl.point, area := (s.pointDef sl.point).area, occ := some sl.occ
    stateAfter := some (if sl.state = .activeUnack then AlarmState.activeAcked.code else 0), actor := some q.actor }

theorem acknowledge_eq (q : Requester) (i : Nat) (sl : Slot) (s : State) :
    acknowledge q i sl s = (handOn s (applyAck i sl q.operator { s := s }) []).report (ackReport q sl s) := rfl

/-- The slot of an acknowledged active alarm (R10). -/
def ackedSlot (sl : Slot) (op : Nat) (now : Stamp) : Slot :=
  { sl with state := .activeAcked, last := now, ackOp := some op }

/-- The slot change of an acknowledged active alarm (R15). -/
def ackedChange (i : Nat) (sl : Slot) (s : State) : SlotChange :=
  { kind := .ack, point := sl.point, area := (s.pointDef sl.point).area, slot := some i, oldState := some sl.state
    newState := some .activeAcked, oldOcc := some sl.occ, newOcc := some sl.occ, origin := some .ack }

theorem applyAck_of_active {i op : Nat} {sl : Slot} {s : State} (h : sl.state = .activeUnack) :
    applyAck i sl op { s := s } =
      { s := s.marked.setSlot i (ackedSlot sl op s.stamp), changes := [ackedChange i sl s] } := by
  unfold applyAck; rw [h]; rfl

theorem applyAck_of_returned {i op : Nat} {sl : Slot} {s : State} (h : sl.state = .returnedUnack) :
    applyAck i sl op { s := s } = freeAndAdmit i sl .free .ack { s := s } := by
  unfold applyAck; rw [h]

/-- An acknowledgement of an active alarm is nothing to a review list (R127). -/
theorem reviewEvent_of_acked (t s : State) (i : Nat) (sl : Slot) (h : Handover) :
    reviewEvent t [ackedChange i sl s] [] h = (h, false) := by
  simp [reviewEvent, reviewChange, ackedChange, SlotChange.newOccurrence]

theorem admitHead_frame (i : Nat) (e : Ev) : (admitHead i e).s =
    { e.s with slots := (admitHead i e).s.slots, queue := (admitHead i e).s.queue, time := (admitHead i e).s.time } := by
  cases hq : e.s.queue with
  | nil => rw [admitHead_of_nil hq]
  | cons q rest => rw [admitHead_of_cons hq]; rfl

/-- The alarm table's part of an acknowledgement reaches slots, queue and high mark alone. -/
theorem applyAck_frame (i : Nat) (sl : Slot) (op : Nat) (s : State) : (applyAck i sl op { s := s }).s =
    { s with slots := (applyAck i sl op { s := s }).s.slots, queue := (applyAck i sl op { s := s }).s.queue
             time := (applyAck i sl op { s := s }).s.time } := by
  cases h : sl.state with
  | activeUnack => rw [applyAck_of_active h]; rfl
  | activeAcked => unfold applyAck; rw [h]
  | returnedUnack => rw [applyAck_of_returned h]; exact admitHead_frame ..

theorem matchAck_tables (q : Requester) (p n : Nat) (s : State) : (matchAck q p n s).2.tables = s.tables := by
  unfold matchAck
  split
  · rfl
  · split
    · rfl
    · split
      · rfl
      · rw [acknowledge_eq, State.report_tables, handOn_tables, applyAck_frame]

/-- What the ACK of the occurrence shown leaves, where `e` is the alarm table's part of its event: the slots and the queue
of `e`, an advanced generation for each area that a slot change names, one AREP and one RESP. -/
structure AckedBy (ms op p : Nat) (f : Frame) (s : State) (sl : Slot) (e : Ev) (t : State) : Prop where
  slots : t.slots = e.s.slots
  queue : t.queue = e.s.queue
  oneGeneration : ∀ a, (∀ c, c ∈ e.changes.map (·.area) ↔ c = a) → OneGeneration a s t
  areas : AreasKept s t
  records : (s.records.map fun h => h.number).Nodup → (∀ u h, reviewEvent u e.changes [] h = (h, false)) →
    t.records = s.records
  frame : AlarmEventFrame { s with queue := e.s.queue } t
  consoles : ConsolesKept (s.taken ms 1 f) t
  console : t.console = s.console.joinOwn (respTo s f op .ok [stateRec e.s p])
  plant : e.s.stamp = s.stampAt ms → s.console.ownRoom = true →
    t.plant = s.plant.joinOwn (arepOf s ms (ackReport (senderOf f op) sl s))

theorem acknowledged_ackedBy {ms op p i : Nat} {f : Frame} {s : State} {sl : Slot} {e : Ev}
    (he : applyAck i sl op { s := s.taken ms 1 f } = e) (hr : s.request = none) :
    AckedBy ms op p f s sl e ((acknowledge (senderOf f op) i sl (s.taken ms 1 f)).sendEntry .console
      (respTo s f op .ok [stateRec (acknowledge (senderOf f op) i sl (s.taken ms 1 f)) p])) := by
  have hs : e.s = { s.taken ms 1 f with slots := e.s.slots, queue := e.s.queue, time := e.s.time } := by
    rw [← he]; exact applyAck_frame ..
  have hreq : e.s.request = none := by rw [hs]; simpa using hr
  have hareas : e.s.areas = s.areas := by rw [hs]; simp
  have hcons : e.s.console = s.console := by rw [hs]; simp
  rw [acknowledge_eq, show (senderOf f op).operator = op from rfl, he]
  constructor
  case slots => simp
  case queue => simp
  case oneGeneration =>
    exact fun a ha => (handOn_oneGeneration (b := s.taken ms 1 f) (xs := []) hreq ha).congr hareas.symm (by simp)
  case areas => exact (handOn_areasKept (b := s.taken ms 1 f) (xs := []) hreq).congr hareas.symm (by simp)
  case records =>
    intro hn hu
    have hrec : e.s.records = s.records := by rw [hs]; simp
    rw [State.sendEntry_records, State.report_records, handOn_records_of_unreviewed (by rwa [hrec]) hu, hrec]
  case frame =>
    rw [alarmEventFrame_iff, kept_sendEntry, kept_report, kept_handOn hreq, hs]
    exact kept_congr_queue (kept_taken s ms 1 f) _
  case consoles =>
    exact (ConsolesKept.of_eq (by rw [hs])).trans
      ((handOn_consolesKept _ e []).trans (reportedAnswered_consolesKept _ _))
  case console =>
    rw [sendEntry_console_console, report_console, handOn_console, hcons,
      stateRec_congr (s := e.s) (by simp) (by simp)]
  case plant =>
    intro hst hroom
    have hseq : e.s.arepSeq = s.arepSeq := by rw [hs]; simp
    have htab : e.s.tables = s.tables := by rw [hs]; simp
    have hplant : e.s.plant = s.plant := by rw [hs]; simp
    rw [reportedAnswered_plant (by rwa [handOn_console, hcons]),
      arepAt_congr (s := s) ((handOn_tables ..).trans htab) ((handOn_arepSeq ..).trans hseq), handOn_plant, hplant,
      stamp_congr (handOn_time ..), hst, arepOf]
    simp [ackReport]

/-- The ACK of the occurrence shown, as the alarm table's part `e` of it leaves it (R58, R59). -/
theorem exec_ack_acknowledges {ms op p n i : Nat} {f : Frame} {s : State} {sl : Slot} {e : Ev}
    (hc : countedFrom s f op = true) (hr : f.recs = [⟨0x21#8, b2 p ++ b2 n⟩]) (hp : p < 65536) (hn : n < 65536)
    (h : firstFailing (ackChecks s f op p) = none) (hs : s.slotOf p = some (i, sl)) (ha : sl.state ≠ .activeAcked)
    (ho : sl.occ = n) (he : applyAck i sl op { s := s.taken ms 1 f } = e) :
    ∃ t, exec (.ack ms f) s = .next t ∧ AckedBy ms op p f s sl e t := by
  have hs' : (s.taken ms 1 f).slotOf p = some (i, sl) := (slotOf_congr (taken_slots ..) p).trans hs
  have hm := matchAck_of_match (q := senderOf f op) hs' ha ho
  have ht : (acknowledge (senderOf f op) i sl (s.taken ms 1 f)).tables = s.tables := by
    have h := matchAck_tables (senderOf f op) p n (s.taken ms 1 f)
    rw [hm] at h
    exact h.trans (taken_tables ..)
  exact ⟨_, exec_ack_of_matched hc hr hp hn h hm ht, acknowledged_ackedBy he (request_of_countedFrom hc)⟩

/-- Checks 2 to 4 passed, an ACK is refused by the authority of an URGENT point alone (R56, R57). -/
theorem firstFailing_ackChecks {s : State} {f : Frame} {op p : Nat} (hp : p < 8192)
    (hd : (s.pointDef p).defined = true) (hk : classOf s f .ack = true)
    (hr : s.hasRight op (s.pointDef p).area .ack = true) :
    firstFailing (ackChecks s f op p) =
      if (s.pointDef p).priority = .urgent ∧ urgentPermitted s op (s.pointDef p).area = false then
        some .deniedAuthority
      else none := by
  have hkn : known s p = true := by
    have : p < Config.pointCount := hp
    simp [known, this, hd]
  unfold ackChecks
  simp only [firstFailing_cons, firstFailing_nil, hk, hkn, hr, Bool.not_true, Bool.false_eq_true, if_false]
  simp

theorem urgentPermitted_iff {s : State} {op a : Nat} : urgentPermitted s op a = true ↔
    s.hasRole op .shiftLead = true ∨ ((s.area a).authority = .held ∧ ∃ h, (s.area a).holder = some h ∧ h.operator = op) := by
  rw [← urgentAllowed_eq]
  simp only [urgentAllowed, State.holds, Bool.or_eq_true, Bool.and_eq_true, beq_iff_eq, Option.any_eq_true]
  exact or_comm

/-- Settles O34: the checks in their order, the authority of an URGENT point, and the three matched cases by what the alarm
table's part of the event leaves. -/
theorem acknowledgementIsMatched : Obligations.AcknowledgementIsMatched := by
  intro ms op p n f s hc hr hp hn
  refine ⟨fun hp' hd hk hright => ⟨fun hu hl hh => ?_, fun hperm => ?_⟩, fun r h => exec_ack_of_refused hc hr hp h,
    fun h => ⟨fun hs => ?_, fun i sl hs => ⟨fun ha => ?_, fun ha ho => ?_, fun ha ho => ?_, fun ha ho hq hsound => ?_,
      fun q rest ha ho hq hsound => ?_⟩⟩⟩
  · have hno : urgentPermitted s op (s.pointDef p).area = false := by
      rw [← Bool.not_eq_true, urgentPermitted_iff]
      rintro (h | ⟨h1, h, h2, h3⟩)
      · simp [hl] at h
      · exact hh.elim (fun k => k h1) fun k => k h h2 h3
    exact exec_ack_of_refused hc hr hp (by rw [firstFailing_ackChecks hp' hd hk hright, if_pos ⟨hu, hno⟩])
  · have hyes : ¬((s.pointDef p).priority = .urgent ∧ urgentPermitted s op (s.pointDef p).area = false) := by
      rintro ⟨hu, hno⟩
      rw [← Bool.not_eq_true, urgentPermitted_iff] at hno
      exact hperm.elim (fun k => k hu) hno
    exact exec_ack_of_matched hc hr hp hn (by rw [firstFailing_ackChecks hp' hd hk hright, if_neg hyes]) rfl
      ((matchAck_tables ..).trans (taken_tables ..))
  · have hs' : (s.taken ms 1 f).slotOf p = none := (slotOf_congr (taken_slots ..) p).trans hs
    rw [exec_ack_of_matched hc hr hp hn h (matchAck_of_absent hs') (taken_tables ..), stateRec_taken]
    unfold stateRec slotView
    rw [hs]
  · have hs' : (s.taken ms 1 f).slotOf p = some (i, sl) := (slotOf_congr (taken_slots ..) p).trans hs
    rw [exec_ack_of_matched hc hr hp hn h (matchAck_of_acked hs' ha) (taken_tables ..), stateRec_taken,
      stateRec_of_slot hs, ha]
    rfl
  · have hs' : (s.taken ms 1 f).slotOf p = some (i, sl) := (slotOf_congr (taken_slots ..) p).trans hs
    rw [exec_ack_of_matched hc hr hp hn h (matchAck_of_stale hs' ha ho) (taken_tables ..), stateRec_taken,
      stateRec_of_slot hs]
  · obtain ⟨t, ht, hk⟩ := exec_ack_acknowledges hc hr hp hn h hs (by simp [ha]) ho (applyAck_of_active ha)
    obtain ⟨-, rfl⟩ := mem_of_slotOf hs
    refine ⟨t, ht, ?_, fun j hj => ?_, hk.oneGeneration _ ?_, hk.areas, hk.consoles, ?_, fun hsound hroom => ?_,
      fun hnd => hk.records hnd fun u h => reviewEvent_of_acked .., ?_⟩
    · rw [hk.slots, ← taken_stamp s ms 1 f]
      exact lookup_insertAt_self ..
    · rw [hk.slots]
      exact (lookup_insertAt_of_ne _ hj _).trans (by simp)
    · simp [ackedChange]
    · have hst := stateRec_of_slot (slotOf_setSlot (s := (s.taken ms 1 f).marked)
        (new := ackedSlot sl op (s.taken ms 1 f).stamp) ((slotOf_congr (taken_slots ..) _).trans hs) rfl)
      rw [hk.console, ← ho]
      exact congrArg (fun r => s.console.joinOwn (respTo s f op .ok [r])) hst
    · rw [hk.plant ((stamp_marked (taken_time_sound hsound ms 1 f)).trans (taken_stamp ..)) hroom, ← ho]
      simp [ackReport, ha, Requester.actor, senderOf, AlarmState.code]
    · exact hk.frame.congr_queue (taken_queue ..)
  · obtain ⟨t, ht, hk⟩ := exec_ack_acknowledges hc hr hp hn h hs (by simp [ha]) ho
      ((applyAck_of_returned ha).trans (freeAndAdmit_of_nil ((taken_queue ..).trans hq)))
    obtain ⟨hm, rfl⟩ := mem_of_slotOf hs
    refine ⟨t, ht, ?_, fun j hj => ?_, hk.oneGeneration _ ?_, hk.areas, hk.consoles, ?_, fun _ hroom => ?_, ?_⟩
    · rw [hk.slots]
      exact lookup_removeAt_self ..
    · rw [hk.slots]
      exact (lookup_removeAt_of_ne _ hj).trans (by simp)
    · simp [freedChange]
    · rw [hk.console, stateRec_congr (s := s.freeSlot i) (by simp) (by simp),
        stateRec_of_absent (freeSlot_absent hsound hm)]
    · rw [hk.plant (taken_stamp s ms 1 f) hroom, ← ho]
      simp [ackReport, ha, Requester.actor, senderOf]
    · exact hk.frame.congr_queue (taken_queue ..)
  · obtain ⟨t, ht, hk⟩ := exec_ack_acknowledges hc hr hp hn h hs (by simp [ha]) ho
      ((applyAck_of_returned ha).trans (freeAndAdmit_of_cons ((taken_queue ..).trans hq)))
    obtain ⟨hm, rfl⟩ := mem_of_slotOf hs
    refine ⟨t, ht, ?_, hk.queue, fun j hj => ?_, hk.areas, hk.consoles, ?_, hk.frame⟩
    · refine ⟨admittedSlot ((s.taken ms 1 f).freeSlot i) q, ?_, rfl, rfl, rfl, taken_stamp s ms 1 f, rfl, rfl⟩
      rw [hk.slots]
      exact lookup_insertAt_self ..
    · rw [hk.slots]
      exact (lookup_insertAt_removeAt _ hj _).trans (by simp)
    · have habs : Absent sl.point ((s.taken ms 1 f).freeSlot i) := by
        obtain ⟨h1, h2⟩ := freeSlot_absent hsound hm
        exact ⟨(slotOf_congr (by simp) _).trans h1, (queued_congr (by simp) _).trans h2⟩
      have habs' := admitHead_absent (i := i) (e := { s := (s.taken ms 1 f).freeSlot i }) habs
      rw [admitHead_of_cons (q := q) (rest := rest) ((taken_queue ..).trans hq)] at habs'
      rw [hk.console]
      exact congrArg (fun r => s.console.joinOwn (respTo s f op .ok [r])) (stateRec_of_absent habs')

end Sys2Proof.Machine

namespace Sys2Proof.Machine

/-! ## A report before the admission (R20, R22, R163)

The AREP of a discard takes the stamp of the event into the high mark, and the admission that follows stamps again. Both
stamps agree in a sound time base (`stamp_report`). In UNSET with a high mark that does not carry UNSYNC they do not: the
first stamp is the time of that mark, the second the time of the clock. -/

/-- A time base in UNSET at 5 seconds whose high mark, at 0 seconds, does not carry UNSYNC. -/
def unsyncedBase : TimeBase := { state := .unset, sec := 5, high := ⟨false, 0, 0⟩ }

/-- Point 0 in slot 0, and point 1 at the head of the queue, under the time base above; the last record of the open MREQ
is `x`. -/
def discardState (r : Request) : State :=
  { State.reset with
    slots := [(0, ⟨0, .activeUnack, 1, ⟨false, 0, 0⟩, ⟨false, 0, 0⟩, none, false, false, false, false⟩)]
    queue := [⟨1, ⟨false, 0, 0⟩, false⟩], time := unsyncedBase, request := some r }

/-- An MREQ whose last record is a DISCARD_SLOT of slot 0. -/
def discardRequest : Request := { source := 1, seq := 0, operator := 0, todo := [⟨0x85#8, b2 0⟩] }

/-- The last transition of slot 0 after a command, where there is one. -/
def lastOfSlotZero (c : Instr) (s : State) : Option Stamp :=
  match exec c s with
  | .next t => (lookup t.slots 0).map Slot.last
  | _ => none

theorem lastOfSlotZero_of_headAdmitted {c : Instr} {s t : State} {q : QEntry} {now : Stamp} (he : exec c s = .next t)
    (h : HeadAdmitted 0 q now t) : lastOfSlotZero c s = some now := by
  obtain ⟨x, hx, -, -, -, hl, -⟩ := h
  unfold lastOfSlotZero
  rw [he]
  simp [hx, hl]

theorem discardState_stamp (r : Request) : (discardState r).stamp = ⟨true, 0, 0⟩ := rfl

theorem discardState_sound (r : Request) : (discardState r).AlarmTableSound :=
  ⟨rfl, by simp [discardState, Config.slotCount], by simp [discardState], by simp [discardState], by simp [discardState]⟩

theorem lastOfSlotZero_discardSlot :
    lastOfSlotZero .discardSlot (discardState discardRequest) = some ⟨true, 5, 0⟩ := by
  decide

/-- Refutes O55: its fourth clause has no premise on the time base, and in `discardState` the admitted head carries the
time of the clock, 5 seconds, and not the stamp of the event, 0 seconds, that the AREP has put into the high mark. -/
theorem not_discardedSlotIsReportedAndCounted : ¬ Obligations.DiscardedSlotIsReportedAndCounted := by
  intro h
  obtain ⟨-, -, -, hqueue⟩ := h discardRequest 0 (discardState discardRequest) (by decide) (by decide)
  obtain ⟨t, ht, hadm, -⟩ := hqueue _ _ _ (by decide) rfl rfl (discardState_sound _)
  have hlast := lastOfSlotZero_of_headAdmitted ht hadm
  rw [lastOfSlotZero_discardSlot, discardState_stamp] at hlast
  exact absurd hlast (by decide)

/-- An MREQ whose last record is a WRITE, with FORCE, of no item to point 0. -/
def rewriteRequest : Request :=
  { source := 1, seq := 0, operator := 0, selected := some .points, todo := [⟨0x83#8, b2 0 ++ [0x01#8]⟩] }

theorem lastOfSlotZero_writePoints :
    lastOfSlotZero .writePoints (discardState rewriteRequest) = some ⟨true, 5, 0⟩ := by
  decide

/-- Refutes O53: its clause of a forced rewrite with a point queued has no premise on the time base either, and in
`discardState` the head is admitted with the time of the clock and not with the stamp of the event. -/
theorem not_writesTakeEffectClamped : ¬ Obligations.WritesTakeEffectClamped := by
  intro h
  obtain ⟨-, hpoints, -⟩ := h
  obtain ⟨-, hwritten⟩ := hpoints rewriteRequest (b2 0 ++ [0x01#8]) 0 [] (discardState rewriteRequest) (by decide) rfl
    (by decide) (by decide) (by decide)
  obtain ⟨-, -, -, hqueue, -⟩ := hwritten {} (by decide)
  obtain ⟨t, ht, -, hadm, -⟩ := hqueue _ _ _ _ rfl rfl (discardState_sound _) (by decide)
  have hlast := lastOfSlotZero_of_headAdmitted ht hadm
  rw [lastOfSlotZero_writePoints, discardState_stamp] at hlast
  exact absurd hlast (by decide)

end Sys2Proof.Machine

namespace Sys2Proof.Machine

/-! ## The load monitor (R44 to R46) -/

theorem onsetWeight_eq (pr : Priority) : pr.weight = onsetWeight pr := by cases pr <;> rfl

@[simp] theorem kept_enterFlood (s : State) (a : Nat) : (s.enterFlood a).kept = s.kept := by simp [State.enterFlood]

@[simp] theorem kept_addLoad (s : State) (a w : Nat) : (s.addLoad a w).kept = s.kept := by
  unfold State.addLoad; dsimp only; split <;> simp

/-- What a load added to an area leaves as it was. -/
structure LoadKept (s t : State) : Prop where
  slots : t.slots = s.slots
  records : t.records = s.records
  arepSeq : t.arepSeq = s.arepSeq
  time : t.time = s.time
  console : t.console = s.console
  kept : t.kept = s.kept
  consoles : ConsolesKept s t

theorem LoadKept.trans {s t u : State} (h : LoadKept s t) (k : LoadKept t u) : LoadKept s u :=
  ⟨k.slots.trans h.slots, k.records.trans h.records, k.arepSeq.trans h.arepSeq, k.time.trans h.time,
    k.console.trans h.console, k.kept.trans h.kept, h.consoles.trans k.consoles⟩

theorem modArea_loadKept (s : State) (a : Nat) (f : Area → Area) : LoadKept s (s.modArea a f) :=
  ⟨rfl, rfl, rfl, rfl, rfl, rfl, .of_eq rfl⟩

theorem enterFlood_loadKept (s : State) (a : Nat) : LoadKept s (s.enterFlood a) := by
  unfold State.enterFlood
  refine ⟨by simp, by simp, by simp, by simp, by simp, by simp, ?_⟩
  exact (notifyArea_consolesKept (s.modArea a fun r => { r with flood := true }) a (.flood a true)).trans
    (.of_eq (State.latch_consoles ..))

theorem addLoad_loadKept (s : State) (a w : Nat) : LoadKept s (s.addLoad a w) := by
  unfold State.addLoad
  dsimp only
  split
  · exact (modArea_loadKept ..).trans (enterFlood_loadKept ..)
  · exact modArea_loadKept ..

theorem enterFlood_area (s : State) (a b : Nat) :
    (s.enterFlood a).area b = if b = a then { s.area a with flood := true } else s.area b := by
  unfold State.enterFlood
  rw [area_congr (State.latch_areas ..), area_congr (State.notifyArea_areas ..), area_modArea]

/-- A counted onset adds its weight to the load of its area, which enters FLOOD at F_on (R45). -/
theorem addLoad_area (s : State) (a b : Nat) (pr : Priority) : (s.addLoad a pr.weight).area b =
    if b = a then (s.area a).afterReport (s.areaParams a) false true pr else s.area b := by
  unfold State.addLoad Area.afterReport
  rw [onsetWeight_eq]
  dsimp only
  split
  · next h =>
    rw [enterFlood_area, area_modArea, area_modArea]
    simp only [area_modArea, if_true, Bool.and_eq_true, decide_eq_true_eq] at h
    by_cases hb : b = a
    · simp [hb, h.2]
    · simp [hb]
  · next h =>
    rw [area_modArea]
    simp only [area_modArea, if_true] at h
    by_cases hb : b = a
    · subst hb
      cases hf : (s.area b).flood <;> simp_all
    · simp [hb]

/-- An event that moves no flag sends no STAT: FLOOD_ANY is latched, no ENGINEERING station is configured, or the area
does not enter FLOOD (R45, R191). -/
theorem addLoad_plant {s : State} {a w : Nat} (h : s.engineering = [] ∨ s.isLatched .floodAny = true
    ∨ ((s.addLoad a w).area a).flood = (s.area a).flood) : (s.addLoad a w).plant = s.plant := by
  unfold State.addLoad at h ⊢
  dsimp only at h ⊢
  split at h
  · next hin =>
    rw [if_pos hin]
    have hquiet : s.engineering = [] ∨ s.isLatched .floodAny = true := by
      rcases h with h | h | h
      · exact .inl h
      · exact .inr h
      · rw [enterFlood_area, if_pos rfl] at h
        simp only [area_modArea, if_true, Bool.and_eq_true, Bool.not_eq_true'] at hin
        exact absurd (h.trans hin.1) (by simp)
    unfold State.enterFlood
    rw [latch_plant_of_quiet, State.notifyArea_plant]
    · rfl
    · exact hquiet.imp (fun h => by simpa [State.engineering] using h) fun h => by
        rwa [isLatched_congr (State.notifyArea_latched ..)]
  · next hin => rw [if_neg hin]; rfl

/-! ## The load stage of one slot change (R27, R44, R46) -/

/-- The load monitor's part of an event with the one slot change `c` (R44 to R46). -/
structure Loaded (s : State) (c : SlotChange) (e : Ev) : Prop where
  areas : e.changes.map (·.area) = [c.area]
  area : ∀ b, e.s.area b = if b = c.area then
      (s.area b).afterReport (s.areaParams b) false (isCounted s c) (s.pointDef c.point).priority
    else s.area b
  records : e.s.records = s.records
  arepSeq : e.s.arepSeq = s.arepSeq
  time : e.s.time = s.time
  console : e.s.console = s.console
  kept : e.s.kept = s.kept
  consoles : ConsolesKept s e.s
  plant : s.engineering = [] ∨ s.isLatched .floodAny = true ∨ (e.s.area c.area).flood = (s.area c.area).flood →
    e.s.plant = s.plant

theorem afterReport_same (r : Area) (p : AreaParams) (pr : Priority) : r.afterReport p false false pr = r := by
  simp [Area.afterReport]

/-- The overlay SUPPRESSED that a counted onset may take (R46). -/
def suppressedNow (s t : State) (c : SlotChange) : Bool :=
  isCounted s c && suppresses t c

/-- The slots after the load stage: the point's slot takes SUPPRESSED where R46 says so. -/
def loadedSlots (s t : State) (c : SlotChange) : List (Nat × Slot) :=
  if suppressedNow s t c then
    match s.slotOf c.point with
    | some (i, sl) => insertAt s.slots i { sl with suppressed := true }
    | none => s.slots
  else s.slots

theorem tables_of_kept {s t : State} (h : t.kept = s.kept) : t.tables = s.tables := congrArg Prod.fst h

theorem loadOne_of_counted {s : State} {c : SlotChange} (h : isCounted s c = true) :
    loadOne { s := s } c =
      { s := { s.addLoad c.area (s.pointDef c.point).priority.weight with
          slots := loadedSlots s (s.addLoad c.area (s.pointDef c.point).priority.weight) c }
        changes := [{ c with counted := true }] } := by
  have hk := addLoad_loadKept s c.area (s.pointDef c.point).priority.weight
  unfold loadOne loadedSlots suppressedNow
  rw [if_pos h, h]
  generalize s.addLoad c.area (s.pointDef c.point).priority.weight = u at hk
  rw [← hk.slots, ← slotOf_congr hk.slots c.point]
  simp only [Bool.true_and, Ev.push, List.nil_append]
  split
  · cases u.slotOf c.point <;> rfl
  · rfl

theorem loadOne_of_uncounted {s : State} {c : SlotChange} (h : isCounted s c = false) :
    loadOne { s := s } c = { s := s, changes := [c] } := by
  simp [loadOne, h, Ev.push]

theorem loadOne_loaded (s : State) (c : SlotChange) : Loaded s c (loadOne { s := s } c) := by
  cases hc : isCounted s c with
  | false =>
    rw [loadOne_of_uncounted hc]
    refine ⟨rfl, fun b => ?_, rfl, rfl, rfl, rfl, rfl, .refl s, fun _ => rfl⟩
    rw [hc, afterReport_same, ite_self]
  | true =>
    have hk := addLoad_loadKept s c.area (s.pointDef c.point).priority.weight
    have ha := addLoad_area s c.area (pr := (s.pointDef c.point).priority)
    have hp := addLoad_plant (s := s) (a := c.area) (w := (s.pointDef c.point).priority.weight)
    rw [loadOne_of_counted hc]
    refine ⟨rfl, fun b => ?_, hk.records, hk.arepSeq, hk.time, hk.console, hk.kept, hk.consoles, hp⟩
    rw [hc]
    refine (ha b).trans ?_
    split
    · next hb => rw [hb]
    · rfl

theorem loadOne_slots (s : State) (c : SlotChange) :
    (loadOne { s := s } c).s.slots = loadedSlots s (loadOne { s := s } c).s c := by
  cases hc : isCounted s c with
  | false =>
    rw [loadOne_of_uncounted hc]
    simp [loadedSlots, suppressedNow, hc]
  | true => rw [loadOne_of_counted hc]; rfl

/-- The load stage for a point in slot `i`: its slot takes SUPPRESSED where R46 says so, and no other changes. -/
theorem loadOne_slot {s : State} {c : SlotChange} {i : Nat} {sl : Slot} (h : s.slotOf c.point = some (i, sl))
    (hl : lookup s.slots i = some sl) (hp : sl.point = c.point) :
    let t := (loadOne { s := s } c).s
    let x : Slot := { sl with suppressed := sl.suppressed || suppressedNow s t c }
    lookup t.slots i = some x ∧ t.slotOf c.point = some (i, x) ∧ OtherSlotsKept i s t := by
  have hs := loadOne_slots s c
  dsimp only
  generalize (loadOne { s := s } c).s = t at hs
  unfold loadedSlots at hs
  cases hn : suppressedNow s t c with
  | false =>
    rw [hn] at hs
    have hs' : t.slots = s.slots := by simpa using hs
    rw [hs', slotOf_congr hs', Bool.or_false]
    exact ⟨hl, h, fun j _ => by rw [hs']⟩
  | true =>
    rw [hn, if_pos rfl, h] at hs
    dsimp only at hs
    rw [Bool.or_true, slotOf_congr (s := s.setSlot i { sl with suppressed := true }) hs]
    exact ⟨by rw [hs]; exact lookup_insertAt_self .., slotOf_setSlot h hp,
      fun j hj => by rw [hs]; exact lookup_insertAt_of_ne _ hj _⟩

end Sys2Proof.Machine

namespace Sys2Proof.Machine

/-! ## Placing a shelf entry (R65) -/

theorem placeShelf_eq (e : ShelfEntry) {l : List ShelfEntry} (h : l.Pairwise fun x y => x.ticks ≤ y.ticks) :
    placeShelf e l = l.filter (fun x => decide (x.ticks ≤ e.ticks)) ++ e :: l.filter fun x => decide (e.ticks < x.ticks) := by
  induction l with
  | nil => rfl
  | cons x l ih =>
    obtain ⟨hx, hl⟩ := List.pairwise_cons.1 h
    unfold placeShelf
    split
    · next hlt =>
      have hgt : ∀ y ∈ x :: l, e.ticks < y.ticks := by
        intro y hy
        rcases List.mem_cons.1 hy with rfl | hy
        · exact hlt
        · exact hlt.trans_le (hx y hy)
      rw [List.filter_eq_nil_iff.2 fun y hy => by simpa using hgt y hy,
        List.filter_eq_self.2 fun y hy => by simpa using hgt y hy]
      rfl
    · next hge =>
      rw [ih hl, List.filter_cons_of_pos (by simpa using hge), List.filter_cons_of_neg (by simpa using hge)]
      rfl

/-- The entry of a point placed anew in a sorted list: behind those with as many ticks (R65, R67). -/
theorem placeShelf_removeShelf (p : Nat) (e : ShelfEntry) {l : List ShelfEntry}
    (h : l.Pairwise fun x y => x.ticks ≤ y.ticks) : placeShelf e (removeShelf p l) =
      l.filter (fun x => !(x.point == p) && decide (x.ticks ≤ e.ticks))
        ++ e :: l.filter fun x => !(x.point == p) && decide (e.ticks < x.ticks) := by
  unfold removeShelf
  rw [placeShelf_eq e (h.filter _), List.filter_filter, List.filter_filter]
  simp only [Bool.and_comm]

theorem mem_placeShelf_iff {e x : ShelfEntry} {l : List ShelfEntry} : x ∈ placeShelf e l ↔ x = e ∨ x ∈ l := by
  refine ⟨mem_placeShelf, ?_⟩
  induction l with
  | nil => simp [placeShelf]
  | cons y l ih =>
    unfold placeShelf
    split
    · simp
    · simp only [List.mem_cons]
      tauto

theorem mem_removeShelf {p : Nat} {x : ShelfEntry} {l : List ShelfEntry} : x ∈ removeShelf p l ↔ x ∈ l ∧ x.point ≠ p := by
  simp [removeShelf]

/-! ## Checks of a SHELVE and of an UNSHELVE (R66, R68) -/

theorem firstFailing_append (l m : List (Bool × Result)) :
    firstFailing (l ++ m) = (firstFailing l).or (firstFailing m) := by
  induction l with
  | nil => rfl
  | cons x l ih =>
    obtain ⟨ok, r⟩ := x
    rw [List.cons_append, firstFailing_cons, firstFailing_cons, ih]
    cases ok <;> rfl

theorem shelfRefusal_taken (s : State) (ms n op p : Nat) (f : Frame) :
    shelfRefusal (senderOf f op) p (s.taken ms n f) = firstFailing (shelfChecks s f op p) := by
  have ht := taken_tables s ms n f
  unfold shelfRefusal shelfChecks classOf senderOf
  dsimp only
  rw [consoleAtLeast_taken, known_congr ht, pointDef_taken, hasRight_congr ht, holds_congr (taken_areas ..)]
  simp only [firstFailing_cons, firstFailing_nil]

theorem shelveRefusal_taken (s : State) (ms n p : Nat) (f : Frame) :
    shelveRefusal p (s.taken ms n f) =
      firstFailing [(0 < (s.pointDef p).shelveLimit, .shelveNotAllowed), (s.shelved p || s.shelf.length < 128, .shelfFull)] := by
  unfold shelveRefusal
  rw [pointDef_taken, shelved_congr (taken_shelf ..), taken_shelf]
  simp only [firstFailing_cons, firstFailing_nil, Config.shelfCap]
  rcases Nat.eq_zero_or_pos (s.pointDef p).shelveLimit with h | h
  · simp [h]
  · have h' : (s.pointDef p).shelveLimit ≠ 0 := by omega
    simp only [if_neg h', h, decide_true, Bool.not_true, Bool.false_eq_true, if_false]
    by_cases hroom : s.shelf.length < 128
    · simp [hroom]
    · cases s.shelved p <;> simp [hroom]

/-! ## SHELVE (R66, R67) -/

@[simp] theorem taken_owed (s : State) (ms n : Nat) (f : Frame) : (s.taken ms n f).owed = s.owed := by
  unfold State.taken; simp

theorem kept_congr_shelf {s t : State} (h : t.kept = s.kept) (l : List ShelfEntry) (o : List TickItem) :
    ({ t with shelf := l, owed := o } : State).kept = ({ s with shelf := l, owed := o } : State).kept := by
  simp only [State.kept, Prod.mk.injEq] at h ⊢
  tauto


/-- A SHELVE for 0 minutes is answered BAD_REQUEST before its checks (R66). -/
theorem exec_shelve_of_zero {ms op p : Nat} {f : Frame} {s : State} (hc : countedFrom s f op = true)
    (hr : f.recs = [⟨0x23#8, b2 p ++ b2 0⟩]) (hp : p < 65536) :
    exec (.shelve ms f) s
      = .next ((s.taken ms 1 f).sendEntry .console (respTo s f op .badRequest [stateRec s p])) := by
  refine congrArg Host.Outcome.next ((oreq_of_counted hc ms _).trans ?_)
  have h2 : field2 (b2 p ++ b2 0) 2 = 0 := by simpa using field2_b2_b2 p (by omega : 0 < 65536) []
  unfold takeShelve
  rw [oreqData_of_recs (n := 4) hr rfl]
  dsimp only
  rw [if_pos h2, field2_b2 hp, reply_eq (taken_tables ..), stateRec_taken]

section
variable {ms op p m : Nat} {f : Frame} {s : State} (hc : countedFrom s f op = true)
  (hr : f.recs = [⟨0x23#8, b2 p ++ b2 m⟩]) (hp : p < 65536) (hm1 : 1 ≤ m) (hm : m < 65536)
include hc hr hp hm1 hm

/-- A refused SHELVE is answered with the first failing check and changes nothing else (R66). -/
theorem exec_shelve_of_refused {r : Result} (h : firstFailing (shelveChecks s f op p) = some r) :
    exec (.shelve ms f) s = .next ((s.taken ms 1 f).sendEntry .console (respTo s f op r [stateRec s p])) := by
  refine congrArg Host.Outcome.next ((oreq_of_counted hc ms _).trans ?_)
  have h2 : field2 (b2 p ++ b2 m) 2 = m := by simpa using field2_b2_b2 p hm []
  unfold takeShelve
  rw [oreqData_of_recs (n := 4) hr rfl]
  dsimp only
  rw [h2, if_neg (by omega), field2_b2 hp, shelfRefusal_taken, shelveRefusal_taken]
  unfold shelveChecks at h
  rw [firstFailing_append] at h
  cases h1 : firstFailing (shelfChecks s f op p) with
  | some r' =>
    rw [h1] at h
    cases h
    dsimp only
    rw [reply_eq (taken_tables ..), stateRec_taken]
  | none =>
    rw [h1, Option.none_or] at h
    dsimp only
    rw [h]
    dsimp only
    rw [reply_eq (taken_tables ..), stateRec_taken]

/-- A SHELVE past its checks places the point's entry and tells the minutes granted (R67). -/
theorem exec_shelve_of_granted {t : State} {granted : Nat} (h : firstFailing (shelveChecks s f op p) = none)
    (hg : granted = min m (s.pointDef p).shelveLimit)
    (ht : shelvePoint (senderOf f op) p granted (s.taken ms 1 f) = t) (htab : t.tables = s.tables) :
    exec (.shelve ms f) s = .next (t.sendEntry .console
      (respTo s f op (if (s.pointDef p).shelveLimit < m then .okClamped else .ok) [stateRec t p, ⟨0x77#8, b2 granted⟩])) := by
  refine congrArg Host.Outcome.next ((oreq_of_counted hc ms _).trans ?_)
  have h2 : field2 (b2 p ++ b2 m) 2 = m := by simpa using field2_b2_b2 p hm []
  unfold takeShelve
  rw [oreqData_of_recs (n := 4) hr rfl]
  dsimp only
  rw [h2, if_neg (by omega), field2_b2 hp, shelfRefusal_taken, shelveRefusal_taken]
  unfold shelveChecks at h
  rw [firstFailing_append, Option.or_eq_none_iff] at h
  obtain ⟨h1, h2⟩ := h
  rw [h1]
  dsimp only
  rw [h2]
  dsimp only
  rw [pointDef_taken, ← hg, ht, reply_eq htab]

end

/-- The state with the point's entry placed (R67 step 1). -/
def State.placing (s : State) (q : Requester) (p granted : Nat) : State :=
  { s.marked.dropOwed (.shelf p) with shelf := placeShelf (newShelfEntry q p granted s) (removeShelf p s.shelf) }

section
variable (s : State) (q : Requester) (p granted : Nat)
@[simp] theorem placing_tables : (s.placing q p granted).tables = s.tables := rfl
@[simp] theorem placing_slots : (s.placing q p granted).slots = s.slots := rfl
@[simp] theorem placing_queue : (s.placing q p granted).queue = s.queue := rfl
@[simp] theorem placing_areas : (s.placing q p granted).areas = s.areas := rfl
@[simp] theorem placing_consoles : (s.placing q p granted).consoles = s.consoles := rfl
@[simp] theorem placing_arepSeq : (s.placing q p granted).arepSeq = s.arepSeq := rfl
@[simp] theorem placing_time : (s.placing q p granted).time = s.marked.time := rfl
@[simp] theorem placing_plant : (s.placing q p granted).plant = s.plant := rfl
@[simp] theorem placing_console : (s.placing q p granted).console = s.console := rfl
@[simp] theorem placing_request : (s.placing q p granted).request = s.request := rfl
@[simp] theorem placing_owed : (s.placing q p granted).owed = s.owed.filter fun y => !(y == .shelf p) := rfl
@[simp] theorem placing_shelf : (s.placing q p granted).shelf =
    placeShelf (newShelfEntry q p granted s) (removeShelf p s.shelf) := rfl
end

theorem shelvePoint_eq (q : Requester) (p granted : Nat) (s : State) {e : Ev}
    (he : markShelved p { s := s.placing q p granted } = e) :
    shelvePoint q p granted s =
      handOn s { s := e.s.report (shelveReport q p granted e.s), changes := e.changes } [.shelved p] := by
  rw [← he]; rfl

theorem markShelved_of_none {s : State} {p : Nat} (h : s.slotOf p = none) : markShelved p { s := s } = { s := s } := by
  unfold markShelved; rw [h]

theorem markShelved_of_shelved {s : State} {p i : Nat} {sl : Slot} (h : s.slotOf p = some (i, sl))
    (hs : sl.shelved = true) : markShelved p { s := s } = { s := s } := by
  unfold markShelved; rw [h]; simp [hs]

/-- The slot change of a SHELVE (R15, R67). -/
def shelvedChange (s : State) (i : Nat) (sl : Slot) : SlotChange :=
  { kind := .overlay, point := sl.point, area := (s.pointDef sl.point).area, slot := some i, oldState := some sl.state
    newState := some sl.state, oldOcc := some sl.occ, newOcc := some sl.occ, origin := some .shelf }

theorem markShelved_of_slot {s : State} {p i : Nat} {sl : Slot} (h : s.slotOf p = some (i, sl))
    (hs : sl.shelved = false) : markShelved p { s := s } =
      { s := s.setSlot i { sl with shelved := true }, changes := [shelvedChange s i sl] } := by
  unfold markShelved; rw [h]; simp only [hs, Bool.false_eq_true, if_false]; rfl

theorem markShelved_frame (p : Nat) (s : State) :
    (markShelved p { s := s }).s = { s with slots := (markShelved p { s := s }).s.slots } := by
  cases h : s.slotOf p with
  | none => rw [markShelved_of_none h]
  | some x =>
    obtain ⟨i, sl⟩ := x
    cases hs : sl.shelved with
    | true => rw [markShelved_of_shelved h hs]
    | false => rw [markShelved_of_slot h hs]; rfl

theorem markShelved_kept (p : Nat) (s : State) : (markShelved p { s := s }).s.kept = s.kept := by
  rw [markShelved_frame]; rfl

theorem kept_placing (s : State) (q : Requester) (p granted : Nat) : (s.placing q p granted).kept =
    ({ s with shelf := placeShelf (newShelfEntry q p granted s) (removeShelf p s.shelf)
              owed := s.owed.filter fun y => !(y == .shelf p) } : State).kept := rfl

/-- What a SHELVE past its checks leaves, where `e` is the alarm table's part of its event: the slots of `e`, the entry in
its place, an advanced generation for each area that a slot change names, one AREP and one RESP. -/
structure ShelvedBy (ms op p granted : Nat) (r : Result) (f : Frame) (s : State) (e : Ev) (t : State) : Prop where
  slots : t.slots = e.s.slots
  areas : AreasKept s t
  oneGeneration : ∀ a, (∀ c, c ∈ e.changes.map (·.area) ↔ c = a) → OneGeneration a s t
  area : e.changes = [] → ∀ a, t.area a = s.area a
  shelf : t.shelf = placeShelf (newShelfEntry (senderOf f op) p granted (s.taken ms 1 f)) (removeShelf p s.shelf)
  owed : t.owed = s.owed.filter fun y => !(y == .shelf p)
  consoles : ConsolesKept (s.taken ms 1 f) t
  frame : AlarmEventFrame { s with shelf := t.shelf, owed := t.owed } t
  console : t.console = s.console.joinOwn (respTo s f op r [stateRec e.s p, ⟨0x77#8, b2 granted⟩])
  plant : s.time.Sound → s.console.ownRoom = true →
    t.plant = s.plant.joinOwn (arepOf s ms (shelveReport (senderOf f op) p granted e.s))

theorem shelved_shelvedBy {ms op p granted : Nat} {r : Result} {f : Frame} {s : State} {e : Ev}
    (he : markShelved p { s := (s.taken ms 1 f).placing (senderOf f op) p granted } = e) (hr : s.request = none) :
    let u := shelvePoint (senderOf f op) p granted (s.taken ms 1 f)
    ShelvedBy ms op p granted r f s e
      (u.sendEntry .console (respTo s f op r [stateRec u p, ⟨0x77#8, b2 granted⟩])) := by
  have hs : e.s = { (s.taken ms 1 f).placing (senderOf f op) p granted with slots := e.s.slots } := by
    rw [← he]; exact markShelved_frame ..
  have hreq : e.s.request = none := by rw [hs]; simpa using hr
  have hareas : e.s.areas = s.areas := by rw [hs]; simp
  have hcons : e.s.console = s.console := by rw [hs]; simp
  have htime : e.s.time = (s.taken ms 1 f).marked.time := by rw [hs]; simp
  dsimp only
  rw [shelvePoint_eq _ _ _ _ he]
  generalize hR : shelveReport (senderOf f op) p granted e.s = R
  have hreq' : ({ s := e.s.report R, changes := e.changes } : Ev).s.request = none := by simpa using hreq
  have hareas' : (e.s.report R).areas = s.areas := by simpa using hareas
  generalize hv : ((handOn (s.taken ms 1 f) { s := e.s.report R, changes := e.changes } [.shelved p]).sendEntry .console
    (respTo s f op r [stateRec (handOn (s.taken ms 1 f) { s := e.s.report R, changes := e.changes } [.shelved p]) p,
      ⟨0x77#8, b2 granted⟩])) = v
  have hshelf : v.shelf = placeShelf (newShelfEntry (senderOf f op) p granted (s.taken ms 1 f)) (removeShelf p s.shelf) := by
    rw [← hv]; simp only [State.sendEntry_shelf, handOn_shelf, State.report_shelf]; rw [hs]; simp
  have howed : v.owed = s.owed.filter fun y => !(y == .shelf p) := by
    rw [← hv]; simp only [State.sendEntry_owed, handOn_owed, State.report_owed]; rw [hs]; simp
  constructor
  case slots => simp [← hv]
  case areas =>
    exact (handOn_areasKept (b := s.taken ms 1 f) (xs := [.shelved p]) hreq').congr hareas'.symm (by simp [← hv])
  case oneGeneration =>
    exact fun a ha =>
      (handOn_oneGeneration (b := s.taken ms 1 f) (xs := [.shelved p]) hreq' ha).congr hareas'.symm (by simp [← hv])
  case area =>
    intro hn a
    rw [← hv, area_congr (State.sendEntry_areas ..), handOn_area hreq', hn]
    exact area_congr hareas' a
  case shelf => exact hshelf
  case owed => exact howed
  case consoles =>
    have h := handOn_consolesKept (s.taken ms 1 f) { s := e.s.report R, changes := e.changes } [.shelved p]
    exact (ConsolesKept.trans (.of_eq (by rw [State.report_consoles, hs]; simp)) h).trans (.of_eq (by simp [← hv]))
  case frame =>
    rw [alarmEventFrame_iff, hshelf, howed, ← hv, kept_sendEntry, kept_handOn hreq', kept_report, ← he,
      markShelved_kept, kept_placing, taken_owed, taken_shelf]
    exact kept_congr_shelf (kept_taken s ms 1 f) ..
  case console =>
    rw [← hv, sendEntry_console_console, handOn_console, report_console, hcons,
      stateRec_congr (s := e.s) (by simp) (by simp)]
  case plant =>
    intro hsound hroom
    have hseq : e.s.arepSeq = s.arepSeq := by rw [hs]; simp
    have htab : e.s.tables = s.tables := by rw [hs]; simp
    have hplant : e.s.plant = s.plant := by rw [hs]; simp
    rw [← hv, sendEntry_console_plant_of_room (by simpa [hcons] using hroom), handOn_plant, report_plant, hplant,
      arepAt_congr htab hseq, stamp_congr htime, stamp_marked (taken_time_sound hsound ..), taken_stamp, arepOf, hR]

/-- A SHELVE marks the slot of its point and keeps everything else of it (R67). -/
theorem markShelved_slotOf (p : Nat) (s : State) : (markShelved p { s := s }).s.slotOf p =
    (s.slotOf p).map fun x => (x.1, { x.2 with shelved := true }) := by
  cases h : s.slotOf p with
  | none => rw [markShelved_of_none h, h]; rfl
  | some x =>
    obtain ⟨i, sl⟩ := x
    obtain ⟨-, hp⟩ := mem_of_slotOf h
    cases hs : sl.shelved with
    | true => rw [markShelved_of_shelved h hs, h, Option.map_some, ← hs]
    | false => rw [markShelved_of_slot h hs]; exact slotOf_setSlot h hp

theorem stateRec_of_marked {s t : State} {p : Nat} (hq : t.queue = s.queue)
    (h : t.slotOf p = (s.slotOf p).map fun x => (x.1, { x.2 with shelved := true })) : stateRec t p = stateRec s p := by
  unfold stateRec slotView
  rw [h, queued_congr hq]
  cases s.slotOf p <;> rfl

theorem shelveReport_of_marked {s t : State} {f : Frame} {op p granted : Nat} (ht : t.tables = s.tables)
    (h : t.slotOf p = (s.slotOf p).map fun x => (x.1, { x.2 with shelved := true })) :
    shelveReport (senderOf f op) p granted t =
      { action := .shelve, point := p, area := (s.pointDef p).area, occ := (s.slotOf p).map fun x => x.2.occ
        stateAfter := (s.slotOf p).map fun x => x.2.state.code
        actor := some ⟨op, f.source.toNat, f.seat.toNat⟩, minutes := granted } := by
  unfold shelveReport
  rw [h, pointDef_congr (congrArg Tables.points ht)]
  cases s.slotOf p <;> rfl

theorem shelvePoint_tables (q : Requester) (p granted : Nat) (s : State) :
    (shelvePoint q p granted s).tables = s.tables := by
  rw [shelvePoint_eq q p granted s rfl, handOn_tables, State.report_tables, markShelved_frame]
  rfl

/-- A SHELVE past its checks, as the alarm table's part `e` of its event leaves it (R67). -/
theorem shelve_acts {ms op p m : Nat} {f : Frame} {s : State} (hc : countedFrom s f op = true)
    (hr : f.recs = [⟨0x23#8, b2 p ++ b2 m⟩]) (hp : p < 65536) (hm1 : 1 ≤ m) (hm : m < 65536)
    (h : firstFailing (shelveChecks s f op p) = none) :
    ∃ e t, markShelved p { s := (s.taken ms 1 f).placing (senderOf f op) p (min m (s.pointDef p).shelveLimit) } = e
      ∧ exec (.shelve ms f) s = .next t ∧ ShelvedBy ms op p (min m (s.pointDef p).shelveLimit)
        (if (s.pointDef p).shelveLimit < m then .okClamped else .ok) f s e t :=
  ⟨_, _, rfl, exec_shelve_of_granted hc hr hp hm1 hm h rfl rfl ((shelvePoint_tables ..).trans (taken_tables ..)),
    shelved_shelvedBy rfl (request_of_countedFrom hc)⟩

theorem newShelfEntry_taken (s : State) (ms op p granted : Nat) (f : Frame) :
    newShelfEntry (senderOf f op) p granted (s.taken ms 1 f) =
      ⟨p, op, s.stampAt ms, 60 * granted, !(s.area (s.pointDef p).area).relief.isEmpty⟩ := by
  unfold newShelfEntry
  rw [taken_stamp, pointDef_taken, area_congr (taken_areas ..)]
  rfl

end Sys2Proof.Machine

namespace Sys2Proof.Machine

/-! ## Re-annunciation (R13, R68) -/

/-- The point's alarm is annunciated again when its shelf entry leaves: it has not returned, and its condition is ACTIVE. -/
def reannounces (s : State) (p : Nat) (sl : Slot) : Bool := sl.state != .returnedUnack && (s.dynOf p).cond == .active

/-- The slot after its point's shelf entry has left, before the load monitor's decision. -/
def reannouncedSlot (s : State) (p : Nat) (sl : Slot) : Slot :=
  if reannounces s p sl then
    { sl with
      shelved := false, suppressed := keptSuppressed s sl, state := .activeUnack, occ := wrapUpToOne sl.occ
      onset := s.stamp, last := s.stamp, ackOp := none }
  else { sl with shelved := false, suppressed := keptSuppressed s sl }

/-- The slot change of a re-annunciation (R15). -/
def reannounceChange (s : State) (p i : Nat) (sl : Slot) : SlotChange :=
  { kind := .reannounce, point := sl.point, area := (s.pointDef sl.point).area, slot := some i
    oldState := some sl.state, newState := some (reannouncedSlot s p sl).state, oldOcc := some sl.occ
    newOcc := some (reannouncedSlot s p sl).occ, origin := some .shelf }

/-- The state of a re-annunciation: the high mark takes the stamp where the alarm is annunciated again. -/
def State.reannounced (s : State) (p i : Nat) (sl : Slot) : State :=
  (if reannounces s p sl then s.marked else s).setSlot i (reannouncedSlot s p sl)

theorem reannounce_of_slot {s : State} {p i : Nat} {sl : Slot} (h : s.slotOf p = some (i, sl)) :
    reannounce p { s := s } = { s := s.reannounced p i sl, changes := [reannounceChange s p i sl] } := by
  unfold reannounce State.reannounced reannounceChange reannouncedSlot
  rw [h]
  dsimp only
  cases hr : reannounces s p sl with
  | true =>
    rw [if_pos (by simpa [reannounces] using hr)]
    rfl
  | false =>
    rw [if_neg (by simpa [reannounces] using hr)]
    rfl

theorem reannounce_of_none {s : State} {p : Nat} (h : s.slotOf p = none) : reannounce p { s := s } = { s := s } := by
  unfold reannounce; rw [h]

theorem wrapUpToOne_ne (n : Nat) : n ≠ wrapUpToOne n := by unfold wrapUpToOne; split <;> omega

theorem nextOccurrence_eq (n : Nat) : nextOccurrence n = wrapUpToOne n := by
  unfold nextOccurrence wrapUpToOne
  by_cases h : n ≥ 65535
  · rw [if_pos h, if_pos (by omega)]
  · rw [if_neg h, if_neg (by omega)]

/-- A re-annunciation counts where the alarm is annunciated again and its point is not held (R44). -/
theorem isCounted_reannounce {s t : State} {p i : Nat} {sl : Slot} (hp : sl.point = p) (hs : t.shelved p = false)
    (hd : t.dyn = s.dyn) :
    isCounted t (reannounceChange s p i sl) = (reannounces s p sl && !(s.dynOf p).held) := by
  subst hp
  have hc : (reannounceChange s sl.point i sl).candidate = reannounces s sl.point sl := by
    have hne := wrapUpToOne_ne sl.occ
    unfold reannounceChange SlotChange.candidate SlotChange.advanced reannouncedSlot
    cases hr : reannounces s sl.point sl with
    | true => simpa using hne
    | false => simp
  unfold isCounted
  rw [hc, show (reannounceChange s sl.point i sl).point = sl.point from rfl, hs, dynOf_congr hd]
  simp [reannounceChange]

/-! ## The removal of a shelf entry (R68, R69) -/

/-- The state with the point's shelf entry gone. -/
def State.unshelving (s : State) (p : Nat) : State := { s with shelf := removeShelf p s.shelf }

theorem unshelving_shelved (s : State) (p : Nat) : (s.unshelving p).shelved p = false := by
  simp [State.shelved, State.unshelving, removeShelf]

/-- The alarm table's part of an unshelving, with the load monitor's decision. -/
def unshelvedEv (s : State) (p : Nat) : Ev := loadStage (reannounce p { s := s.unshelving p })

theorem unshelveEvent_eq (p : Nat) (act : Action) (who : Option Actor) (s : State) :
    unshelveEvent p act who s =
      handOn s
        { s := (unshelvedEv s p).s.report (unshelveReport (unshelvedEv s p).s p act who), changes := (unshelvedEv s p).changes }
        [.unshelved p ((unshelvedEv s p).changes.any SlotChange.advanced)] := rfl

theorem unshelvedEv_of_none {s : State} {p : Nat} (h : s.slotOf p = none) :
    unshelvedEv s p = { s := s.unshelving p } := by
  unfold unshelvedEv
  rw [reannounce_of_none (s := s.unshelving p) h]
  rfl

theorem unshelvedEv_of_slot {s : State} {p i : Nat} {sl : Slot} (h : s.slotOf p = some (i, sl)) :
    unshelvedEv s p = loadOne { s := (s.unshelving p).reannounced p i sl } (reannounceChange s p i sl) := by
  unfold unshelvedEv
  rw [reannounce_of_slot (s := s.unshelving p) h]
  rfl

theorem reannounced_kept (s : State) (p i : Nat) (sl : Slot) : (s.reannounced p i sl).kept = s.kept := by
  unfold State.reannounced; split <;> rfl

theorem reannounced_areas (s : State) (p i : Nat) (sl : Slot) : (s.reannounced p i sl).areas = s.areas := by
  unfold State.reannounced; split <;> rfl

theorem reannounced_stamp {s : State} (h : s.time.Sound) (p i : Nat) (sl : Slot) :
    (s.reannounced p i sl).stamp = s.stamp := by
  unfold State.reannounced
  split
  · exact stamp_marked h
  · rfl

/-- What the alarm table's part of an unshelving leaves as it was. -/
structure UnshelvedPart (s : State) (p : Nat) (e : Ev) : Prop where
  kept : e.s.kept = (s.unshelving p).kept
  arepSeq : e.s.arepSeq = s.arepSeq
  stamp : s.time.Sound → e.s.stamp = s.stamp
  console : e.s.console = s.console
  consoles : ConsolesKept s e.s
  plant : s.engineering = [] ∨ s.isLatched .floodAny = true → e.s.plant = s.plant

theorem unshelvedEv_part (s : State) (p : Nat) : UnshelvedPart s p (unshelvedEv s p) := by
  cases h : s.slotOf p with
  | none => rw [unshelvedEv_of_none h]; exact ⟨rfl, rfl, fun _ => rfl, rfl, .of_eq rfl, fun _ => rfl⟩
  | some x =>
    obtain ⟨i, sl⟩ := x
    rw [unshelvedEv_of_slot h]
    have hl := loadOne_loaded ((s.unshelving p).reannounced p i sl) (reannounceChange s p i sl)
    have hst := reannounced_stamp (s := s.unshelving p) (p := p) (i := i) (sl := sl)
    have hf : ((s.unshelving p).reannounced p i sl).arepSeq = s.arepSeq
        ∧ ((s.unshelving p).reannounced p i sl).console = s.console
        ∧ ((s.unshelving p).reannounced p i sl).consoles = s.consoles
        ∧ ((s.unshelving p).reannounced p i sl).plant = s.plant
        ∧ ((s.unshelving p).reannounced p i sl).latched = s.latched := by
      unfold State.reannounced
      split <;> exact ⟨rfl, rfl, rfl, rfl, rfl⟩
    have hk := reannounced_kept (s.unshelving p) p i sl
    generalize (s.unshelving p).reannounced p i sl = r at *
    obtain ⟨hseq, hcon, hcons, hplant, hlatch⟩ := hf
    refine ⟨hl.kept.trans hk, hl.arepSeq.trans hseq, fun h => ?_, hl.console.trans hcon,
      ConsolesKept.trans (.of_eq hcons) hl.consoles, fun h => ?_⟩
    · exact (stamp_congr hl.time).trans (hst h)
    · refine (hl.plant ?_).trans hplant
      have ht : r.tables = s.tables := tables_of_kept (t := r) (s := s.unshelving p) hk
      rcases h with h | h
      · exact .inl (by unfold State.engineering at h ⊢; rwa [ht])
      · exact .inr (.inl (by rwa [isLatched_congr hlatch]))

theorem unshelving_request {s : State} {p : Nat} {e : Ev} (h : s.request = none) (he : UnshelvedPart s p e) :
    e.s.request = none := by
  have hk := he.kept
  simp only [State.kept, Prod.mk.injEq] at hk
  obtain ⟨-, -, -, -, -, -, -, -, -, -, hr, -⟩ := hk
  exact hr.trans h

theorem unshelveEvent_slots (p : Nat) (act : Action) (who : Option Actor) (s : State) :
    (unshelveEvent p act who s).slots = (unshelvedEv s p).s.slots := by
  rw [unshelveEvent_eq]; simp

theorem unshelveEvent_kept {s : State} (h : s.request = none) (p : Nat) (act : Action) (who : Option Actor) :
    (unshelveEvent p act who s).kept = (s.unshelving p).kept := by
  have hpart := unshelvedEv_part s p
  rw [unshelveEvent_eq, kept_handOn (by simpa using unshelving_request h hpart), kept_report, hpart.kept]

theorem unshelveEvent_console (p : Nat) (act : Action) (who : Option Actor) (s : State) :
    (unshelveEvent p act who s).console = s.console := by
  rw [unshelveEvent_eq, handOn_console, report_console, (unshelvedEv_part s p).console]

theorem unshelveEvent_consolesKept (p : Nat) (act : Action) (who : Option Actor) (s : State) :
    ConsolesKept s (unshelveEvent p act who s) := by
  rw [unshelveEvent_eq]
  refine ((unshelvedEv_part s p).consoles.trans ?_).trans (handOn_consolesKept _ _ _)
  exact .of_eq (by simp)

theorem unshelveEvent_area {s : State} (h : s.request = none) (p : Nat) (act : Action) (who : Option Actor) (b : Nat) :
    (unshelveEvent p act who s).area b =
      if b ∈ (unshelvedEv s p).changes.map (·.area) then
        { (unshelvedEv s p).s.area b with generation := (((unshelvedEv s p).s.area b).generation + 1) % 65536 }
      else (unshelvedEv s p).s.area b := by
  rw [unshelveEvent_eq, handOn_area (by simpa using unshelving_request h (unshelvedEv_part s p))]
  rw [area_congr (State.report_areas ..)]

theorem afterReport_moved (r : Area) (a : AreaParams) (counted : Bool) (pr : Priority) :
    { r.afterReport a false counted pr with generation := ((r.afterReport a false counted pr).generation + 1) % 65536 }
      = r.afterReport a true counted pr := rfl

/-- A counted re-annunciation takes SUPPRESSED in FLOOD where its point is LOW and suppressible (R46). -/
theorem suppresses_reannounce {s t : State} (ht : t.tables = s.tables) (p i : Nat) (sl : Slot) :
    suppresses t (reannounceChange s p i sl) =
      ((s.pointDef sl.point).priority == .low && (s.pointDef sl.point).suppressible
        && (t.area (s.pointDef sl.point).area).flood) := by
  unfold suppresses
  rw [pointDef_congr (congrArg Tables.points ht)]
  rfl

/-- The removal of a shelf entry, as R13 and R68 describe it. -/
theorem unshelveEvent_unshelved {s : State} (h : s.request = none) (p : Nat) (act : Action) (who : Option Actor) :
    Unshelved p s.stamp s (unshelveEvent p act who s) := by
  refine ⟨?_, fun hn => ⟨?_, fun a => ?_⟩, fun i sl hs => ?_⟩
  · have hk := unshelveEvent_kept h p act who
    simp only [State.kept, Prod.mk.injEq] at hk
    obtain ⟨-, -, -, -, -, hsh, -⟩ := hk
    exact hsh
  · rw [unshelveEvent_slots, unshelvedEv_of_none hn]; rfl
  · rw [unshelveEvent_area h, unshelvedEv_of_none hn]; rfl
  · obtain ⟨-, hp⟩ := mem_of_slotOf hs
    have harea := unshelveEvent_area h p act who
    have hslots := unshelveEvent_slots p act who s
    generalize unshelveEvent p act who s = t at harea hslots
    rw [unshelvedEv_of_slot hs] at harea hslots
    have hl := loadOne_loaded ((s.unshelving p).reannounced p i sl) (reannounceChange s p i sl)
    have hk := reannounced_kept (s.unshelving p) p i sl
    have hr : ((s.unshelving p).reannounced p i sl).slots = insertAt s.slots i (reannouncedSlot s p sl) := by
      unfold State.reannounced; split <;> rfl
    have ha : ((s.unshelving p).reannounced p i sl).areas = s.areas := reannounced_areas ..
    generalize (s.unshelving p).reannounced p i sl = r at *
    simp only [State.kept, Prod.mk.injEq] at hk
    obtain ⟨htab, -, -, hdyn, -, hshelf, -⟩ := hk
    subst hp
    have hcount : isCounted r (reannounceChange s sl.point i sl) =
        (reannounces s sl.point sl && !(s.dynOf sl.point).held) :=
      isCounted_reannounce rfl ((shelved_congr hshelf _).trans (unshelving_shelved s _)) hdyn
    have hfound : r.slotOf sl.point = some (i, reannouncedSlot s sl.point sl) :=
      (slotOf_congr (t := r) (s := s.setSlot i (reannouncedSlot s sl.point sl)) hr _).trans
        (slotOf_setSlot hs (by unfold reannouncedSlot; split <;> rfl))
    obtain ⟨hlook, -, hother⟩ := loadOne_slot (c := reannounceChange s sl.point i sl) hfound
      (by rw [hr]; exact lookup_insertAt_self ..) (by unfold reannouncedSlot; split <;> rfl)
    have hsup := suppresses_reannounce (s := s) ((tables_of_kept hl.kept).trans htab) sl.point i sl
    have hlarea := hl.area
    generalize (loadOne { s := r } (reannounceChange s sl.point i sl)).s = u at *
    have hflood : (t.area (s.pointDef sl.point).area).flood = (u.area (s.pointDef sl.point).area).flood := by
      rw [harea]; split <;> rfl
    refine ⟨?_, fun j hj => ?_, fun b => ?_⟩
    · rw [hslots, hlook]
      unfold suppressedNow
      rw [hcount, hsup, ← hflood]
      have hre : (sl.state != .returnedUnack && (s.dynOf sl.point).cond == .active) = reannounces s sl.point sl := rfl
      simp only [hre, nextOccurrence_eq, reannouncedSlot]
      cases reannounces s sl.point sl with
      | true => simp [keptSuppressed, Bool.and_assoc, Bool.and_comm, Bool.and_left_comm]
      | false => simp [keptSuppressed]
    · rw [hslots, hother j hj, hr]
      exact lookup_insertAt_of_ne _ hj _
    · have hparams : r.areaParams b = s.areaParams b := by unfold State.areaParams; rw [htab]; rfl
      have hpr : (r.pointDef sl.point).priority = (s.pointDef sl.point).priority := by
        rw [pointDef_congr (congrArg Tables.points htab)]; rfl
      rw [harea, hlarea, hl.areas, hcount, area_congr ha, hparams,
        show (reannounceChange s sl.point i sl).area = (s.pointDef sl.point).area from rfl,
        show (reannounceChange s sl.point i sl).point = sl.point from rfl, hpr]
      by_cases hb : b = (s.pointDef sl.point).area
      · rw [if_pos (by simp [hb]), if_pos hb, if_pos hb]
        exact afterReport_moved ..
      · rw [if_neg (by simp [hb]), if_neg hb, if_neg hb]

theorem unshelveReport_eq {s t : State} {p : Nat} (ht : t.tables = s.tables) (act : Action) (who : Option Actor) :
    unshelveReport t p act who =
      { action := act, point := p, area := (s.pointDef p).area, occ := (t.slotOf p).map fun x => x.2.occ
        stateAfter := (t.slotOf p).map fun x => x.2.state.code, actor := who } := by
  unfold unshelveReport
  rw [pointDef_congr (congrArg Tables.points ht)]
  cases t.slotOf p <;> rfl

/-- The AREP of the removal of a shelf entry (R64). -/
theorem unshelveEvent_reported (p : Nat) (act : Action) (who : Option Actor) (s : State) :
    UnshelvingReported p s.stamp act who s (unshelveEvent p act who s) := by
  intro hsound hquiet
  have hpart := unshelvedEv_part s p
  have ht : (unshelvedEv s p).s.tables = s.tables := tables_of_kept (s := s.unshelving p) hpart.kept
  rw [slotOf_congr (unshelveEvent_slots ..), unshelveEvent_eq, handOn_plant, report_plant, hpart.plant hquiet,
    hpart.stamp hsound, arepAt_congr ht hpart.arepSeq, unshelveReport_eq ht]

theorem Unshelved.congr {p : Nat} {now : Stamp} {s s' t t' : State} (h : Unshelved p now s t)
    (hs : s'.tables = s.tables ∧ s'.dyn = s.dyn ∧ s'.areas = s.areas ∧ s'.slots = s.slots ∧ s'.shelf = s.shelf)
    (ht : t'.areas = t.areas ∧ t'.slots = t.slots ∧ t'.shelf = t.shelf) : Unshelved p now s' t' := by
  obtain ⟨h1, h2, h3, h4, h5⟩ := hs
  obtain ⟨k1, k2, k3⟩ := ht
  unfold Unshelved OtherSlotsKept State.slotOf State.pointDef State.dynOf State.area State.areaParams at *
  rwa [h1, h2, h3, h4, h5, k1, k2, k3]

theorem UnshelvingReported.congr {p : Nat} {now : Stamp} {act : Action} {who : Option Actor} {s s' t t' : State}
    (h : UnshelvingReported p now act who s t) (hsound : s'.time.Sound → s.time.Sound)
    (hs : s'.tables = s.tables ∧ s'.latched = s.latched ∧ s'.arepSeq = s.arepSeq ∧ s'.plant = s.plant)
    (ht : t'.slots = t.slots ∧ t'.plant = t.plant) : UnshelvingReported p now act who s' t' := by
  obtain ⟨h1, h2, h3, h4⟩ := hs
  obtain ⟨k1, k2⟩ := ht
  intro hs' hquiet
  have hquiet' : s.engineering = [] ∨ s.isLatched .floodAny = true := by
    unfold State.engineering State.isLatched at hquiet ⊢
    rwa [h1, h2] at hquiet
  rw [k2, h (hsound hs') hquiet', h4, arepAt_congr h1 h3, slotOf_congr k1, pointDef_congr (congrArg Tables.points h1)]

theorem kept_withShelf {s t : State} (h : t.kept = s.kept) (l : List ShelfEntry) :
    ({ t with shelf := l } : State).kept = ({ s with shelf := l } : State).kept := by
  simp only [State.kept, Prod.mk.injEq] at h ⊢
  tauto

@[simp] theorem taken_latched (s : State) (ms n : Nat) (f : Frame) : (s.taken ms n f).latched = s.latched := by
  unfold State.taken; simp

/-! ## UNSHELVE (R68) -/

section
variable {ms op p : Nat} {f : Frame} {s : State} (hc : countedFrom s f op = true) (hr : f.recs = [⟨0x24#8, b2 p⟩])
  (hp : p < 65536)
include hc hr hp

theorem exec_unshelve_of_refused {r : Result} (h : firstFailing (shelfChecks s f op p) = some r) :
    exec (.unshelve ms f) s = .next ((s.taken ms 1 f).sendEntry .console (respTo s f op r [stateRec s p])) := by
  refine congrArg Host.Outcome.next ((oreq_of_counted hc ms _).trans ?_)
  have hfield : field2 (b2 p) 0 = p := natOf_b2 hp
  unfold takeUnshelve
  rw [oreqData_of_recs (n := 2) hr rfl]
  dsimp only
  rw [hfield, shelfRefusal_taken, h]
  dsimp only
  rw [reply_eq (taken_tables ..), stateRec_taken]

theorem exec_unshelve_of_unshelved (h : firstFailing (shelfChecks s f op p) = none) (hs : s.shelved p = false) :
    exec (.unshelve ms f) s
      = .next ((s.taken ms 1 f).sendEntry .console (respTo s f op .notPending [stateRec s p])) := by
  refine congrArg Host.Outcome.next ((oreq_of_counted hc ms _).trans ?_)
  have hfield : field2 (b2 p) 0 = p := natOf_b2 hp
  unfold takeUnshelve
  rw [oreqData_of_recs (n := 2) hr rfl]
  dsimp only
  rw [hfield, shelfRefusal_taken, h]
  dsimp only
  rw [if_neg (by rw [shelved_congr (taken_shelf ..), hs]; simp), reply_eq (taken_tables ..), stateRec_taken]

/-- The UNSHELVE of a shelved point removes its entry and answers with what that leaves. -/
theorem exec_unshelve_of_shelved {t : State} (h : firstFailing (shelfChecks s f op p) = none) (hs : s.shelved p = true)
    (ht : unshelveEvent p .unshelve (some ⟨op, f.source.toNat, f.seat.toNat⟩) (s.taken ms 1 f) = t) :
    exec (.unshelve ms f) s = .next (t.sendEntry .console (respTo s f op .ok [stateRec t p])) := by
  have htab : t.tables = s.tables := by
    have hk := unshelveEvent_kept ((taken_request s ms 1 f).trans (request_of_countedFrom hc)) p .unshelve
      (some ⟨op, f.source.toNat, f.seat.toNat⟩)
    rw [← ht]
    exact (tables_of_kept (s := (s.taken ms 1 f).unshelving p) hk).trans (taken_tables ..)
  refine congrArg Host.Outcome.next ((oreq_of_counted hc ms _).trans ?_)
  have hfield : field2 (b2 p) 0 = p := natOf_b2 hp
  unfold takeUnshelve
  rw [oreqData_of_recs (n := 2) hr rfl]
  dsimp only
  rw [hfield, shelfRefusal_taken, h]
  dsimp only
  rw [if_pos (by rw [shelved_congr (taken_shelf ..), hs]),
    show (senderOf f op).actor = ⟨op, f.source.toNat, f.seat.toNat⟩ from rfl, ht, reply_eq htab]

end

/-! ## SHELF_EXPIRED (R69) -/

/-- The first entry in list order whose expiry is owed is removed. -/
theorem exec_shelfExpired {p : Nat} {l r : List ShelfEntry} {e : ShelfEntry} {s : State} (hs : s.settled = true)
    (hl : s.shelf = l ++ e :: r) (hp : e.point = p) (ht : e.ticks ≤ 1) (ho : TickItem.shelf p ∈ s.owed)
    (hn : ∀ x ∈ l, TickItem.shelf x.point ∉ s.owed) :
    exec .shelfExpired s = .next (unshelveEvent p .shelfExpired none (s.beginEvent.dropOwed (.shelf p))) := by
  have hfirst : firstExpiring s.beginEvent = some p := by
    have hnone : l.find? (fun e => s.owed.contains (.shelf e.point) && decide (e.ticks ≤ 1)) = none :=
      List.find?_eq_none.2 fun x hx => by simp [hn x hx]
    show (s.shelf.find? fun e => s.owed.contains (.shelf e.point) && decide (e.ticks ≤ 1)).map (·.point) = some p
    rw [hl, List.find?_append, hnone, Option.none_or, List.find?_cons_of_pos (by simp [hp, ho, ht]), Option.map_some, hp]
  have hentry : s.shelf.find? (fun x => x.point == p) = some e := by
    have hnone : l.find? (fun x => x.point == p) = none :=
      List.find?_eq_none.2 fun x hx hx' => hn x hx (by rwa [show x.point = p by simpa using hx'])
    rw [hl, List.find?_append, hnone, Option.none_or, List.find?_cons_of_pos (by simp [hp])]
  have hexp : expires (.shelf p) s.beginEvent = true := by
    show (s.shelf.find? fun x => x.point == p).any (fun e => decide (e.ticks ≤ 1)) = true
    rw [hentry]
    simpa using ht
  have hwork : tickWork (.shelf p) (s.beginEvent.dropOwed (.shelf p))
      = unshelveEvent p .shelfExpired none (s.beginEvent.dropOwed (.shelf p)) := by
    show shelfWork p (s.beginEvent.dropOwed (.shelf p)) = _
    unfold shelfWork
    rw [show (s.beginEvent.dropOwed (.shelf p)).shelfEntry p = some e from hentry]
    exact if_pos ht
  refine congrArg Host.Outcome.next ?_
  rw [enter_of_settled hs, hfirst]
  dsimp only
  unfold takeOwed
  rw [if_pos (by rw [hexp]; simpa [State.beginEvent] using ho), hwork]

/-- Settles O36: SHELVE by the alarm table's part of its event, UNSHELVE and SHELF_EXPIRED by what the removal of the entry
leaves. -/
theorem shelvingActsOnThePoint : Obligations.ShelvingActsOnThePoint := by
  refine ⟨fun ms op p f s hc hr hp => exec_shelve_of_zero hc hr hp,
    fun ms op p m f s hc hr hp hm1 hm hk => ⟨fun r h => exec_shelve_of_refused hc hr hp hm1 hm h, fun h => ?_⟩,
    fun ms op p f s hc hr hp => ⟨fun r h => exec_unshelve_of_refused hc hr hp h,
      fun h hs => exec_unshelve_of_unshelved hc hr hp h hs, fun h hs => ?_⟩,
    fun p l r e s hs hl hp ht ho hn => ?_⟩
  · obtain ⟨e, t, he, ht, hb⟩ := shelve_acts hc hr hp hm1 hm h
    have hfound := markShelved_slotOf p ((s.taken ms 1 f).placing (senderOf f op) p (min m (s.pointDef p).shelveLimit))
    have hslot : ((s.taken ms 1 f).placing (senderOf f op) p (min m (s.pointDef p).shelveLimit)).slotOf p = s.slotOf p :=
      slotOf_congr (by simp) p
    have hframe := markShelved_frame p ((s.taken ms 1 f).placing (senderOf f op) p (min m (s.pointDef p).shelveLimit))
    rw [he, hslot] at hfound
    rw [he] at hframe
    have htab : e.s.tables = s.tables := by rw [hframe]; simp
    have hqueue : e.s.queue = s.queue := by rw [hframe]; simp
    have hshelf := hb.shelf
    rw [newShelfEntry_taken] at hshelf
    refine ⟨t, ht, fun x => ?_, fun hsorted => ?_, fun hn => ?_, fun i sl hs => ?_, ?_, fun hsound hroom => ?_,
      fun x => ?_, hb.consoles, hb.frame⟩
    · rw [hshelf, mem_placeShelf_iff, mem_removeShelf]
    · rw [hshelf]
      exact placeShelf_removeShelf p _ hsorted
    · rw [markShelved_of_none (hslot.trans hn)] at he
      subst he
      exact ⟨by rw [hb.slots]; simp, hb.area rfl⟩
    · obtain ⟨hmem, hpoint⟩ := mem_of_slotOf hs
      cases hsh : sl.shelved with
      | true =>
        rw [markShelved_of_shelved (hslot.trans hs) hsh] at he
        have hslots : t.slots = s.slots := by rw [hb.slots, ← he]; simp
        refine ⟨?_, fun j _ => by rw [hslots], hb.areas, fun h => by cases h⟩
        rw [hslots, lookup_of_mem hk hmem, ← hsh]
      | false =>
        rw [markShelved_of_slot (hslot.trans hs) hsh] at he
        have hslots : t.slots = insertAt s.slots i { sl with shelved := true } := by rw [hb.slots, ← he]; simp
        refine ⟨by rw [hslots, lookup_insertAt_self], fun j hj => by rw [hslots, lookup_insertAt_of_ne _ hj],
          hb.areas, fun _ => hb.oneGeneration _ fun c => ?_⟩
        rw [← he]
        have hd : ((s.taken ms 1 f).placing (senderOf f op) p (min m (s.pointDef p).shelveLimit)).pointDef p
            = s.pointDef p := pointDef_congr (by simp) p
        simp [shelvedChange, hpoint, hd]
    · rw [hb.console, stateRec_of_marked hqueue hfound]
    · rw [hb.plant hsound hroom, shelveReport_of_marked htab hfound]
    · rw [hb.owed]
      simp
  · have hreq : (s.taken ms 1 f).request = none := (taken_request ..).trans (request_of_countedFrom hc)
    have hu := unshelveEvent_unshelved hreq p .unshelve (some ⟨op, f.source.toNat, f.seat.toNat⟩)
    have hr' := unshelveEvent_reported p .unshelve (some ⟨op, f.source.toNat, f.seat.toNat⟩) (s.taken ms 1 f)
    have hk := unshelveEvent_kept hreq p .unshelve (some ⟨op, f.source.toNat, f.seat.toNat⟩)
    have hcon := unshelveEvent_console p .unshelve (some ⟨op, f.source.toNat, f.seat.toNat⟩) (s.taken ms 1 f)
    have hcons := unshelveEvent_consolesKept p .unshelve (some ⟨op, f.source.toNat, f.seat.toNat⟩) (s.taken ms 1 f)
    refine ⟨_, exec_unshelve_of_shelved hc hr hp h hs rfl, ?_, fun hroom => ?_, ?_, ?_, ?_⟩
    all_goals generalize unshelveEvent p .unshelve (some ⟨op, f.source.toNat, f.seat.toNat⟩) (s.taken ms 1 f) = u at *
    · rw [taken_stamp] at hu
      exact hu.congr (by simp) (by simp)
    · rw [taken_stamp] at hr'
      exact hr'.congr (fun h => taken_time_sound h ms 1 f) (by simp)
        ⟨by simp, sendEntry_console_plant_of_room (by rw [hcon]; simpa using hroom) _⟩
    · have hst (e : OwnEntry) : stateRec (u.sendEntry .console e) p = stateRec u p :=
        stateRec_congr (by simp) (by simp) p
      rw [sendEntry_console_console, hcon, taken_console, hst]
    · exact hcons.trans (.of_eq (by simp))
    · have hshelf : u.shelf = ((s.taken ms 1 f).unshelving p).shelf := by
        obtain ⟨h, -⟩ := hu
        exact h
      rw [alarmEventFrame_iff, kept_sendEntry, hk, State.sendEntry_shelf, hshelf]
      exact kept_withShelf (kept_taken s ms 1 f) _
  · have hreq : (s.beginEvent.dropOwed (.shelf p)).request = none := ((settled_iff s).1 hs).1
    have hu := unshelveEvent_unshelved hreq p .shelfExpired none
    have hk := unshelveEvent_kept hreq p .shelfExpired none
    refine ⟨_, exec_shelfExpired hs hl hp ht ho hn, hu,
      unshelveEvent_reported p .shelfExpired none (s.beginEvent.dropOwed (.shelf p)), unshelveEvent_console .., ?_,
      fun x => ?_, ?_⟩
    · exact unshelveEvent_consolesKept p .shelfExpired none (s.beginEvent.dropOwed (.shelf p))
    all_goals
      generalize unshelveEvent p .shelfExpired none (s.beginEvent.dropOwed (.shelf p)) = u at *
      have hkept := hk
      simp only [State.kept, Prod.mk.injEq] at hkept
      obtain ⟨-, -, -, -, -, hshelf, -, -, -, -, -, -, -, -, howed, -⟩ := hkept
    · rw [howed]
      exact (List.mem_filter (p := fun y => !(y == TickItem.shelf p))).trans (by simp)
    · rw [alarmEventFrame_iff, hk, hshelf, howed]
      rfl

end Sys2Proof.Machine

namespace Sys2Proof.Machine

/-! ## A telegram of a controller as its owner finds it (R31, R34) -/

/-- What the liveness of a controller's telegram leaves as it was: all but its controllers, and the SREQ that it may send. -/
structure HeardFrom (s : State) (ms me : Nat) (h : State) : Prop where
  kept : h.kept = ({ s with controllers := h.controllers } : State).kept
  slots : h.slots = s.slots
  areas : h.areas = s.areas
  consoles : h.consoles = s.consoles
  records : h.records = s.records
  arepSeq : h.arepSeq = s.arepSeq
  time : h.time = (s.atArrival ms).time
  console : h.console = s.console
  latched : ∀ x, s.isLatched x = true → h.isLatched x = true
  others : ∀ a, a ≠ me → lookup h.controllers a = lookup s.controllers a
  live : ∀ a, h.controllerLive a = s.controllerLive a
  present : (lookup h.controllers me).isSome = (lookup s.controllers me).isSome

theorem heardFrom_atArrival (s : State) (ms me : Nat) : HeardFrom s ms me (s.atArrival ms) :=
  ⟨rfl, rfl, rfl, rfl, rfl, rfl, rfl, rfl, fun _ h => h, fun _ _ => rfl, fun _ => rfl, rfl⟩

section
variable {s u : State} {ms me : Nat} (h : HeardFrom s ms me u)
include h

theorem HeardFrom.modController {f : Controller → Controller} (hf : ∀ c, (f c).live = c.live) :
    HeardFrom s ms me (u.modController me f) := by
  refine ⟨?_, by simpa using h.slots, by simpa using h.areas, by simpa using h.consoles, by simpa using h.records,
    by simpa using h.arepSeq, by simpa using h.time, by simpa using h.console, fun x hx => ?_, fun a ha => ?_, fun a => ?_,
    ?_⟩
  · have hk := h.kept
    simp only [State.kept, Prod.mk.injEq] at hk ⊢
    simpa using hk
  · rw [isLatched_congr (s := u) (by simp)]
    exact h.latched x hx
  · rw [lookup_modController, if_neg ha]
    exact h.others a ha
  · rw [← h.live]
    unfold State.controllerLive
    rw [lookup_modController]
    by_cases ha : a = me
    · rw [if_pos ha, ha]
      cases lookup u.controllers me <;> simp [hf]
    · rw [if_neg ha]
  · rw [lookup_modController, if_pos rfl, Option.isSome_map]
    exact h.present

theorem HeardFrom.send (t : Telegram) : HeardFrom s ms me (u.send .plant t) := by
  unfold State.send
  refine ⟨?_, by simpa using h.slots, by simpa using h.areas, by simpa using h.consoles, by simpa using h.records,
    by simpa using h.arepSeq, by simpa using h.time, by simpa using h.console, fun x hx => ?_, fun a ha => ?_, fun a => ?_,
    by simpa using h.present⟩
  · have hk := h.kept
    simp only [State.kept, Prod.mk.injEq] at hk ⊢
    simpa using hk
  · unfold State.sendEntry
    split
    · exact h.latched x hx
    · exact latch_keeps _ _ _ (h.latched x hx)
  · rw [State.sendEntry_controllers]
    exact h.others a ha
  · rw [controllerLive_congr (State.sendEntry_controllers ..)]
    exact h.live a

theorem HeardFrom.sendSreq : HeardFrom s ms me (sendSreq me u) := by
  unfold Machine.sendSreq
  split
  · exact h.send _
  · exact h

end

theorem heard_heardFrom (s : State) (ms : Nat) (f : Frame) :
    HeardFrom s ms f.source.toNat (s.heard ms .plant f) := by
  have h0 := heardFrom_atArrival s ms f.source.toNat
  have h : HeardFrom s ms f.source.toNat (liveness .plant f.source.toNat (s.atArrival ms)).1 := by
    unfold liveness
    dsimp only
    split
    · have h1 := h0.modController (f := fun k => { k with silence := 0 }) fun _ => rfl
      split
      · exact (h1.modController (f := fun c =>
          { c with snapNumber := wrapUp c.snapNumber, sent := 1, wait := Config.snapshotWait, phase := .requested })
          fun _ => rfl).sendSreq
      · exact h1
    · exact h0
  exact ⟨h.kept, h.slots, h.areas, h.consoles, h.records, h.arepSeq, h.time, h.console, h.latched, h.others, h.live,
    h.present⟩

/-- One point record of a PREP is taken as one event, and its controller's snapshot set follows (R26, R27, R37). -/
theorem exec_prep_one {s : State} {f : Frame} {d : List Byte} {p : Nat} {c : Condition} (h : PointReport s f d p c)
    (ms : Nat) : exec (.prep ms f) s =
      .next (followReport f.source.toNat p c (reportEvent p c (s.heard ms .plant f))) := by
  obtain ⟨ha, hc, hown, hrecs, hlen, hp, hcond, hpc, hdef, hctrl, -⟩ := h
  have hh := heard_heardFrom s ms f
  have htab := tables_of_kept (s := { s with controllers := (s.heard ms .plant f).controllers }) hh.kept
  refine congrArg Host.Outcome.next ((receive_of_arrives ha ms _).trans ?_)
  have hin : (lookup (s.heard ms .plant f).controllers f.source.toNat).isSome
      ∧ toOwnOrAll (s.heard ms .plant f) f = true := by
    refine ⟨by rw [hh.present]; exact Option.isSome_iff_ne_none.2 hc, ?_⟩
    unfold toOwnOrAll toOwn State.ownAddress at hown ⊢
    rwa [htab]
  rw [if_pos hin, hrecs]
  have hcode : conditionOf (field1 d 2) = some c := by rw [hcond]; cases c <;> rfl
  have hrep : reportable (s.heard ms .plant f) f.source.toNat p = true := by
    have hpc' : p < Config.pointCount := hpc
    have hd : (s.heard ms .plant f).pointDef p = s.pointDef p := pointDef_congr (congrArg Tables.points htab) p
    unfold reportable
    rw [hd]
    simp [hpc', hdef, hctrl]
  unfold applyPrep
  rw [if_neg (by simp), if_neg (show ¬ (d.length ≠ 3 ∧ d.length ≠ 9) by omega)]
  dsimp only
  rw [hp, hcode]
  dsimp only
  rw [if_pos hrep]
  rfl

/-! ## Stage 1 of a report (R27, R51) -/

theorem reportStage1_dyn (d : PointDef) (y : PointDyn) (c : Condition) : (reportStage1 d y c).1 = dynAfterReport d y c := by
  unfold reportStage1 dynAfterReport chatterAdded
  split
  · rfl
  · cases y.held <;> rfl

/-- The report starts a chatter hold (R51). -/
def startsHold (s : State) (p : Nat) (c : Condition) : Bool :=
  (dynAfterReport (s.pointDef p) (s.dynOf p) c).held && !(s.dynOf p).held

theorem reportStage1_starts (s : State) (p : Nat) (c : Condition) :
    (reportStage1 (s.pointDef p) (s.dynOf p) c).2.2 = startsHold s p c := by
  unfold reportStage1 startsHold dynAfterReport chatterAdded
  split
  · simp
  · cases (s.dynOf p).held <;> simp

/-- The state after stage 1, with the AREP of a hold that has started. -/
def State.reporting (s : State) (p : Nat) (c : Condition) : State :=
  if startsHold s p c then
    (s.setDyn p (dynAfterReport (s.pointDef p) (s.dynOf p) c)).report
      (holdReport p (c == .active) (s.setDyn p (dynAfterReport (s.pointDef p) (s.dynOf p) c)))
  else s.setDyn p (dynAfterReport (s.pointDef p) (s.dynOf p) c)

/-- The alarm table's part of a report: stage 2, and the mark of a hold that has started. -/
def reportedEv (s : State) (p : Nat) (c : Condition) : Ev :=
  if startsHold s p c then markHeld p (applyReport p (c == .active) .report { s := s.reporting p c })
  else applyReport p (c == .active) .report { s := s.reporting p c }

theorem reportStages_eq (p : Nat) (c : Condition) (s : State) : reportStages p c s = reportedEv s p c := by
  unfold reportStages reportedEv State.reporting
  dsimp only
  rw [reportStage1_starts, reportStage1_dyn]

/-- What stage 1 leaves as it was. -/
structure Reporting (s u : State) (p : Nat) (c : Condition) : Prop where
  kept : u.kept = ({ s with dyn := u.dyn } : State).kept
  slots : u.slots = s.slots
  areas : u.areas = s.areas
  consoles : u.consoles = s.consoles
  records : u.records = s.records
  console : u.console = s.console
  latched : ∀ x, s.isLatched x = true → u.isLatched x = true
  dyn : ∀ q, u.dynOf q = if q = p then dynAfterReport (s.pointDef p) (s.dynOf p) c else s.dynOf q
  time : s.time.Sound → u.marked.time = s.marked.time
  stamp : s.time.Sound → u.stamp = s.stamp
  plant : u.plant = if startsHold s p c then
      s.plant.joinOwn (arepAt s s.stamp
        (holdReport p (c == .active) (s.setDyn p (dynAfterReport (s.pointDef p) (s.dynOf p) c))))
    else s.plant

theorem reporting_reporting (s : State) (p : Nat) (c : Condition) : Reporting s (s.reporting p c) p c := by
  unfold State.reporting
  have hd := dynOf_setDyn s p (d := dynAfterReport (s.pointDef p) (s.dynOf p) c)
  cases hs : startsHold s p c with
  | false =>
    simp only [Bool.false_eq_true, if_false]
    exact ⟨rfl, rfl, rfl, rfl, rfl, rfl, fun _ h => h, hd, fun _ => rfl, fun _ => rfl, by rw [hs]; rfl⟩
  | true =>
    simp only [if_true]
    generalize hR : holdReport p (c == .active) (s.setDyn p (dynAfterReport (s.pointDef p) (s.dynOf p) c)) = R
    have hst : s.time.Sound → ((s.setDyn p (dynAfterReport (s.pointDef p) (s.dynOf p) c)).report R).stamp = s.stamp :=
      fun h => stamp_report (s := s.setDyn p _) h R
    refine ⟨?_, by simp, by simp, by simp, by simp, by simp,
      fun x hx => report_isLatched (s := s.setDyn p _) hx R, fun q => ?_, fun h => ?_,
      hst, ?_⟩
    · rw [kept_report, State.report_dyn]
      rfl
    · rw [dynOf_congr (State.report_dyn ..)]
      exact hd q
    · have ht := report_time (s.setDyn p (dynAfterReport (s.pointDef p) (s.dynOf p) c)) R
      have hm (u : State) : u.marked.time = { u.time with high := u.stamp } := rfl
      rw [hm, hm, hst h, ht]
      rfl
    · rw [report_plant, hs, if_pos rfl, hR]
      rfl

/-- The load monitor's part of a report, and what is handed on. -/
def loadedReport (s : State) (p : Nat) (c : Condition) : Ev :=
  loadStage { s := (reportedEv s p c).s
              changes := (reportedEv s p c).changes.map (reportFacts p (reportStage1 (s.pointDef p) (s.dynOf p) c)) }

theorem reportEvent_handOn (p : Nat) (c : Condition) (s : State) :
    reportEvent p c s = handOn s.beginEvent (loadedReport s.beginEvent p c) [] := by
  rw [reportEvent_eq, reportStages_eq]
  rfl

/-- The alarm table's part of a report, where it hands on at most one slot change: its slots, queue and high mark, with
the change it hands on. -/
structure TablePart (s : State) (p : Nat) (c : Condition) (x : Option SlotChange) : Prop where
  frame : (reportedEv s p c).s =
    { s.reporting p c with
      slots := (reportedEv s p c).s.slots, queue := (reportedEv s p c).s.queue, time := (reportedEv s p c).s.time }
  changes : (reportedEv s p c).changes = x.toList
  point : ∀ y, x = some y → y.point = p ∧ y.area = (s.pointDef p).area
  found : ∀ i sl, (reportedEv s p c).s.slotOf p = some (i, sl) → lookup (reportedEv s p c).s.slots i = some sl
  occ : ((reportedEv s p c).s.slotOf p).map (fun y => y.2.occ)
    = (holdReport p (c == .active) (s.setDyn p (dynAfterReport (s.pointDef p) (s.dynOf p) c))).occ

/-- The slot change counts as an onset of the report (R44): it is a candidate, and its point was neither shelved nor held
before the report. -/
def countsIn (s : State) (p : Nat) (x : Option SlotChange) : Bool := x.any (·.candidate) && countsOnset s p

theorem held_of_held {d : PointDef} {y : PointDyn} (c : Condition) (h : y.held = true) :
    (dynAfterReport d y c).held = true := by
  unfold dynAfterReport
  split <;> simp [h]

section
variable {s : State} {p : Nat} {c : Condition} {x : Option SlotChange} (h : TablePart s p c x)
include h

theorem TablePart.kept : (reportedEv s p c).s.kept =
    ({ s with dyn := (reportedEv s p c).s.dyn, queue := (reportedEv s p c).s.queue } : State).kept := by
  have hk := (reporting_reporting s p c).kept
  rw [h.frame]
  simp only [State.kept, Prod.mk.injEq] at hk ⊢
  tauto

theorem TablePart.dynOf (q : Nat) : (reportedEv s p c).s.dynOf q =
    if q = p then dynAfterReport (s.pointDef p) (s.dynOf p) c else s.dynOf q := by
  rw [← (reporting_reporting s p c).dyn, h.frame]
  rfl

theorem TablePart.tables : (reportedEv s p c).s.tables = s.tables :=
  tables_of_kept (s := { s with dyn := (reportedEv s p c).s.dyn, queue := (reportedEv s p c).s.queue }) h.kept

theorem TablePart.shelf : (reportedEv s p c).s.shelf = s.shelf := by
  have hk := h.kept
  simp only [State.kept, Prod.mk.injEq] at hk
  obtain ⟨-, -, -, -, -, hs, -⟩ := hk
  exact hs

theorem TablePart.request : (reportedEv s p c).s.request = s.request := by
  have hk := h.kept
  simp only [State.kept, Prod.mk.injEq] at hk
  obtain ⟨-, -, -, -, -, -, -, -, -, -, hr, -⟩ := hk
  exact hr

/-- A candidate of a report counts where the point was neither shelved nor held before the report (R44, R51). -/
theorem TablePart.isCounted {y : SlotChange} (hx : x = some y) :
    isCounted (reportedEv s p c).s (reportFacts p (reportStage1 (s.pointDef p) (s.dynOf p) c) y) = countsIn s p x := by
  obtain ⟨hp, -⟩ := h.point y hx
  have hc : (reportFacts p (reportStage1 (s.pointDef p) (s.dynOf p) c) y).candidate = y.candidate := rfl
  have hpt : (reportFacts p (reportStage1 (s.pointDef p) (s.dynOf p) c) y).point = p := hp
  have hst : (reportFacts p (reportStage1 (s.pointDef p) (s.dynOf p) c) y).startedHold = startsHold s p c := by
    simp [reportFacts, reportStage1_starts, hp]
  unfold Machine.isCounted countsIn countsOnset
  rw [hc, hpt, hst, shelved_congr h.shelf, h.dynOf, if_pos rfl, hx]
  cases hh : (s.dynOf p).held with
  | true => simp [startsHold, hh, held_of_held c hh]
  | false => simp [startsHold, hh]

end

/-- What the load stage and the handing on of a report leave, beside the slots. -/
structure LoadedPart (s : State) (p : Nat) (c : Condition) (x : Option SlotChange) (e : Ev) : Prop where
  names : e.changes.map (·.area) = (x.map fun _ => (s.pointDef p).area).toList
  area : ∀ b, e.s.area b = if b = (s.pointDef p).area then
      (s.area b).afterReport (s.areaParams b) false (countsIn s p x) (s.pointDef p).priority
    else s.area b
  kept : e.s.kept = (reportedEv s p c).s.kept
  time : e.s.time = (reportedEv s p c).s.time
  console : e.s.console = s.console
  plant : s.engineering = [] ∨ s.isLatched .floodAny = true
      ∨ (e.s.area (s.pointDef p).area).flood = (s.area (s.pointDef p).area).flood →
    e.s.plant = (s.reporting p c).plant

theorem loadedReport_part {s : State} {p : Nat} {c : Condition} {x : Option SlotChange} (h : TablePart s p c x) :
    LoadedPart s p c x (loadedReport s p c) := by
  have hr := reporting_reporting s p c
  have hplant : (reportedEv s p c).s.plant = (s.reporting p c).plant := by rw [h.frame]
  have hareas : (reportedEv s p c).s.areas = s.areas := by rw [h.frame]; exact hr.areas
  have hcon : (reportedEv s p c).s.console = s.console := by rw [h.frame]; exact hr.console
  unfold loadedReport
  rw [h.changes]
  cases hx : x with
  | none =>
    refine ⟨rfl, fun b => ?_, rfl, rfl, hcon, fun _ => hplant⟩
    have : countsIn s p none = false := rfl
    rw [this, afterReport_same, ite_self]
    exact area_congr hareas b
  | some y =>
    obtain ⟨hp, ha⟩ := h.point y hx
    have hcount := h.isCounted hx
    rw [hx] at hcount
    have hl := loadOne_loaded (reportedEv s p c).s
      (reportFacts p (reportStage1 (s.pointDef p) (s.dynOf p) c) y)
    have hpt : (reportFacts p (reportStage1 (s.pointDef p) (s.dynOf p) c) y).point = p := hp
    have hat : (reportFacts p (reportStage1 (s.pointDef p) (s.dynOf p) c) y).area = (s.pointDef p).area := ha
    have hd : (reportedEv s p c).s.pointDef p = s.pointDef p := pointDef_congr (congrArg Tables.points h.tables) p
    refine ⟨hl.areas.trans (congrArg (fun a => [a]) hat), fun b => ?_, hl.kept, hl.time, hl.console.trans hcon,
      fun hq => ?_⟩
    · have hparams : (reportedEv s p c).s.areaParams b = s.areaParams b := by unfold State.areaParams; rw [h.tables]
      refine (hl.area b).trans ?_
      rw [hat, hpt, hcount, hd, hparams, area_congr hareas]
    · refine (hl.plant ?_).trans hplant
      rw [hat, area_congr hareas]
      refine hq.imp (fun he => ?_) (Or.imp_left fun hf => ?_)
      · unfold State.engineering at he ⊢
        rwa [h.tables]
      · have hlatch : (reportedEv s p c).s.latched = (s.reporting p c).latched := by rw [h.frame]
        rw [isLatched_congr hlatch]
        exact hr.latched _ hf

/-- The load stage of a report for a point in slot `i`: its slot takes SUPPRESSED where R46 says so. -/
theorem loadedReport_slot {s : State} {p : Nat} {c : Condition} {x : Option SlotChange} (h : TablePart s p c x) {i : Nat}
    {sl : Slot} (hs : (reportedEv s p c).s.slotOf p = some (i, sl)) :
    let t := (loadedReport s p c).s
    let z : Slot := { sl with suppressed := sl.suppressed || (countsIn s p x && x.any (suppresses t)) }
    lookup t.slots i = some z ∧ t.slotOf p = some (i, z) ∧ OtherSlotsKept i (reportedEv s p c).s t := by
  have hl := h.found i sl hs
  obtain ⟨-, hp⟩ := mem_of_slotOf hs
  unfold loadedReport
  rw [h.changes]
  cases hx : x with
  | none =>
    refine ⟨?_, ?_, fun _ _ => rfl⟩
    · exact hl.trans (by simp)
    · exact hs.trans (by simp)
  | some y =>
    obtain ⟨hy, -⟩ := h.point y hx
    have hcount := h.isCounted hx
    rw [hx] at hcount
    have hpt : (reportFacts p (reportStage1 (s.pointDef p) (s.dynOf p) c) y).point = p := hy
    have hone := loadOne_slot (c := reportFacts p (reportStage1 (s.pointDef p) (s.dynOf p) c) y) (hpt ▸ hs) hl
      (hp.trans hpt.symm)
    unfold suppressedNow at hone
    rw [hcount, hpt] at hone
    exact hone

theorem loadedReport_slots_of_none {s : State} {p : Nat} {c : Condition} {x : Option SlotChange} (h : TablePart s p c x)
    (hs : (reportedEv s p c).s.slotOf p = none) : (loadedReport s p c).s.slots = (reportedEv s p c).s.slots := by
  unfold loadedReport
  rw [h.changes]
  cases hx : x with
  | none => rfl
  | some y =>
    obtain ⟨hy, -⟩ := h.point y hx
    have hone := loadOne_slots (reportedEv s p c).s (reportFacts p (reportStage1 (s.pointDef p) (s.dynOf p) c) y)
    have hpt : (reportFacts p (reportStage1 (s.pointDef p) (s.dynOf p) c) y).point = p := hy
    unfold loadedSlots at hone
    rw [hpt, hs] at hone
    exact hone.trans (ite_self _)

theorem loadedReport_occ {s : State} {p : Nat} {c : Condition} {x : Option SlotChange} (h : TablePart s p c x) :
    ((loadedReport s p c).s.slotOf p).map (fun y => y.2.occ)
      = ((reportedEv s p c).s.slotOf p).map fun y => y.2.occ := by
  cases hs : (reportedEv s p c).s.slotOf p with
  | none => rw [slotOf_congr (loadedReport_slots_of_none h hs), hs]
  | some y =>
    obtain ⟨i, sl⟩ := y
    obtain ⟨-, hz, -⟩ := loadedReport_slot h hs
    rw [hz]
    rfl

end Sys2Proof.Machine

namespace Sys2Proof.Machine

/-! ## What the PREP of one record leaves (R25 to R27, R37, R51) -/

/-- What a PREP of one point record leaves, where the alarm table hands on at most the slot change `x`. -/
structure PrepLeaves (ms : Nat) (f : Frame) (p : Nat) (c : Condition) (x : Option SlotChange) (s t : State) : Prop where
  slots : t.slots = (loadedReport (s.heard ms .plant f) p c).s.slots
  area : ∀ b, t.area b = if b = (s.pointDef p).area then
      (s.area b).afterReport (s.areaParams b) x.isSome (countsIn s p x) (s.pointDef p).priority
    else s.area b
  flood : ∀ b, (t.area b).flood = ((loadedReport (s.heard ms .plant f) p c).s.area b).flood
  dyn : ∀ q, t.dynOf q = if q = p then dynAfterReport (s.pointDef p) (s.dynOf p) c else s.dynOf q
  hold : HoldReported ms f p s t
  snapshot : SnapshotFollows ms f p c s t
  queue : t.queue = (reportedEv (s.heard ms .plant f) p c).s.queue
  console : t.console = s.console
  frame : AlarmEventFrame { s with dyn := t.dyn, controllers := t.controllers, queue := t.queue } t
  time : t.time = (reportedEv (s.heard ms .plant f) p c).s.time
  consoles : t.consoles = (handOn (s.heard ms .plant f) (loadedReport (s.heard ms .plant f) p c) []).consoles

/-- A controller after a report (R37). -/
def followed (p : Nat) (c : Condition) (k : Controller) : Controller :=
  if k.phase = .receiving then
    { k with snapSet := if c = .active then insertNat p k.snapSet else k.snapSet.filter fun x => !(x == p) }
  else k

theorem followReport_eq (a p : Nat) (c : Condition) (s : State) :
    followReport a p c s = s.modController a (followed p c) := by
  cases c <;> rfl

theorem followed_bare (p : Nat) (c : Condition) (k : Controller) :
    { followed p c k with snapSet := [] } = { k with snapSet := [] } := by
  unfold followed; split <;> rfl

theorem followed_snapSet (p q : Nat) (c : Condition) (k : Controller) : (followed p c k).snapSet.contains q =
    if k.phase = .receiving ∧ q = p then c == .active else k.snapSet.contains q := by
  unfold followed
  by_cases hk : k.phase = .receiving
  · by_cases hq : q = p
    · cases c <;> simp [hk, hq, mem_insertNat]
    · cases c <;> simp [hk, hq, mem_insertNat]
  · simp [hk]

/-- The snapshot set of a controller in RECEIVING follows a report (R37). -/
theorem followReport_snapshotFollows {ms : Nat} {f : Frame} {p : Nat} {c : Condition} {s u : State}
    (hu : u.controllers = (s.heard ms .plant f).controllers) :
    SnapshotFollows ms f p c s (followReport f.source.toNat p c u) := by
  have hothers := (heard_heardFrom s ms f).others
  rw [followReport_eq]
  unfold SnapshotFollows State.inSnapshot
  simp only [lookup_modController, hu]
  generalize (s.heard ms .plant f).controllers = l at hothers
  refine ⟨fun a => ?_, fun a ha => by rw [if_neg ha, hothers a ha], fun q => ?_⟩
  · by_cases ha : a = f.source.toNat
    · rw [if_pos ha, ha]
      cases lookup l f.source.toNat with
      | none => rfl
      | some k => exact congrArg some (followed_bare p c k)
    · rw [if_neg ha]
  · rw [if_true]
    cases lookup l f.source.toNat with
    | none => simp
    | some k => simpa using followed_snapSet p q c k

@[simp] theorem followReport_kept (a p : Nat) (c : Condition) (s : State) : (followReport a p c s).kept =
    ({ s with controllers := (followReport a p c s).controllers } : State).kept := by
  unfold followReport
  simp only [State.kept, Prod.mk.injEq]
  simp

/-- The fields of a state that the frame of an alarm event keeps, where only its dynamic states, its controllers and its
queue differ. -/
theorem kept_fields {s t : State} {d : List (Nat × PointDyn)} {k : List (Nat × Controller)} {q : List QEntry}
    (h : t.kept = ({ s with dyn := d, controllers := k, queue := q } : State).kept) :
    t.tables = s.tables ∧ t.dyn = d ∧ t.queue = q ∧ t.shelf = s.shelf ∧ t.controllers = k ∧ t.request = s.request := by
  simp only [State.kept, Prod.mk.injEq] at h
  tauto

theorem request_of_arrives {p : PortId} {s : State} {f : Frame} (h : arrives p s f = true) : s.request = none := by
  simp only [arrives, Bool.and_eq_true, ready_iff, settled_iff] at h
  obtain ⟨⟨⟨⟨hr, -⟩, -⟩, -⟩, -⟩ := h
  exact hr

theorem heard_fields (s : State) (ms : Nat) (f : Frame) : (s.heard ms .plant f).tables = s.tables
    ∧ (s.heard ms .plant f).dyn = s.dyn ∧ (s.heard ms .plant f).queue = s.queue
    ∧ (s.heard ms .plant f).shelf = s.shelf ∧ (s.heard ms .plant f).request = s.request := by
  obtain ⟨h1, h2, h3, h4, -, h5⟩ := kept_fields (s := s) (d := s.dyn) (q := s.queue) (heard_heardFrom s ms f).kept
  exact ⟨h1, h2, h3, h4, h5⟩

@[simp] theorem heard_tables (s : State) (ms : Nat) (f : Frame) : (s.heard ms .plant f).tables = s.tables := by
  obtain ⟨h, -⟩ := heard_fields s ms f
  exact h
@[simp] theorem heard_slots (s : State) (ms : Nat) (f : Frame) : (s.heard ms .plant f).slots = s.slots :=
  (heard_heardFrom s ms f).slots
@[simp] theorem heard_queue (s : State) (ms : Nat) (f : Frame) : (s.heard ms .plant f).queue = s.queue := by
  obtain ⟨-, -, h, -⟩ := heard_fields s ms f
  exact h
@[simp] theorem heard_pointDef (s : State) (ms p : Nat) (f : Frame) :
    (s.heard ms .plant f).pointDef p = s.pointDef p := pointDef_congr (by simp) p
@[simp] theorem heard_dynOf (s : State) (ms p : Nat) (f : Frame) : (s.heard ms .plant f).dynOf p = s.dynOf p := by
  obtain ⟨-, h, -⟩ := heard_fields s ms f
  exact dynOf_congr h p
@[simp] theorem heard_shelved (s : State) (ms p : Nat) (f : Frame) : (s.heard ms .plant f).shelved p = s.shelved p := by
  obtain ⟨-, -, -, h, -⟩ := heard_fields s ms f
  exact shelved_congr h p
@[simp] theorem heard_area (s : State) (ms a : Nat) (f : Frame) : (s.heard ms .plant f).area a = s.area a :=
  area_congr (heard_heardFrom s ms f).areas a
@[simp] theorem heard_areaParams (s : State) (ms a : Nat) (f : Frame) :
    (s.heard ms .plant f).areaParams a = s.areaParams a := by unfold State.areaParams; simp
@[simp] theorem heard_stamp (s : State) (ms : Nat) (f : Frame) : (s.heard ms .plant f).stamp = s.stampAt ms :=
  stamp_congr (heard_heardFrom s ms f).time

theorem heard_sound {s : State} (h : s.time.Sound) (ms : Nat) (f : Frame) : (s.heard ms .plant f).time.Sound := by
  obtain ⟨h1, h2, h3, h4, h5, h6⟩ := h
  rw [(heard_heardFrom s ms f).time]
  exact ⟨h1, h2, h3, h4, max_le h5 (min_le_right ..), h6⟩

theorem heard_startsHold (s : State) (ms p : Nat) (f : Frame) (c : Condition) :
    startsHold (s.heard ms .plant f) p c = startsHold s p c := by unfold startsHold; simp

theorem heard_countsIn (s : State) (ms p : Nat) (f : Frame) (x : Option SlotChange) :
    countsIn (s.heard ms .plant f) p x = countsIn s p x := by unfold countsIn countsOnset; simp

theorem holdReport_eq (p : Nat) (active : Bool) (s : State) : holdReport p active s =
    { action := .chatterHold, point := p, area := (s.pointDef p).area, occ := (holdReport p active s).occ } := rfl

section
variable {ms p : Nat} {f : Frame} {c : Condition} {s : State} {x : Option SlotChange}
  (hx : TablePart (s.heard ms .plant f) p c x)
include hx

/-- The load stage of a report in the event of a telegram keeps what every alarm event keeps. -/
theorem loadedReport_kept : (loadedReport (s.heard ms .plant f) p c).s.kept =
    ({ s with
      dyn := (reportedEv (s.heard ms .plant f) p c).s.dyn, controllers := (s.heard ms .plant f).controllers
      queue := (reportedEv (s.heard ms .plant f) p c).s.queue } : State).kept := by
  have hk := (heard_heardFrom s ms f).kept
  rw [(loadedReport_part hx).kept, hx.kept]
  simp only [State.kept, Prod.mk.injEq] at hk ⊢
  tauto

theorem loadedReport_request (hr : s.request = none) : (loadedReport (s.heard ms .plant f) p c).s.request = none := by
  obtain ⟨-, -, -, -, -, h⟩ := kept_fields (loadedReport_kept hx)
  exact h.trans hr

/-- The areas after a report: the point's own has a generation more where a slot change is handed on, and the weight of a
counted onset. -/
theorem handOn_report_area (hr : s.request = none) (b : Nat) :
    (handOn (s.heard ms .plant f) (loadedReport (s.heard ms .plant f) p c) []).area b =
      if b = (s.pointDef p).area then
        (s.area b).afterReport (s.areaParams b) x.isSome (countsIn s p x) (s.pointDef p).priority
      else s.area b := by
  have hl := loadedReport_part hx
  rw [handOn_area (loadedReport_request hx hr), hl.names, hl.area, heard_countsIn]
  simp only [heard_pointDef, heard_area, heard_areaParams]
  cases x with
  | none => simp
  | some y =>
    by_cases hb : b = (s.pointDef p).area
    · rw [if_pos (by simp [hb]), if_pos hb, if_pos hb]
      rfl
    · rw [if_neg (by simp [hb]), if_neg hb, if_neg hb]

theorem report_holdReported {t : State} (hplant : t.plant = (loadedReport (s.heard ms .plant f) p c).s.plant)
    (hslots : t.slots = (loadedReport (s.heard ms .plant f) p c).s.slots)
    (hdyn : t.dynOf p = dynAfterReport (s.pointDef p) (s.dynOf p) c)
    (hflood : (t.area (s.pointDef p).area).flood
      = ((loadedReport (s.heard ms .plant f) p c).s.area (s.pointDef p).area).flood) : HoldReported ms f p s t := by
  have hh := heard_heardFrom s ms f
  have hl := loadedReport_part hx
  have hrp := reporting_reporting (s.heard ms .plant f) p c
  intro _ hq
  have hquiet : (loadedReport (s.heard ms .plant f) p c).s.plant = ((s.heard ms .plant f).reporting p c).plant := by
    refine hl.plant ?_
    rw [heard_pointDef, heard_area, ← hflood]
    refine hq.imp (fun h => ?_) (Or.imp_left (hh.latched _))
    unfold State.engineering at h ⊢
    rwa [heard_tables]
  rw [hplant, hquiet, hrp.plant, heard_startsHold, hdyn, slotOf_congr hslots, loadedReport_occ hx, hx.occ]
  refine if_congr Iff.rfl ?_ rfl
  rw [heard_stamp, arepAt_congr (heard_tables ..) hh.arepSeq, holdReport_eq, ← heard_pointDef s ms p f]
  rfl

/-- A PREP of one point record leaves what its load stage and its handing on leave, with the snapshot set. -/
theorem exec_prep_leaves {d : List Byte} (hrep : PointReport s f d p c) :
    ∃ t, exec (.prep ms f) s = .next t ∧ PrepLeaves ms f p c x s t := by
  have hcmd := exec_prep_one hrep ms
  obtain ⟨ha, -⟩ := hrep
  have hr := request_of_arrives ha
  have hl := loadedReport_part hx
  have harea := handOn_report_area hx hr
  have hk := kept_handOn (b := s.heard ms .plant f) (xs := []) (loadedReport_request hx hr)
  rw [loadedReport_kept hx] at hk
  obtain ⟨-, hdyn, hqueue, -, hctl, -⟩ := kept_fields hk
  refine ⟨_, hcmd, ?_⟩
  rw [reportEvent_handOn]
  change PrepLeaves ms f p c x s (followReport f.source.toNat p c
    (handOn (s.heard ms .plant f) (loadedReport (s.heard ms .plant f) p c) []))
  have hslots := handOn_slots (s.heard ms .plant f) (loadedReport (s.heard ms .plant f) p c) []
  have hplant := handOn_plant (s.heard ms .plant f) (loadedReport (s.heard ms .plant f) p c) []
  have hcon := handOn_console (s.heard ms .plant f) (loadedReport (s.heard ms .plant f) p c) []
  have htime := handOn_time (s.heard ms .plant f) (loadedReport (s.heard ms .plant f) p c) []
  have hflood : ∀ b, ((handOn (s.heard ms .plant f) (loadedReport (s.heard ms .plant f) p c) []).area b).flood
      = ((loadedReport (s.heard ms .plant f) p c).s.area b).flood := by
    intro b
    rw [handOn_area (loadedReport_request hx hr)]
    split <;> rfl
  generalize hu : handOn (s.heard ms .plant f) (loadedReport (s.heard ms .plant f) p c) [] = u at *
  have hfollow (b : Nat) : (followReport f.source.toNat p c u).area b = u.area b :=
    area_congr (State.modController_areas ..) b
  have hfdyn (q : Nat) : (followReport f.source.toNat p c u).dynOf q =
      if q = p then dynAfterReport (s.pointDef p) (s.dynOf p) c else s.dynOf q := by
    refine (dynOf_congr (State.modController_dyn ..) q).trans ((dynOf_congr hdyn q).trans ?_)
    rw [hx.dynOf, heard_pointDef, heard_dynOf, heard_dynOf]
  have hfslots : (followReport f.source.toNat p c u).slots = (loadedReport (s.heard ms .plant f) p c).s.slots :=
    (State.modController_slots ..).trans hslots
  constructor
  case slots => exact hfslots
  case area => exact fun b => (hfollow b).trans (harea b)
  case flood => exact fun b => (congrArg Area.flood (hfollow b)).trans (hflood b)
  case dyn => exact hfdyn
  case hold =>
    refine report_holdReported hx ((State.modController_plant ..).trans hplant) hfslots ?_ ?_
    · rw [hfdyn, if_pos rfl]
    · rw [hfollow, hflood]
  case snapshot => exact followReport_snapshotFollows hctl
  case queue => exact (State.modController_queue ..).trans hqueue
  case console =>
    exact (State.modController_console ..).trans (hcon.trans (hl.console.trans (heard_heardFrom s ms f).console))
  case frame =>
    have hfd : (followReport f.source.toNat p c u).dyn = u.dyn := State.modController_dyn ..
    have hfq : (followReport f.source.toNat p c u).queue = u.queue := State.modController_queue ..
    rw [alarmEventFrame_iff, followReport_kept, hfd, hfq, hdyn, hqueue]
    simp only [State.kept, Prod.mk.injEq] at hk ⊢
    tauto
  case time => exact (State.modController_time ..).trans (htime.trans hl.time)
  case consoles => rw [hu]; exact State.modController_consoles ..

end

end Sys2Proof.Machine

namespace Sys2Proof.Machine

/-! ## A report for a point in a slot (R10 to R12) -/

/-- A slot after a report, with the overlay SUPPRESSED that a re-onset keeps in FLOOD alone (R14). -/
def resuppressed (u : State) (c : Condition) (sl z : Slot) : Slot :=
  if c = .active ∧ sl.state = .returnedUnack then { z with suppressed := keptSuppressed u sl } else z

/-- The report is a re-onset of the slot. -/
def reonsets (c : Condition) (sl : Slot) : Bool := c == .active && sl.state == .returnedUnack

/-- The slot change that a report of a point in a slot hands on, where it moves the slot. -/
structure MovedChange (u : State) (p : Nat) (c : Condition) (sl : Slot) (x : SlotChange) : Prop where
  point : x.point = p
  area : x.area = (u.pointDef p).area
  candidate : x.candidate = reonsets c sl
  suppresses : ∀ t : State, suppresses t x =
    (reonsets c sl && (t.pointDef p).priority == .low && (t.pointDef p).suppressible
      && (t.area (u.pointDef p).area).flood)

/-- What a report of the point in slot `i` makes of the alarm table, its chatter hold apart. -/
inductive Applied (u : State) (p : Nat) (c : Condition) (i : Nat) (sl : Slot) : Ev → Prop where
  | stays (h : slotAfterReport (u.pointDef p).latch c u.stamp sl = some sl) (hr : reonsets c sl = false) :
      Applied u p c i sl { s := u }
  | moves {z : Slot} {x : SlotChange} (h : slotAfterReport (u.pointDef p).latch c u.stamp sl = some z)
      (hz : z ≠ sl) (hx : MovedChange u p c sl x) :
      Applied u p c i sl { s := u.marked.setSlot i (resuppressed u c sl z), changes := [x] }
  | frees {x : SlotChange} (h : slotAfterReport (u.pointDef p).latch c u.stamp sl = none) (hx : MovedChange u p c sl x) :
      Applied u p c i sl { s := u.freeSlot i, changes := [x] }

/-- The slot change that moves a slot to `new` (R15). -/
def movedChange (u : State) (i : Nat) (sl new : Slot) (k : ChangeKind) : SlotChange :=
  { kind := k, point := sl.point, area := (u.pointDef sl.point).area, slot := some i, oldState := some sl.state
    newState := some new.state, oldOcc := some sl.occ, newOcc := some new.occ, origin := some .report }

/-- The slot of a re-onset, its overlays as they were (R9, R10). -/
def reonsetSlot (sl : Slot) (now : Stamp) : Slot :=
  { sl with state := .activeUnack, occ := wrapUpToOne sl.occ, onset := now, last := now, ackOp := none }

/-- The slot of a returned alarm, at occurrence `n` (R9). -/
def returnedSlot (sl : Slot) (now : Stamp) (n : Nat) : Slot :=
  { sl with state := .returnedUnack, occ := n, last := now, ackOp := none }

theorem applyReport_of_slot {u : State} {p i : Nat} {sl : Slot} (h : u.slotOf p = some (i, sl)) (active : Bool)
    (o : Origin) : applyReport p active o { s := u } = reportSlot i sl active o { s := u } := by
  unfold applyReport; rw [h]

theorem movedChange_moved {u : State} {i : Nat} {sl new : Slot} {c : Condition} {k : ChangeKind}
    (hc : (movedChange u i sl new k).candidate = reonsets c sl)
    (hk : (k == .onset || k == .reonset || k == .reannounce) = reonsets c sl) :
    MovedChange u sl.point c sl (movedChange u i sl new k) := by
  refine ⟨rfl, rfl, hc, fun t => ?_⟩
  rw [← hk]
  rfl

theorem freedChange_moved {u : State} {i : Nat} {sl : Slot} {c : Condition} (hc : reonsets c sl = false) :
    MovedChange u sl.point c sl (freedChange u i sl .free .report) := by
  refine ⟨rfl, rfl, hc.symm, fun t => ?_⟩
  rw [hc]
  rfl

section
variable {u : State} {i : Nat} {sl : Slot} (hs : sl.state = .returnedUnack)
include hs

theorem applied_reonset : Applied u sl.point .active i sl (reportSlot i sl true .report { s := u }) := by
  have hz : slotAfterReport (u.pointDef sl.point).latch .active u.stamp sl = some (reonsetSlot sl u.stamp) := by
    unfold slotAfterReport reportTable
    cases (u.pointDef sl.point).latch <;> simp [hs, nextOccurrence_eq, reonsetSlot]
  have he : reportSlot i sl true .report { s := u } =
      { s := u.marked.setSlot i (resuppressed u .active sl (reonsetSlot sl u.stamp))
        changes := [movedChange u i sl (reonsetSlot sl u.stamp) .reonset] } := by
    unfold reportSlot resuppressed
    simp only [hs, and_self, if_true]
    rfl
  rw [he]
  refine .moves hz (fun h => ?_) (movedChange_moved ?_ ?_)
  · have := congrArg Slot.state h
    simp [reonsetSlot, hs] at this
  · simp [reonsets, hs, movedChange, SlotChange.candidate]
  · simp [reonsets, hs]

theorem applied_returned (ht : (u.pointDef sl.point).latch ≠ .tracking) :
    Applied u sl.point .normal i sl (reportSlot i sl false .report { s := u }) := by
  have hz : slotAfterReport (u.pointDef sl.point).latch .normal u.stamp sl = some sl := by
    unfold slotAfterReport reportTable
    cases hk : (u.pointDef sl.point).latch <;> simp_all
  have he : reportSlot i sl false .report { s := u } = { s := u } := by
    unfold reportSlot
    simp only [hs]
  rw [he]
  exact .stays hz rfl

end

theorem applied_freed {u : State} {i : Nat} {sl : Slot} (hq : u.queue = [])
    (hn : slotAfterReport (u.pointDef sl.point).latch .normal u.stamp sl = none)
    (he : reportSlot i sl false .report { s := u } = freeAndAdmit i sl .free .report { s := u }) :
    Applied u sl.point .normal i sl (reportSlot i sl false .report { s := u }) := by
  rw [he, freeAndAdmit_of_nil hq]
  exact .frees hn (freedChange_moved rfl)

section
variable {u : State} {i : Nat} {sl : Slot} (hs : sl.state ≠ .returnedUnack)
include hs

theorem applied_active : Applied u sl.point .active i sl (reportSlot i sl true .report { s := u }) := by
  have hz : slotAfterReport (u.pointDef sl.point).latch .active u.stamp sl = some sl := by
    unfold slotAfterReport reportTable
    cases (u.pointDef sl.point).latch <;> cases hst : sl.state <;> simp_all
  have he : reportSlot i sl true .report { s := u } = { s := u } := by
    unfold reportSlot
    cases hst : sl.state with
    | returnedUnack => exact absurd hst hs
    | _ => rfl
  rw [he]
  exact .stays hz (by simp [reonsets, hs])

theorem applied_moved {n : Nat} {k : ChangeKind}
    (hz : slotAfterReport (u.pointDef sl.point).latch .normal u.stamp sl = some (returnedSlot sl u.stamp n))
    (hc : (movedChange u i sl (returnedSlot sl u.stamp n) k).candidate = false)
    (hk : (k == .onset || k == .reonset || k == .reannounce) = false)
    (he : reportSlot i sl false .report { s := u } = { s := u.marked.setSlot i (returnedSlot sl u.stamp n)
                                                       changes := [movedChange u i sl (returnedSlot sl u.stamp n) k] }) :
    Applied u sl.point .normal i sl (reportSlot i sl false .report { s := u }) := by
  rw [he]
  exact .moves hz (fun h => hs (congrArg Slot.state h).symm) (movedChange_moved hc hk)

theorem applied_normal (hq : u.queue = []) :
    Applied u sl.point .normal i sl (reportSlot i sl false .report { s := u }) := by
  cases hk : (u.pointDef sl.point).latch with
  | tracking =>
    refine applied_freed hq (by unfold slotAfterReport reportTable; rw [hk]; rfl) ?_
    unfold reportSlot
    simp only [hk]
  | latched =>
    cases hst : sl.state with
    | returnedUnack => exact absurd hst hs
    | activeAcked =>
      refine applied_freed hq (by unfold slotAfterReport reportTable; rw [hk, hst]; rfl) ?_
      unfold reportSlot
      simp only [hk, hst]
    | activeUnack =>
      refine applied_moved hs (n := sl.occ) (k := .returned) ?_ rfl rfl ?_
      · unfold slotAfterReport reportTable
        rw [hk, hst]
        rfl
      · unfold reportSlot
        simp only [hk, hst]
        rfl
  | ringback =>
    cases hst : sl.state with
    | returnedUnack => exact absurd hst hs
    | activeAcked =>
      refine applied_moved hs (n := wrapUpToOne sl.occ) (k := .ringback) ?_ rfl rfl ?_
      · unfold slotAfterReport reportTable
        rw [hk, hst, ← nextOccurrence_eq]
        rfl
      · unfold reportSlot
        simp only [hk, hst]
        rfl
    | activeUnack =>
      refine applied_moved hs (n := sl.occ) (k := .returned) ?_ rfl rfl ?_
      · unfold slotAfterReport reportTable
        rw [hk, hst]
        rfl
      · unfold reportSlot
        simp only [hk, hst]
        rfl

end

theorem applyReport_applied {u : State} {p i : Nat} {sl : Slot} {c : Condition} (h : u.slotOf p = some (i, sl))
    (hq : u.queue = []) (ht : (u.pointDef p).latch = .tracking → sl.state ≠ .returnedUnack) :
    Applied u p c i sl (applyReport p (c == .active) .report { s := u }) := by
  obtain ⟨-, hp⟩ := mem_of_slotOf h
  subst hp
  rw [applyReport_of_slot h]
  by_cases hs : sl.state = .returnedUnack
  · cases c with
    | active => exact applied_reonset hs
    | normal => exact applied_returned hs fun hk => ht hk hs
  · cases c with
    | active => exact applied_active hs
    | normal => exact applied_normal hs hq

end Sys2Proof.Machine

namespace Sys2Proof.Machine

/-! ## A report with the mark of its chatter hold (R14, R51) -/

section
variable {p i : Nat} {z : Slot} {e : Ev}

theorem markHeld_of_none (h : e.s.slotOf p = none) : markHeld p e = e := by
  unfold markHeld; rw [h]

theorem markHeld_of_chatter (h : e.s.slotOf p = some (i, z)) (hz : z.chatter = true) : markHeld p e = e := by
  unfold markHeld; rw [h]; simp [hz]

theorem markHeld_of_changed (h : e.s.slotOf p = some (i, z)) (hz : z.chatter = false) {x : SlotChange}
    (hx : e.changes = [x]) (hp : x.point = p) :
    markHeld p e = { e with s := e.s.setSlot i { z with chatter := true } } := by
  unfold markHeld; rw [h]; simp [hz, hx, hp]

/-- The slot change of a hold that marks a slot which its report does not move (R14). -/
def heldChange (s : State) (i : Nat) (z : Slot) : SlotChange :=
  { kind := .overlay, point := z.point, area := (s.pointDef z.point).area, slot := some i, oldState := some z.state
    newState := some z.state, oldOcc := some z.occ, newOcc := some z.occ, origin := some .report }

theorem markHeld_of_unchanged (h : e.s.slotOf p = some (i, z)) (hz : z.chatter = false) (hx : e.changes = []) :
    markHeld p e = { s := e.s.setSlot i { z with chatter := true }, changes := [heldChange e.s i z] } := by
  unfold markHeld; rw [h]; simp [hz, hx, moveSlot, Ev.push, heldChange]

end

/-- The mark of a chatter hold, where the report has started one. -/
def heldEv (b : Bool) (p : Nat) (e : Ev) : Ev := if b then markHeld p e else e

theorem reportedEv_eq (s : State) (p : Nat) (c : Condition) : reportedEv s p c =
    heldEv (startsHold s p c) p (applyReport p (c == .active) .report { s := s.reporting p c }) := rfl

/-- The mark of a hold for a point in slot `i`, where the report has handed on at most one slot change. -/
theorem heldEv_of_slot {b : Bool} {p i : Nat} {z : Slot} {e : Ev} {x : Option SlotChange}
    (h : e.s.slotOf p = some (i, z)) (hl : lookup e.s.slots i = some z) (hx : e.changes = x.toList)
    (hp : ∀ y, x = some y → y.point = p) :
    let w : Slot := { z with chatter := z.chatter || b }
    let t := heldEv b p e
    t.s = { e.s with slots := t.s.slots } ∧ t.s.slotOf p = some (i, w) ∧ lookup t.s.slots i = some w
      ∧ OtherSlotsKept i e.s t.s
      ∧ t.changes = (x.or (if b && !z.chatter then some (heldChange e.s i z) else none)).toList := by
  obtain ⟨-, hpt⟩ := mem_of_slotOf h
  cases b with
  | false => simpa [heldEv] using ⟨h, hl, fun _ _ => rfl, hx⟩
  | true =>
    cases hz : z.chatter with
    | true =>
      have hw : { z with chatter := true } = z := by rw [← hz]
      simpa [heldEv, markHeld_of_chatter h hz, hw] using ⟨h, hl, fun _ _ => rfl, hx⟩
    | false =>
      have hs : (e.s.setSlot i { z with chatter := true }).slotOf p = some (i, { z with chatter := true }) :=
        slotOf_setSlot h hpt
      have ho : OtherSlotsKept i e.s (e.s.setSlot i { z with chatter := true }) :=
        fun j hj => lookup_insertAt_of_ne _ hj _
      cases hxe : x with
      | some y =>
        rw [hxe] at hx
        have he : heldEv true p e = { e with s := e.s.setSlot i { z with chatter := true } } :=
          markHeld_of_changed h hz hx (hp y hxe)
        rw [he]
        exact ⟨rfl, hs, lookup_insertAt_self .., ho, hx⟩
      | none =>
        rw [hxe] at hx
        have he : heldEv true p e =
            { s := e.s.setSlot i { z with chatter := true }, changes := [heldChange e.s i z] } :=
          markHeld_of_unchanged h hz hx
        rw [he]
        exact ⟨rfl, hs, lookup_insertAt_self .., ho, rfl⟩

theorem heldEv_of_none {b : Bool} {p : Nat} {e : Ev} (h : e.s.slotOf p = none) : heldEv b p e = e := by
  cases b with
  | false => rfl
  | true => exact markHeld_of_none h

/-- A freed slot is its point's only one. -/
theorem slotOf_freeSlot {s : State} (hs : s.SlotsDistinct) {i : Nat} {sl : Slot} (hm : (i, sl) ∈ s.slots) :
    (s.freeSlot i).slotOf sl.point = none := by
  obtain ⟨hk, hn⟩ := hs
  have hp := ((perm_removeAt hk hm).map fun e => e.2.point).nodup_iff.1 hn
  refine List.find?_eq_none.2 fun x hx hx' => ?_
  exact (List.nodup_cons.1 hp).1 (List.mem_map.2 ⟨x, hx, by simpa using hx'⟩)

theorem slotOf_of_distinct {s : State} (hs : s.SlotsDistinct) {i : Nat} {sl : Slot} (hm : (i, sl) ∈ s.slots) :
    s.slotOf sl.point = some (i, sl) := by
  obtain ⟨-, hn⟩ := hs
  cases h : s.slotOf sl.point with
  | none => exact absurd rfl (forall_ne_of_slotOf h _ hm)
  | some x =>
    obtain ⟨j, y⟩ := x
    obtain ⟨hm', hp⟩ := mem_of_slotOf h
    rw [List.inj_on_of_nodup_map hn hm' hm hp]

/-- A slot that takes the mark of a chatter hold, where one has started. -/
def heldSlot (b : Bool) (z : Slot) : Slot := { z with chatter := z.chatter || b }

theorem heldSlot_false (z : Slot) : heldSlot false z = z := by simp [heldSlot]

/-- What a report makes of the alarm table, in terms of the slot it leaves, with the mark of a hold where `b`. -/
structure AppliedTo (u : State) (p : Nat) (c : Condition) (i : Nat) (sl : Slot) (b : Bool) (e : Ev)
    (x : Option SlotChange) : Prop where
  frame : e.s = { u with slots := e.s.slots, time := e.s.time }
  changes : e.changes = x.toList
  moved : x.isSome = (slotAfterReport (u.pointDef p).latch c u.stamp sl != some sl || (b && !sl.chatter))
  change : ∀ y, x = some y → MovedChange u p c sl y
  unmoved : x = none → reonsets c sl = false
  freed : slotAfterReport (u.pointDef p).latch c u.stamp sl = none → e.s.slotOf p = none ∧ lookup e.s.slots i = none
  kept : ∀ z, slotAfterReport (u.pointDef p).latch c u.stamp sl = some z →
    e.s.slotOf p = some (i, heldSlot b (resuppressed u c sl z))
      ∧ lookup e.s.slots i = some (heldSlot b (resuppressed u c sl z))
  others : OtherSlotsKept i u e.s

theorem resuppressed_point (u : State) (c : Condition) (sl z : Slot) : (resuppressed u c sl z).point = z.point := by
  unfold resuppressed; split <;> rfl

theorem resuppressed_occ (u : State) (c : Condition) (sl z : Slot) : (resuppressed u c sl z).occ = z.occ := by
  unfold resuppressed; split <;> rfl

theorem resuppressed_chatter (u : State) (c : Condition) (sl z : Slot) : (resuppressed u c sl z).chatter = z.chatter := by
  unfold resuppressed; split <;> rfl

theorem resuppressed_of_not (u : State) {c : Condition} {sl : Slot} (h : reonsets c sl = false) (z : Slot) :
    resuppressed u c sl z = z := by
  unfold resuppressed
  rw [if_neg (by simpa [reonsets] using h)]

/-- The table of a report keeps the point of a slot and its overlays. -/
theorem slotAfterReport_kept {k : LatchClass} {c : Condition} {now : Stamp} {sl z : Slot}
    (h : slotAfterReport k c now sl = some z) : z.point = sl.point ∧ z.shelved = sl.shelved ∧ z.chatter = sl.chatter
      ∧ z.suppressed = sl.suppressed ∧ z.stale = sl.stale := by
  unfold slotAfterReport at h
  obtain ⟨r, -, rfl⟩ := Option.map_eq_some_iff.1 h
  split <;> exact ⟨rfl, rfl, rfl, rfl, rfl⟩

theorem Applied.appliedTo {u : State} {p i : Nat} {c : Condition} {sl : Slot} {e : Ev} (hu : u.SlotsDistinct)
    (hm : (i, sl) ∈ u.slots) (hp : sl.point = p) (h : Applied u p c i sl e) : ∃ x, AppliedTo u p c i sl false e x := by
  have hs : u.slotOf p = some (i, sl) := hp ▸ slotOf_of_distinct hu hm
  have hrise : risingKeys u.slots = true := by
    obtain ⟨h, -⟩ := hu
    exact h
  cases h with
  | stays h hr =>
    refine ⟨none, rfl, rfl, by rw [h, bne_self_eq_false]; rfl, fun y hy => absurd hy.symm (Option.some_ne_none y),
      fun _ => hr, fun hn => ?_, fun z hz => ?_, fun _ _ => rfl⟩
    · rw [h] at hn
      cases hn
    · rw [h] at hz
      cases hz
      rw [resuppressed_of_not u hr, heldSlot_false]
      exact ⟨hs, lookup_of_mem hrise hm⟩
  | @moves z x h hz hx =>
    refine ⟨some x, rfl, rfl, by rw [h, bne_iff_ne.2 fun hh => hz (Option.some.inj hh)]; rfl, fun y hy => ?_,
      fun h => absurd h (Option.some_ne_none x), fun hn => ?_, fun w hw => ?_, fun j hj => lookup_insertAt_of_ne _ hj _⟩
    · cases hy
      exact hx
    · rw [h] at hn
      cases hn
    · rw [h] at hw
      cases hw
      rw [heldSlot_false]
      obtain ⟨hzp, -⟩ := slotAfterReport_kept h
      exact ⟨slotOf_setSlot (s := u.marked) hs ((resuppressed_point ..).trans (hzp.trans hp)), lookup_insertAt_self ..⟩
  | @frees x h hx =>
    refine ⟨some x, rfl, rfl, by rw [h]; rfl, fun y hy => ?_, fun h => absurd h (Option.some_ne_none x), fun _ => ?_,
      fun w hw => ?_, fun j hj => lookup_removeAt_of_ne _ hj⟩
    · cases hy
      exact hx
    · exact ⟨hp ▸ slotOf_freeSlot hu hm, lookup_removeAt_self ..⟩
    · rw [h] at hw
      cases hw

/-- An event that moves slots and the high mark alone, with the mark of a hold after it. -/
theorem frame_trans {u e t : State} (h : e = { u with slots := e.slots, time := e.time })
    (k : t = { e with slots := t.slots }) : t = { u with slots := t.slots, time := t.time } := by
  have ht : t.time = e.time := congrArg (·.time) k
  rw [ht]
  conv_lhs => rw [k, h]

theorem heldChange_moved {u e : State} {p i : Nat} {c : Condition} {sl z : Slot} (ht : e.tables = u.tables)
    (hz : z.point = p) (hr : reonsets c sl = false) : MovedChange u p c sl (heldChange e i z) := by
  subst hz
  refine ⟨rfl, congrArg PointDef.area (pointDef_congr (congrArg Tables.points ht) _), hr.symm, fun t => ?_⟩
  rw [hr]
  rfl

/-- The mark of a hold after a report of the point in slot `i`. -/
theorem AppliedTo.held {u : State} {p i : Nat} {c : Condition} {sl : Slot} {e : Ev} {x : Option SlotChange}
    (h : AppliedTo u p c i sl false e x) (b : Bool) : ∃ y, AppliedTo u p c i sl b (heldEv b p e) y := by
  have hmoved : x.isSome = (slotAfterReport (u.pointDef p).latch c u.stamp sl != some sl) := by
    rw [h.moved, Bool.false_and, Bool.or_false]
  cases hz : slotAfterReport (u.pointDef p).latch c u.stamp sl with
  | none =>
    obtain ⟨hs, hl⟩ := h.freed hz
    rw [heldEv_of_none hs]
    refine ⟨x, h.frame, h.changes, ?_, h.change, h.unmoved, fun _ => ⟨hs, hl⟩, fun z hn => ?_, h.others⟩
    · rw [hmoved, hz]
      rfl
    · rw [hz] at hn
      cases hn
  | some z =>
    obtain ⟨hs, hl⟩ := h.kept z hz
    rw [heldSlot_false] at hs hl
    obtain ⟨-, hpt⟩ := mem_of_slotOf hs
    have hc : (resuppressed u c sl z).chatter = sl.chatter := by
      obtain ⟨-, -, hk, -⟩ := slotAfterReport_kept hz
      rw [resuppressed_chatter, hk]
    obtain ⟨hframe, hslot, hlook, hothers, hchanges⟩ :=
      heldEv_of_slot (b := b) hs hl h.changes fun y hy => (h.change y hy).point
    rw [hc] at hchanges
    refine ⟨_, frame_trans h.frame hframe, hchanges, ?_, fun k hk => ?_, fun hn => ?_, fun hn => ?_, fun w hw => ?_,
      fun j hj => (hothers j hj).trans (h.others j hj)⟩
    · rw [← hmoved]
      cases x <;> cases b <;> cases sl.chatter <;> rfl
    · cases hx : x with
      | some y =>
        rw [hx] at hk
        cases hk
        exact h.change _ hx
      | none =>
        rw [hx, Option.none_or] at hk
        split at hk
        · cases hk
          exact heldChange_moved (by rw [h.frame]) hpt (h.unmoved hx)
        · cases hk
    · exact h.unmoved (Option.or_eq_none_iff.1 hn).1
    · rw [hz] at hn
      cases hn
    · rw [hz] at hw
      cases hw
      exact ⟨hslot, hlook⟩

end Sys2Proof.Machine

namespace Sys2Proof.Machine

/-! ## The alarm table's part of a report for a point in a slot (R10 to R12, R51) -/

/-- What the alarm table's part of a report leaves for a point in slot `i` (R10 to R12, R14, R51). -/
structure SlotReported (s : State) (p : Nat) (c : Condition) (i : Nat) (sl : Slot) (x : Option SlotChange) : Prop where
  part : TablePart s p c x
  queue : (reportedEv s p c).s.queue = s.queue
  moved : x.isSome = (slotAfterReport (s.pointDef p).latch c s.stamp sl != some sl || (startsHold s p c && !sl.chatter))
  candidate : x.any (·.candidate) = reonsets c sl
  suppresses : ∀ t : State, t.tables = s.tables → x.any (suppresses t) =
    (reonsets c sl && (s.pointDef p).priority == .low && (s.pointDef p).suppressible
      && (t.area (s.pointDef p).area).flood)
  freed : slotAfterReport (s.pointDef p).latch c s.stamp sl = none →
    (reportedEv s p c).s.slotOf p = none ∧ lookup (reportedEv s p c).s.slots i = none
  kept : ∀ z, slotAfterReport (s.pointDef p).latch c s.stamp sl = some z →
    (reportedEv s p c).s.slotOf p = some (i, heldSlot (startsHold s p c) (resuppressed s c sl z))
  others : OtherSlotsKept i s (reportedEv s p c).s

theorem reporting_congr (s : State) (p : Nat) (c : Condition) : (s.reporting p c).tables = s.tables
    ∧ (s.reporting p c).queue = s.queue := by
  obtain ⟨ht, -, hq, -⟩ := kept_fields (s := s) (k := s.controllers) (q := s.queue) (reporting_reporting s p c).kept
  exact ⟨ht, hq⟩

theorem resuppressed_congr {s u : State} (ht : u.tables = s.tables) (ha : u.areas = s.areas) (c : Condition) (sl z : Slot) :
    resuppressed u c sl z = resuppressed s c sl z := by
  unfold resuppressed keptSuppressed
  rw [pointDef_congr (congrArg Tables.points ht), area_congr ha]

section
variable {s : State} {p i : Nat} {c : Condition} {sl : Slot} (hs : s.SlotsDistinct) (hm : (i, sl) ∈ s.slots)
  (hp : sl.point = p) (hq : s.queue = []) (hk : (s.pointDef p).latch = .tracking → sl.state ≠ .returnedUnack)
include hs hm hp hq hk

/-- What a report makes of the alarm table in a state that differs from `s` in no slot, table or area. -/
theorem applyReport_appliedTo {u : State} (ht : u.tables = s.tables) (hsl : u.slots = s.slots) (hqu : u.queue = s.queue) :
    ∃ x, AppliedTo u p c i sl false (applyReport p (c == .active) .report { s := u }) x := by
  have hd : u.pointDef p = s.pointDef p := pointDef_congr (congrArg Tables.points ht) p
  have hu : u.SlotsDistinct := by unfold State.SlotsDistinct; rwa [hsl]
  have hmu : (i, sl) ∈ u.slots := hsl ▸ hm
  exact (applyReport_applied (hp ▸ slotOf_of_distinct hu hmu) (hqu.trans hq) (hd ▸ hk)).appliedTo hu hmu hp

theorem holdReport_occ {u : State} (ht : u.tables = s.tables) (hsl : u.slots = s.slots) (hqu : u.queue = s.queue)
    (hst : u.stamp = s.stamp) : (holdReport p (c == .active) u).occ =
      (slotAfterReport (s.pointDef p).latch c s.stamp sl).map (·.occ) := by
  obtain ⟨x, ha⟩ := applyReport_appliedTo (c := c) hs hm hp hq hk ht hsl hqu
  have hfreed := ha.freed
  have hkept := ha.kept
  rw [hst, pointDef_congr (congrArg Tables.points ht)] at hfreed hkept
  change ((applyReport p (c == .active) .report { s := u }).s.slotOf p).map _ = _
  cases hz : slotAfterReport (s.pointDef p).latch c s.stamp sl with
  | none =>
    obtain ⟨hn, -⟩ := hfreed hz
    rw [hn]
    rfl
  | some z =>
    obtain ⟨hn, -⟩ := hkept z hz
    rw [hn]
    exact congrArg some (resuppressed_occ ..)

/-- The alarm table's part of a report, its hold among it, in terms of the state that stage 1 leaves. -/
theorem reportedEv_appliedTo : ∃ x, AppliedTo (s.reporting p c) p c i sl (startsHold s p c) (reportedEv s p c) x := by
  obtain ⟨ht, hqu⟩ := reporting_congr s p c
  obtain ⟨x, hx⟩ := applyReport_appliedTo (c := c) hs hm hp hq hk ht (reporting_reporting s p c).slots hqu
  exact hx.held _

theorem reportedEv_slotReported (hsound : s.time.Sound) : ∃ x, SlotReported s p c i sl x := by
  have hr := reporting_reporting s p c
  obtain ⟨ht, hqu⟩ := reporting_congr s p c
  have hd : (s.reporting p c).pointDef p = s.pointDef p := pointDef_congr (congrArg Tables.points ht) p
  have hocc := holdReport_occ (c := c) (u := s.setDyn p (dynAfterReport (s.pointDef p) (s.dynOf p) c)) hs hm hp hq hk
    rfl rfl rfl rfl
  obtain ⟨x, hx⟩ := reportedEv_appliedTo (c := c) hs hm hp hq hk
  obtain ⟨hframe, hchanges, hmoved, hchange, hunmoved, hfreed, hkept, hothers⟩ := hx
  simp only [hr.stamp hsound, hd, resuppressed_congr ht hr.areas] at hmoved hfreed hkept
  have hqueue : (reportedEv s p c).s.queue = (s.reporting p c).queue := congrArg (·.queue) hframe
  have hpart : TablePart s p c x := by
    constructor
    case frame =>
      rw [hqueue]
      exact hframe
    case changes => exact hchanges
    case point =>
      intro y hy
      obtain ⟨hpt, harea, -⟩ := hchange y hy
      exact ⟨hpt, harea.trans (congrArg PointDef.area hd)⟩
    case found =>
      intro j z hz
      cases hz' : slotAfterReport (s.pointDef p).latch c s.stamp sl with
      | none =>
        rw [(hfreed hz').1] at hz
        cases hz
      | some w =>
        obtain ⟨hw, hl⟩ := hkept w hz'
        rw [hw] at hz
        cases hz
        exact hl
    case occ =>
      rw [hocc]
      cases hz : slotAfterReport (s.pointDef p).latch c s.stamp sl with
      | none => rw [(hfreed hz).1]; rfl
      | some w => rw [(hkept w hz).1]; exact congrArg some (resuppressed_occ ..)
  refine ⟨x, hpart, hqueue.trans hqu, hmoved, ?_, fun t htt => ?_, hfreed, fun z hz => (hkept z hz).1,
    fun j hj => (hothers j hj).trans (congrArg (lookup · j) hr.slots)⟩
  · cases hx : x with
    | none => exact (hunmoved hx).symm
    | some y => exact (hchange y hx).candidate
  · cases hx : x with
    | none => rw [hunmoved hx]; rfl
    | some y =>
      refine ((hchange y hx).suppresses t).trans ?_
      rw [hd, pointDef_congr (congrArg Tables.points htt)]

end

end Sys2Proof.Machine

namespace Sys2Proof.Machine

/-! ## The PREP of one record for a point in a slot (R10 to R12, R46) -/

theorem resuppressed_bare (u : State) (c : Condition) (sl z : Slot) : (resuppressed u c sl z).bare = z.bare := by
  unfold resuppressed; split <;> rfl

theorem resuppressed_suppressed (u : State) (c : Condition) (sl z : Slot) : (resuppressed u c sl z).suppressed =
    if c = .active ∧ sl.state = .returnedUnack then keptSuppressed u sl else z.suppressed := by
  unfold resuppressed; split <;> rfl

theorem reonsets_iff {c : Condition} {sl : Slot} : reonsets c sl = true ↔ c = .active ∧ sl.state = .returnedUnack := by
  simp [reonsets]

theorem resuppressed_kept (u : State) {k : LatchClass} {c : Condition} {now : Stamp} {sl z : Slot}
    (h : slotAfterReport k c now sl = some z) : (resuppressed u c sl z).shelved = sl.shelved
      ∧ (resuppressed u c sl z).stale = sl.stale := by
  obtain ⟨-, h1, -, -, h2⟩ := slotAfterReport_kept h
  unfold resuppressed
  split <;> exact ⟨h1, h2⟩

/-- The overlay SUPPRESSED of a slot after a report, in terms of the flood of its area before and after (R14, R46). -/
def suppressedAfter (s t : State) (p : Nat) (c : Condition) (sl : Slot) : Bool :=
  if c = .active ∧ sl.state = .returnedUnack then
    (sl.suppressed && (s.area (s.pointDef p).area).flood)
      || (reonsets c sl && countsOnset s p && (t.area (s.pointDef p).area).flood && (s.pointDef p).priority == .low
        && (s.pointDef p).suppressible)
  else sl.suppressed

/-- The overlays of a slot after a report (R14). -/
structure OverlaysFollow (s t : State) (p : Nat) (c : Condition) (sl w : Slot) : Prop where
  shelved : w.shelved = sl.shelved
  stale : w.stale = sl.stale
  chatter : w.chatter = (sl.chatter || startsHold s p c)
  suppressed : w.suppressed = suppressedAfter s t p c sl

section
variable {ms p i : Nat} {f : Frame} {c : Condition} {sl : Slot} {s t : State} {x : Option SlotChange}
  (h : SlotReported (s.heard ms .plant f) p c i sl x) (hl : PrepLeaves ms f p c x s t)
include h

theorem SlotReported.counted : countsIn s p x = (reonsets c sl && countsOnset s p) := by
  unfold countsIn
  rw [h.candidate]

include hl

theorem PrepLeaves.areaOfSlot (b : Nat) : t.area b = if b = (s.pointDef p).area then
    (s.area (s.pointDef p).area).afterReport (s.areaParams (s.pointDef p).area)
      (slotAfterReport (s.pointDef p).latch c (s.stampAt ms) sl != some sl || (startsHold s p c && !sl.chatter))
      (reonsets c sl && countsOnset s p) (s.pointDef p).priority
    else s.area b := by
  rw [hl.area, h.counted, h.moved, heard_pointDef, heard_stamp, heard_startsHold]
  split
  · next hb => rw [hb]
  · rfl

theorem PrepLeaves.freed (hn : slotAfterReport (s.pointDef p).latch c (s.stampAt ms) sl = none) :
    lookup t.slots i = none ∧ OtherSlotsKept i s t := by
  rw [← heard_pointDef s ms p f, ← heard_stamp s ms f] at hn
  obtain ⟨hs, hlook⟩ := h.freed hn
  have hslots := hl.slots.trans (loadedReport_slots_of_none h.part hs)
  refine ⟨by rw [hslots]; exact hlook, fun j hj => ?_⟩
  rw [hslots, h.others j hj, heard_slots]

theorem PrepLeaves.moved {z : Slot}
    (hz : slotAfterReport (s.pointDef p).latch c (s.stampAt ms) sl = some z) (hp : sl.point = p) :
    ∃ w, lookup t.slots i = some w ∧ w.bare = z.bare ∧ OverlaysFollow s t p c sl w ∧ OtherSlotsKept i s t := by
  obtain ⟨hshelved, hstale⟩ := resuppressed_kept (s.heard ms .plant f) hz
  obtain ⟨-, -, hchatter, hsup, -⟩ := slotAfterReport_kept hz
  rw [← heard_pointDef s ms p f, ← heard_stamp s ms f] at hz
  obtain ⟨hw, -, hothers⟩ := loadedReport_slot h.part (h.kept z hz)
  have htab : (loadedReport (s.heard ms .plant f) p c).s.tables = (s.heard ms .plant f).tables := by
    obtain ⟨ht, -⟩ := kept_fields (loadedReport_kept h.part)
    rw [ht, heard_tables]
  rw [← hl.slots, h.suppresses _ htab, heard_pointDef, heard_countsIn, h.counted, ← hl.flood] at hw
  refine ⟨_, hw, resuppressed_bare .., ⟨hshelved, hstale, ?_, ?_⟩, fun j hj => ?_⟩
  · unfold heldSlot
    dsimp only
    rw [resuppressed_chatter, hchatter, heard_startsHold]
  · unfold suppressedAfter heldSlot
    dsimp only
    rw [resuppressed_suppressed, hsup]
    by_cases hr : c = .active ∧ sl.state = .returnedUnack
    · simp only [if_pos hr, reonsets_iff.2 hr, keptSuppressed, hp, heard_pointDef, heard_area, Bool.true_and]
      ac_rfl
    · rw [if_neg hr, if_neg hr, Bool.eq_false_iff.2 (mt reonsets_iff.1 hr)]
      simp
  · rw [hl.slots, hothers j hj, h.others j hj, heard_slots]

/-- The slot of the point of a PREP record follows its class table, with its overlays. -/
theorem PrepLeaves.slot (hp : sl.point = p) :
    (lookup t.slots i).map Slot.bare = (slotAfterReport (s.pointDef p).latch c (s.stampAt ms) sl).map Slot.bare
      ∧ (∀ w, lookup t.slots i = some w → OverlaysFollow s t p c sl w) ∧ OtherSlotsKept i s t := by
  cases hz : slotAfterReport (s.pointDef p).latch c (s.stampAt ms) sl with
  | none =>
    obtain ⟨hn, hothers⟩ := hl.freed h hz
    refine ⟨by rw [hn], fun w hw => ?_, hothers⟩
    rw [hn] at hw
    cases hw
  | some z =>
    obtain ⟨w, hw, hbare, hover, hothers⟩ := hl.moved h hz hp
    refine ⟨by rw [hw]; exact congrArg some hbare, fun y hy => ?_, hothers⟩
    rw [hw] at hy
    cases hy
    exact hover

end

/-- The slot of the point of a PREP record moves by the table of its class, with its overlays and its load. -/
theorem prep_moves_slot {ms p i : Nat} {f : Frame} {d : List Byte} {c : Condition} {sl : Slot} {s : State}
    (hrep : PointReport s f d p c) (hs : s.SlotsDistinct) (hm : (i, sl) ∈ s.slots) (hp : sl.point = p)
    (hq : s.queue = []) (hk : (s.pointDef p).latch = .tracking → sl.state ≠ .returnedUnack) :
    ∃ x t, exec (.prep ms f) s = .next t ∧ SlotReported (s.heard ms .plant f) p c i sl x ∧ PrepLeaves ms f p c x s t := by
  have hsound : s.time.Sound := by
    obtain ⟨-, -, -, -, -, -, -, -, -, -, h⟩ := hrep
    exact h
  obtain ⟨x, hx⟩ := reportedEv_slotReported (s := s.heard ms .plant f) (c := c)
    (by unfold State.SlotsDistinct; rwa [heard_slots]) (by rwa [heard_slots]) hp (by rwa [heard_queue])
    (by rwa [heard_pointDef]) (heard_sound hsound ms f)
  obtain ⟨t, ht, hl⟩ := exec_prep_leaves hx.part hrep
  exact ⟨x, t, ht, hx, hl⟩

end Sys2Proof.Machine

namespace Sys2Proof.Machine

/-! ## The PREP of one record for a queued point (R19) -/

/-- The slot change of a queue entry (R15). -/
def queueChange (u : State) (p : Nat) (k : ChangeKind) : SlotChange :=
  { kind := k, point := p, area := (u.pointDef p).area, origin := some .report }

/-- The queue after a report of the point whose entry it leaves as `after`. -/
def queueAfter (l : List QEntry) (p : Nat) (after : Option QEntry) : List QEntry :=
  l.filterMap fun x => if x.point = p then after else some x

/-- What a report makes of the queue entry of its point (R19). -/
structure QueueReported (u : State) (p : Nat) (c : Condition) (q : QEntry) (e : Ev) (x : Option SlotChange) : Prop where
  state : e.s = { u with queue := queueAfter u.queue p (entryAfterReport (u.pointDef p).latch c q) }
  changes : e.changes = x.toList
  moved : x.isSome = (entryAfterReport (u.pointDef p).latch c q != some q)
  candidate : x.any (·.candidate) = (c == .active && entryAfterReport (u.pointDef p).latch c q != some q)
  point : ∀ y, x = some y → y.point = p ∧ y.area = (u.pointDef p).area

section
variable {l : List QEntry} {p : Nat} {q : QEntry} (h : ∀ x ∈ l, x.point = p → x = q)

theorem queueAfter_none : queueAfter l p none = l.filter fun x => !(x.point == p) := by
  rw [← List.filterMap_eq_filter]
  refine List.filterMap_congr fun x _ => ?_
  by_cases hx : x.point = p <;> simp [hx, Option.guard]

include h

theorem queueAfter_self : queueAfter l p (some q) = l := by
  refine (List.filterMap_congr fun x hx => ?_).trans List.filterMap_some
  split
  · next hp => rw [h x hx hp]
  · rfl

theorem queueAfter_returned (r : Bool) : queueAfter l p (some { q with returned := r }) =
    l.map fun x => if x.point == p then { x with returned := r } else x := by
  rw [← List.filterMap_eq_map]
  refine List.filterMap_congr fun x hx => ?_
  by_cases hp : x.point = p
  · obtain rfl := h x hx hp
    simp [hp]
  · simp [hp]

end

/-- A report of a queued point that is not TRACKING turns its mark, where that was the other one (R19). -/
theorem reportQueued_of_latched {u : State} {q : QEntry} {active : Bool} (hk : (u.pointDef q.point).latch ≠ .tracking) :
    reportQueued q active .report { s := u } =
      if q.returned = active then
        { s := { u with queue := u.queue.map fun x => if x.point == q.point then { x with returned := !active } else x }
          changes := [queueChange u q.point (if active then .queueReonset else .queueReturn)] }
      else { s := u } := by
  unfold reportQueued queueChange
  dsimp only
  generalize (u.pointDef q.point).latch = k at hk
  cases k with
  | tracking => exact absurd rfl hk
  | latched => cases active <;> cases q.returned <;> rfl
  | ringback => cases active <;> cases q.returned <;> rfl

section
variable {u : State} {q : QEntry} (h : ∀ x ∈ u.queue, x.point = q.point → x = q)
include h

theorem queueReported_same {c : Condition} (ha : entryAfterReport (u.pointDef q.point).latch c q = some q) :
    QueueReported u q.point c q { s := u } none := by
  refine ⟨?_, rfl, ?_, ?_, fun y hy => absurd hy.symm (Option.some_ne_none y)⟩
  · rw [ha, queueAfter_self h]
  · rw [ha, bne_self_eq_false]
    rfl
  · rw [ha, bne_self_eq_false, Bool.and_false]
    rfl

theorem queueReported_set {c : Condition} {r : Bool} {k : ChangeKind} (hr : q.returned ≠ r)
    (ha : entryAfterReport (u.pointDef q.point).latch c q = some { q with returned := r })
    (hc : (queueChange u q.point k).candidate = (c == .active)) :
    QueueReported u q.point c q
      { s := { u with queue := u.queue.map fun x => if x.point == q.point then { x with returned := r } else x }
        changes := [queueChange u q.point k] } (some (queueChange u q.point k)) := by
  have hne : (some { q with returned := r } != some q) = true :=
    bne_iff_ne.2 fun hh => hr (congrArg QEntry.returned (Option.some.inj hh)).symm
  refine ⟨?_, rfl, ?_, ?_, fun y hy => ?_⟩
  · rw [ha, queueAfter_returned h]
  · rw [ha, hne]
    rfl
  · rw [ha, hne, Bool.and_true]
    exact hc
  · cases hy
    exact ⟨rfl, rfl⟩

theorem queueReported_latched {c : Condition} (hk : (u.pointDef q.point).latch ≠ .tracking) :
    ∃ x, QueueReported u q.point c q (reportQueued q (c == .active) .report { s := u }) x := by
  have ha : entryAfterReport (u.pointDef q.point).latch c q = some { q with returned := !(c == .active) } := by
    cases hl : (u.pointDef q.point).latch with
    | tracking => exact absurd hl hk
    | latched => cases c <;> rfl
    | ringback => cases c <;> rfl
  rw [reportQueued_of_latched hk]
  by_cases hr : q.returned = (c == .active)
  · rw [if_pos hr]
    exact ⟨_, queueReported_set h (by rw [hr]; cases c <;> decide) ha (by cases c <;> rfl)⟩
  · rw [if_neg hr]
    have hc : q.returned = !(c == .active) := Bool.eq_not_of_ne hr
    exact ⟨none, queueReported_same h (by rw [ha, ← hc])⟩

theorem reportQueued_queueReported (c : Condition) :
    ∃ x, QueueReported u q.point c q (reportQueued q (c == .active) .report { s := u }) x := by
  by_cases hk : (u.pointDef q.point).latch = .tracking
  · cases c with
    | active =>
      have he : reportQueued q true .report { s := u } = { s := u } := by unfold reportQueued; simp only [hk]
      refine ⟨none, ?_⟩
      change QueueReported _ _ _ _ (reportQueued q true .report { s := u }) _
      rw [he]
      exact queueReported_same h (by rw [hk]; rfl)
    | normal =>
      have he : reportQueued q false .report { s := u } =
          { s := { u with queue := u.queue.filter fun x => !(x.point == q.point) }
            changes := [queueChange u q.point .queueLeave] } := by
        unfold reportQueued
        simp only [hk]
        rfl
      have ha : entryAfterReport (u.pointDef q.point).latch .normal q = none := by rw [hk]; rfl
      refine ⟨some (queueChange u q.point .queueLeave), ?_⟩
      change QueueReported _ _ _ _ (reportQueued q false .report { s := u }) _
      rw [he]
      refine ⟨by rw [ha, queueAfter_none], rfl, by rw [ha]; rfl, rfl, fun y hy => ?_⟩
      cases hy
      exact ⟨rfl, rfl⟩
  · exact queueReported_latched h hk

end

/-- The PREP of one record for a queued point moves its entry, and no slot. -/
structure QueuePart (s : State) (p : Nat) (c : Condition) (q : QEntry) (x : Option SlotChange) : Prop where
  part : TablePart s p c x
  queue : (reportedEv s p c).s.queue = queueAfter s.queue p (entryAfterReport (s.pointDef p).latch c q)
  slotless : (reportedEv s p c).s.slotOf p = none
  slots : (reportedEv s p c).s.slots = s.slots
  moved : x.isSome = (entryAfterReport (s.pointDef p).latch c q != some q)
  candidate : x.any (·.candidate) = (c == .active && entryAfterReport (s.pointDef p).latch c q != some q)

theorem applyReport_of_queued {u : State} {q : QEntry} (hs : u.slotOf q.point = none) (hm : q ∈ u.queue)
    (h : ∀ x ∈ u.queue, x.point = q.point → x = q) (active : Bool) (o : Origin) :
    applyReport q.point active o { s := u } = reportQueued q active o { s := u } := by
  have hf : u.queue.find? (fun x => x.point == q.point) = some q := by
    cases hx : u.queue.find? (fun x => x.point == q.point) with
    | none => exact absurd (List.find?_eq_none.1 hx q hm) (by simp)
    | some y => rw [h y (List.mem_of_find?_eq_some hx) (by simpa using List.find?_some hx)]
  unfold applyReport
  rw [hs]
  dsimp only
  rw [hf]

theorem applyReport_queueReported {u : State} {q : QEntry} (hs : u.slotOf q.point = none) (hm : q ∈ u.queue)
    (h : ∀ x ∈ u.queue, x.point = q.point → x = q) (c : Condition) :
    ∃ x, QueueReported u q.point c q (applyReport q.point (c == .active) .report { s := u }) x := by
  rw [applyReport_of_queued hs hm h]
  exact reportQueued_queueReported h c

theorem QueueReported.slotOf {u : State} {p : Nat} {c : Condition} {q : QEntry} {e : Ev} {x : Option SlotChange}
    (h : QueueReported u p c q e x) (r : Nat) : e.s.slotOf r = u.slotOf r := by
  rw [h.state]
  rfl

theorem reportedEv_queuePart {s : State} {p : Nat} {q : QEntry} (hs : s.slotOf p = none) (hm : q ∈ s.queue)
    (h : ∀ x ∈ s.queue, x.point = p → x = q) (hp : q.point = p) (c : Condition) : ∃ x, QueuePart s p c q x := by
  subst hp
  have hr := reporting_reporting s q.point c
  obtain ⟨ht, hqu⟩ := reporting_congr s q.point c
  have hd : (s.reporting q.point c).pointDef q.point = s.pointDef q.point := pointDef_congr (congrArg Tables.points ht) _
  have hsu : (s.reporting q.point c).slotOf q.point = none := (slotOf_congr hr.slots _).trans hs
  obtain ⟨x, hx⟩ := applyReport_queueReported hsu (by rwa [hqu]) (by rwa [hqu]) c
  obtain ⟨y, hy⟩ := applyReport_queueReported
    (u := s.setDyn q.point (dynAfterReport (s.pointDef q.point) (s.dynOf q.point) c)) hs hm h c
  have hslot := (hx.slotOf q.point).trans hsu
  obtain ⟨hstate, hchanges, hmoved, hcand, hpoint⟩ := hx
  have he := (reportedEv_eq s q.point c).trans (heldEv_of_none hslot)
  rw [← he] at hstate hchanges hslot
  rw [hd] at hmoved hcand hpoint
  rw [hd, hqu] at hstate
  refine ⟨x, ⟨?_, hchanges, hpoint, fun i sl hi => ?_, ?_⟩, congrArg (·.queue) hstate, hslot,
    (congrArg (·.slots) hstate).trans hr.slots, hmoved, hcand⟩
  · rw [hstate]
  · rw [hslot] at hi
    cases hi
  · rw [hslot]
    exact (congrArg (Option.map fun y => y.2.occ) ((hy.slotOf q.point).trans hs)).symm

/-- The points of a sound alarm table's slots and queue entries are apart. -/
theorem State.AlarmTableSound.queued {s : State} (h : s.AlarmTableSound) {q : QEntry} (hq : q ∈ s.queue) :
    s.slotOf q.point = none ∧ ∀ x ∈ s.queue, x.point = q.point → x = q := by
  obtain ⟨-, -, hn, -⟩ := h
  obtain ⟨-, hqn, hd⟩ := List.nodup_append.1 hn
  refine ⟨List.find?_eq_none.2 fun e he hp => ?_, fun x hx hp => List.inj_on_of_nodup_map hqn hx hq hp⟩
  exact hd _ (List.mem_map_of_mem he) _ (List.mem_map_of_mem hq) (by simpa using hp)

/-- Settles O21: a report moves its point's slot by the table of its class, and a queued point's entry by that of R19; the
slot change that each hands on is what the load monitor and the generation count. -/
theorem reportMovesTheSlotByItsClass : Obligations.ReportMovesTheSlotByItsClass := by
  refine ⟨fun ms p i f d c sl s hrep hs hm hp hq hk => ?_, fun ms p f d c q s hrep hs hq hp => ?_⟩
  · obtain ⟨x, t, ht, hx, hl⟩ := prep_moves_slot (ms := ms) hrep hs hm hp hq hk
    have hqt : t.queue = s.queue := hl.queue.trans (hx.queue.trans (heard_queue ..))
    have hframe : AlarmEventFrame { s with dyn := t.dyn, controllers := t.controllers } t := by
      have hf := hl.frame
      rw [hqt] at hf
      exact hf
    obtain ⟨hbare, hover, hothers⟩ := hl.slot hx hp
    refine ⟨t, ht, hbare, fun w hw => ?_, hothers, hl.areaOfSlot hx, hl.dyn, hl.hold, hl.snapshot, hqt.trans hq,
      hl.console, hframe⟩
    obtain ⟨hshelved, hstale, hchatter, hsuppressed⟩ := hover w hw
    exact ⟨hshelved, hstale, hchatter, hsuppressed⟩
  · subst hp
    obtain ⟨hslot, huniq⟩ := hs.queued hq
    obtain ⟨x, hx⟩ := reportedEv_queuePart (s := s.heard ms .plant f) ((slotOf_congr (heard_slots ..) _).trans hslot)
      (by rwa [heard_queue]) (by rwa [heard_queue]) rfl c
    obtain ⟨t, ht, hl⟩ := exec_prep_leaves hx.part hrep
    have hmoved := hx.moved
    have hcand := hx.candidate
    rw [heard_pointDef] at hmoved hcand
    refine ⟨t, ht, ?_, ?_, fun b => ?_, hl.dyn, hl.hold, hl.snapshot, hl.console, hl.frame⟩
    · rw [hl.queue, hx.queue, heard_queue, heard_pointDef]
      rfl
    · rw [hl.slots, loadedReport_slots_of_none hx.part hx.slotless, hx.slots, heard_slots]
    · rw [hl.area, hmoved, countsIn, hcand]
      split
      · next hb => rw [hb]
      · rfl

end Sys2Proof.Machine

namespace Sys2Proof.Machine

/-! ## The notices of a console through an event (R99 to R101) -/

/-- The kind of NOTE FLOOD. -/
def Notice.isFlood (n : Notice) : Bool := n.kindCode == 4

/-- A queue takes at most `k` notices of other kinds: with room for them, it keeps its NOTE FLOODs. -/
structure QueueGrows (k : Nat) (l l' : List Notice) : Prop where
  length : l'.length ≤ l.length + k
  kept : l.length + k ≤ 32 → ∀ m ∈ l, m.isFlood = true → m ∈ l'

theorem QueueGrows.refl (k : Nat) (l : List Notice) : QueueGrows k l l := ⟨Nat.le_add_right .., fun _ _ h _ => h⟩

theorem QueueGrows.trans {j k : Nat} {l m n : List Notice} (h : QueueGrows j l m) (h' : QueueGrows k m n) :
    QueueGrows (j + k) l n := by
  obtain ⟨hl, hk⟩ := h
  obtain ⟨hl', hk'⟩ := h'
  exact ⟨by omega, fun hroom x hx hf => hk' (by omega) x (hk (by omega) x hx hf) hf⟩

theorem QueueGrows.mono {j k : Nat} {l m : List Notice} (h : QueueGrows j l m) (hk : j ≤ k) : QueueGrows k l m := by
  obtain ⟨hl, hkept⟩ := h
  exact ⟨by omega, fun hroom => hkept (by omega)⟩

theorem joinNotice_grows (horn : Horn) (l : List Notice) {n : Notice} (hn : n.isFlood = false) :
    QueueGrows 1 l (joinNotice horn l n) := by
  unfold joinNotice
  split
  · refine ⟨by simp, fun _ m hm hf => List.mem_map.2 ⟨m, hm, if_neg fun hs => ?_⟩⟩
    simp_all [Notice.isFlood, Notice.sameKey]
  · split
    · exact ⟨by simp, fun _ m hm _ => List.mem_append_left _ hm⟩
    · next h => exact ⟨by simp, fun hroom => absurd (show l.length < Config.noticeCap from hroom) h⟩

theorem take_grows (c : Console) {n : Notice} (hn : n.isFlood = false) :
    QueueGrows 1 c.notices (c.take n).notices := by
  unfold Console.take
  split
  · exact joinNotice_grows _ _ hn
  · exact .refl _ _

/-- The queue of the console at `a` takes at most `k` notices of other kinds than NOTE FLOOD. -/
structure NoticesGrow (a k : Nat) (s t : State) : Prop where
  rising : risingKeys s.consoles = true → risingKeys t.consoles = true
  queue : ∀ c, lookup s.consoles a = some c →
    ∃ c', lookup t.consoles a = some c' ∧ QueueGrows k c.notices c'.notices

theorem NoticesGrow.of_eq {a : Nat} {s t : State} (h : t.consoles = s.consoles) (k : Nat) : NoticesGrow a k s t := by
  refine ⟨fun hr => by rwa [h], fun c hc => ⟨c, by rwa [h], .refl ..⟩⟩

theorem NoticesGrow.trans {a j k : Nat} {s t u : State} (h : NoticesGrow a j s t) (h' : NoticesGrow a k t u) :
    NoticesGrow a (j + k) s u := by
  refine ⟨h'.rising ∘ h.rising, fun c hc => ?_⟩
  obtain ⟨d, hd, hg⟩ := h.queue c hc
  obtain ⟨e, he, hg'⟩ := h'.queue d hd
  exact ⟨e, he, hg.trans hg'⟩

theorem NoticesGrow.mono {a j k : Nat} {s t : State} (h : NoticesGrow a j s t) (hk : j ≤ k) : NoticesGrow a k s t := by
  refine ⟨h.rising, fun c hc => ?_⟩
  obtain ⟨d, hd, hg⟩ := h.queue c hc
  exact ⟨d, hd, hg.mono hk⟩

theorem modConsole_rising {s : State} (h : risingKeys s.consoles = true) (b : Nat) (f : Console → Console) :
    risingKeys (s.modConsole b f).consoles = true := by
  unfold State.modConsole
  split
  · exact risingKeys_insertAt h _ _
  · exact h

/-- One, for an address that is `a`. -/
def oneAt (b a : Nat) : Nat := if b = a then 1 else 0

theorem modConsole_grows (s : State) {a b k : Nat} {f : Console → Console}
    (hf : b = a → ∀ c, QueueGrows k c.notices (f c).notices) : NoticesGrow a k s (s.modConsole b f) := by
  refine ⟨fun h => modConsole_rising h b f, fun c hc => ?_⟩
  rw [lookup_modConsole]
  by_cases hb : a = b
  · rw [if_pos hb, ← hb, hc]
    exact ⟨_, rfl, hf hb.symm c⟩
  · rw [if_neg hb]
    exact ⟨c, hc, .refl ..⟩

/-- A notice joins the queue of its console alone. -/
theorem notify_grows (s : State) (a b : Nat) {n : Notice} (hn : n.isFlood = false) :
    NoticesGrow a (oneAt b a) s (s.notify b n) := by
  by_cases hb : b = a
  · rw [oneAt, if_pos hb]
    exact modConsole_grows s fun _ c => take_grows c hn
  · exact modConsole_grows s fun h => absurd h hb

theorem setHorn_grows (s : State) (a b : Nat) (h : Horn) : NoticesGrow a (oneAt b a) s (s.setHorn b h) := by
  unfold State.setHorn
  split
  · split
    · exact .of_eq rfl _
    · have hset : NoticesGrow a 0 s (s.modConsole b fun c => { c with horn := h }) :=
        modConsole_grows s fun _ _ => .refl ..
      exact (hset.trans (notify_grows _ a b (n := .horn h) rfl)).mono (Nat.zero_add _).le
  · exact .of_eq rfl _

/-- Each address of a list adds at most one notice, and to its own console alone. -/
theorem NoticesGrow.foldl_count {f : State → Nat → State} {a : Nat}
    (h : ∀ s b, NoticesGrow a (oneAt b a) s (f s b)) (l : List Nat) (s : State) :
    NoticesGrow a (l.count a) s (l.foldl f s) := by
  induction l generalizing s with
  | nil => exact .of_eq rfl _
  | cons b l ih =>
    refine ((h s b).trans (ih _)).mono ?_
    rw [List.count_cons, Nat.add_comm, oneAt]
    simp

theorem NoticesGrow.foldl_length {α : Type} {f : State → α → State} {a : Nat} (h : ∀ s x, NoticesGrow a 1 s (f s x))
    (l : List α) (s : State) : NoticesGrow a l.length s (l.foldl f s) := by
  induction l generalizing s with
  | nil => exact .of_eq rfl _
  | cons x l ih => exact ((h s x).trans (ih _)).mono (Nat.add_comm ..).le

theorem keys_nodup {α : Type} {l : List (Nat × α)} (h : risingKeys l = true) (q : Nat × α → Bool) :
    (keys (l.filter q)).Nodup := by
  have hp : (l.filter q).Pairwise fun a b => a.1 < b.1 := ((risingKeys_iff l).1 h).filter q
  exact List.pairwise_map.2 (hp.imp fun hlt => ne_of_lt hlt)

theorem reviewRecord_grows (s t : State) (a : Nat) (cs : List SlotChange) (xs : List ShelfEvent) (h : Handover) :
    NoticesGrow a 1 t (reviewRecord s cs xs t h) := by
  unfold reviewRecord
  dsimp only
  split
  · refine ((NoticesGrow.of_eq (by simp) 0).trans (notify_grows _ a _ (by rfl))).mono ?_
    unfold oneAt
    split <;> omega
  · exact .of_eq (by simp) _

theorem engineEvent_grows (s : State) (a : Nat) (cs : List SlotChange) (xs : List ShelfEvent) :
    NoticesGrow a s.records.length s (engineEvent cs xs s) := by
  rw [engineEvent_eq]
  exact .foldl_length (fun t h => reviewRecord_grows s t a cs xs h) _ _

theorem notifyArea_grows {s : State} (h : risingKeys s.consoles = true) (a b : Nat) {n : Notice} (hn : n.isFlood = false) :
    NoticesGrow a 1 s (s.notifyArea b n) :=
  (NoticesGrow.foldl_count (fun t x => notify_grows t a x hn) (s.entitled b) s).mono
    (List.nodup_iff_count_le_one.1 (keys_nodup h _) a)

theorem namedAreas_single {cs : List SlotChange} {b : Nat} (h : cs.map (·.area) = [b]) : namedAreas cs = [b] := by
  unfold namedAreas
  rw [h]
  rfl

theorem queueNewAlarms_grows {s : State} (h : risingKeys s.consoles = true) (a : Nat) {cs : List SlotChange} {b : Nat}
    (hb : cs.map (·.area) = [b]) : NoticesGrow a 1 s (queueNewAlarms cs s) := by
  unfold queueNewAlarms
  rw [namedAreas_single hb, List.foldl_cons, List.foldl_nil]
  split
  · exact .of_eq rfl _
  · exact notifyArea_grows h a b rfl

theorem hornStep_grows (b : State) (cs : List SlotChange) (s : State) (a x : Nat) :
    NoticesGrow a (oneAt x a) s (hornStep b cs s x) := by
  unfold hornStep State.hornStep2
  split
  · split
    · exact setHorn_grows ..
    · split
      · split
        · exact setHorn_grows ..
        · exact .of_eq rfl _
      · exact .of_eq rfl _
  · exact .of_eq rfl _

theorem evaluateHorns_grows {s : State} (h : risingKeys s.consoles = true) (a : Nat) (b : State) (cs : List SlotChange) :
    NoticesGrow a 1 s (evaluateHorns b cs s) :=
  (NoticesGrow.foldl_count (fun t x => hornStep_grows b cs t a x) s.attachedConsoles s).mono
    (List.nodup_iff_count_le_one.1 (keys_nodup h _) a)

/-- What is handed on where one area is named: a NOTE HANDOVER of each record, a NEW_ALARM and a NOTE HORN at most. -/
theorem handOn_grows {e : Ev} (h : risingKeys e.s.consoles = true) {area : Nat} (hb : e.changes.map (·.area) = [area])
    (a : Nat) (b : State) (xs : List ShelfEvent) : NoticesGrow a (e.s.records.length + 2) e.s (handOn b e xs) := by
  have hengine : NoticesGrow a e.s.records.length e.s
      (engineEvent e.changes xs (advanceGenerations (namedAreas e.changes) e.s)) := by
    have hk := engineEvent_grows (advanceGenerations (namedAreas e.changes) e.s) a e.changes xs
    have hrec : (advanceGenerations (namedAreas e.changes) e.s).records = e.s.records := by rw [advanceGenerations_frame]
    rw [hrec] at hk
    exact ((NoticesGrow.of_eq (by rw [advanceGenerations_frame]) 0).trans hk).mono (Nat.zero_add _).le
  have hnew := queueNewAlarms_grows (hengine.rising h) a hb
  have hhorn := evaluateHorns_grows (hnew.rising (hengine.rising h)) a b e.changes
  unfold handOn
  dsimp only
  rw [if_neg (by intro hn; rw [List.isEmpty_iff.1 hn] at hb; cases hb)]
  exact hengine.trans (hnew.trans hhorn)

/-! ## NOTE FLOOD (R45) -/

theorem lookup_notifyEach {l : List Nat} (h : l.Nodup) (s : State) (n : Notice) (a : Nat) :
    lookup (s.notifyEach l n).consoles a =
      if a ∈ l then (lookup s.consoles a).map (·.take n) else lookup s.consoles a := by
  unfold State.notifyEach
  induction l generalizing s with
  | nil => simp
  | cons b l ih =>
    obtain ⟨hb, hl⟩ := List.nodup_cons.1 h
    rw [List.foldl_cons, ih hl, State.notify, lookup_modConsole]
    by_cases ha : a = b
    · subst ha
      simp [hb]
    · simp [ha]

theorem joinNotice_mem {horn : Horn} {l : List Notice} (h : l.length < 32) (n : Notice) :
    n ∈ joinNotice horn l n ∧ (joinNotice horn l n).length ≤ l.length + 1 := by
  unfold joinNotice
  split
  · next hany =>
    obtain ⟨m, hm, hs⟩ := List.any_eq_true.1 hany
    exact ⟨List.mem_map.2 ⟨m, hm, if_pos hs⟩, by simp⟩
  · rw [if_pos (show l.length < Config.noticeCap from h)]
    simp

theorem take_mem {c : Console} (ha : c.attached = true) (h : c.notices.length < 32) (n : Notice) :
    n ∈ (c.take n).notices ∧ (c.take n).notices.length ≤ c.notices.length + 1 := by
  unfold Console.take
  rw [if_pos ha]
  exact joinNotice_mem h n

/-- An area that enters FLOOD tells its consoles (R45). -/
theorem addLoad_consoles {s : State} {a w : Nat} (hb : (s.area a).flood = false)
    (ht : ((s.addLoad a w).area a).flood = true) :
    ∃ u : State, u.consoles = s.consoles ∧ u.tables = s.tables
      ∧ (s.addLoad a w).consoles = (u.notifyArea a (.flood a true)).consoles := by
  unfold State.addLoad at ht ⊢
  dsimp only at ht ⊢
  split at ht
  · next hin =>
    rw [if_pos hin]
    refine ⟨(s.modArea a fun r => { r with load := min 65535 (r.load + w) }).modArea a fun r => { r with flood := true },
      rfl, rfl, ?_⟩
    unfold State.enterFlood
    exact State.latch_consoles ..
  · rw [area_modArea, if_pos rfl] at ht
    exact absurd (hb.symm.trans ht) Bool.false_ne_true

theorem mem_entitled {s : State} {a area : Nat} {c : Console} (hc : lookup s.consoles a = some c)
    (ha : c.attached = true) (hv : (c.operators.any fun op => s.hasRight op area .view) = true) : a ∈ s.entitled area := by
  refine List.mem_map.2 ⟨(a, c), List.mem_filter.2 ⟨mem_of_lookup hc, ?_⟩, rfl⟩
  simpa [ha] using hv

/-- The console at `a` holds the NOTE FLOOD of an area, among at most `n` notices. -/
def HoldsFlood (s : State) (area a n : Nat) : Prop :=
  risingKeys s.consoles = true
    ∧ ∃ k, lookup s.consoles a = some k ∧ .flood area true ∈ k.notices ∧ k.notices.length ≤ n

/-- Each ATTACHED console of an area that enters FLOOD, with room, holds its NOTE FLOOD. -/
theorem addLoad_told {s : State} {area w a : Nat} {c : Console} (hb : (s.area area).flood = false)
    (ht : ((s.addLoad area w).area area).flood = true) (hr : risingKeys s.consoles = true)
    (hc : lookup s.consoles a = some c) (ha : c.attached = true) (hv : viewsArea s area c) (hroom : c.notices.length < 32) :
    HoldsFlood (s.addLoad area w) area a (c.notices.length + 1) := by
  obtain ⟨u, huc, hut, hcons⟩ := addLoad_consoles hb ht
  have hcu : lookup u.consoles a = some c := by rwa [huc]
  have hru : risingKeys u.consoles = true := by rwa [huc]
  have hmem : a ∈ u.entitled area := mem_entitled hcu ha (by
    unfold viewsArea at hv
    simpa only [hasRight_congr hut] using hv)
  have hnd : (u.entitled area).Nodup := keys_nodup hru _
  obtain ⟨hm, hlen⟩ := take_mem ha hroom (.flood area true)
  unfold HoldsFlood
  rw [hcons]
  refine ⟨?_, c.take (.flood area true), ?_, hm, hlen⟩
  · exact List.foldlRecOn (motive := fun t : State => risingKeys t.consoles = true) _ _ hru
      fun t ht x _ => modConsole_rising ht _ _
  · rw [State.notifyArea, lookup_notifyEach hnd, if_pos hmem, hcu]
    rfl

/-- So does each where the load stage of one slot change brings the area into FLOOD. -/
theorem loadOne_told {s : State} {x : SlotChange} {a : Nat} {c : Console} (hb : (s.area x.area).flood = false)
    (ht : ((loadOne { s := s } x).s.area x.area).flood = true) (hr : risingKeys s.consoles = true)
    (hc : lookup s.consoles a = some c) (ha : c.attached = true) (hv : viewsArea s x.area c)
    (hroom : c.notices.length < 32) : HoldsFlood (loadOne { s := s } x).s x.area a (c.notices.length + 1) := by
  cases hcount : isCounted s x with
  | false =>
    rw [loadOne_of_uncounted hcount] at ht
    exact absurd (hb.symm.trans ht) Bool.false_ne_true
  | true =>
    rw [loadOne_of_counted hcount] at ht ⊢
    exact addLoad_told hb ht hr hc ha hv hroom

end Sys2Proof.Machine

namespace Sys2Proof.Machine

/-! ## An onset into a free slot (R14, R17) -/

/-- The slot change of an onset into slot `i` (R15). -/
def onsetChange (u : State) (i p : Nat) : SlotChange :=
  { kind := .onset, point := p, area := (u.pointDef p).area, slot := some i, newState := some .activeUnack
    newOcc := some 1, origin := some .report }

/-- The slot of an onset. -/
def onsetSlot (u : State) (p : Nat) : Slot := freshSlot u p .activeUnack u.stamp u.stamp false

theorem lowestFree_of_free {s : State} {i : Nat} (hi : i < 1024) (hl : lookup s.slots i = none)
    (hj : ∀ j, j < i → lookup s.slots j ≠ none) : s.lowestFree = some i := by
  unfold State.lowestFree
  refine List.find?_range_eq_some.2 ⟨by simpa using hl, List.mem_range.2 hi, fun j hlt => ?_⟩
  simpa using Option.isSome_iff_ne_none.2 (hj j hlt)

theorem lowestFree_congr {s t : State} (h : t.slots = s.slots) : t.lowestFree = s.lowestFree := by
  unfold State.lowestFree; rw [h]

theorem applyReport_of_free {u : State} {p i : Nat} (hs : u.slotOf p = none) (hq : u.queued p = false)
    (hf : u.lowestFree = some i) : applyReport p true .report { s := u } =
      { s := u.marked.setSlot i (onsetSlot u p), changes := [onsetChange u i p] } := by
  have hfind : u.queue.find? (fun q => q.point == p) = none :=
    List.find?_eq_none.2 fun q hm => by simpa using forall_ne_of_queued hq q hm
  unfold applyReport
  rw [hs]
  dsimp only
  rw [hfind]
  exact (if_pos rfl).trans (allocate_of_free (e := { s := u }) p .report hf)

theorem slotOf_setSlot_of_none {u : State} {p i : Nat} {z : Slot} (hs : u.slotOf p = none) (hz : z.point = p) :
    (u.setSlot i z).slotOf p = some (i, z) := by
  cases h : (u.setSlot i z).slotOf p with
  | none => exact absurd hz (forall_ne_of_slotOf h (i, z) (mem_of_lookup (lookup_insertAt_self ..)))
  | some y =>
    obtain ⟨hm, hp⟩ := mem_of_slotOf (i := y.1) (sl := y.2) h
    rcases mem_insertAt hm with hy | hy
    · exact congrArg some hy
    · exact absurd hp (forall_ne_of_slotOf hs _ hy)

/-- What the alarm table's part of an onset report into free slot `i` leaves (R14, R51). -/
structure OnsetPart (s : State) (p i : Nat) (x : SlotChange) : Prop where
  part : TablePart s p .active (some x)
  candidate : x.candidate = true
  suppresses : ∀ t : State, t.tables = s.tables → suppresses t x =
    ((s.pointDef p).priority == .low && (s.pointDef p).suppressible && (t.area (s.pointDef p).area).flood)
  queue : (reportedEv s p .active).s.queue = s.queue
  time : (reportedEv s p .active).s.time = { s.time with high := s.stamp }
  slot : (reportedEv s p .active).s.slotOf p = some (i,
    { point := p, state := .activeUnack, occ := 1, onset := s.stamp, last := s.stamp, ackOp := none
      shelved := s.shelved p, chatter := (dynAfterReport (s.pointDef p) (s.dynOf p) .active).held, suppressed := false
      stale := !s.controllerLive (s.pointDef p).controller })
  others : OtherSlotsKept i s (reportedEv s p .active).s

section
variable {s : State} {p i : Nat} (hs : s.slotOf p = none) (hq : s.queued p = false) (hf : s.lowestFree = some i)
include hs hq hf

/-- The alarm table's part of an onset report; the onset itself has marked its slot where a hold has started. -/
theorem reportedEv_onset : reportedEv s p .active =
    { s := (s.reporting p .active).marked.setSlot i (onsetSlot (s.reporting p .active) p)
      changes := [onsetChange (s.reporting p .active) i p] } := by
  have hr := reporting_reporting s p .active
  obtain ⟨-, hqu⟩ := reporting_congr s p .active
  have hsu := (slotOf_congr hr.slots p).trans hs
  have he := applyReport_of_free hsu ((queued_congr hqu p).trans hq) ((lowestFree_congr hr.slots).trans hf)
  refine (reportedEv_eq s p .active).trans (Eq.trans ?_ he)
  change heldEv _ p (applyReport p true .report { s := s.reporting p .active }) = _
  rw [he]
  cases hst : startsHold s p .active with
  | false => rfl
  | true =>
    refine markHeld_of_chatter (slotOf_setSlot_of_none (u := (s.reporting p .active).marked) hsu rfl) ?_
    have hdyn := hr.dyn p
    rw [if_pos rfl] at hdyn
    unfold startsHold at hst
    obtain ⟨hheld, -⟩ := Bool.and_eq_true_iff.1 hst
    exact (congrArg PointDyn.held hdyn).trans hheld

theorem reportedEv_onset_slotOf :
    (reportedEv s p .active).s.slotOf p = some (i, onsetSlot (s.reporting p .active) p) := by
  rw [reportedEv_onset hs hq hf]
  exact slotOf_setSlot_of_none (u := (s.reporting p .active).marked)
    ((slotOf_congr (reporting_reporting s p .active).slots p).trans hs) rfl

theorem holdReport_onset_occ :
    (holdReport p true (s.setDyn p (dynAfterReport (s.pointDef p) (s.dynOf p) .active))).occ = some 1 := by
  change ((applyReport p true .report { s := s.setDyn p _ }).s.slotOf p).map _ = _
  rw [applyReport_of_free (u := s.setDyn p _) hs hq hf]
  dsimp only
  rw [slotOf_setSlot_of_none (u := (s.setDyn p _).marked) hs rfl]
  rfl

theorem onset_tablePart : TablePart s p .active (some (onsetChange (s.reporting p .active) i p)) := by
  obtain ⟨ht, -⟩ := reporting_congr s p .active
  have hev := reportedEv_onset hs hq hf
  have hslot := reportedEv_onset_slotOf hs hq hf
  constructor
  case frame => rw [hev]; rfl
  case changes => rw [hev]; rfl
  case point =>
    intro y hy
    cases hy
    exact ⟨rfl, congrArg PointDef.area (pointDef_congr (congrArg Tables.points ht) p)⟩
  case found =>
    intro j sl hj
    rw [hslot] at hj
    cases hj
    rw [hev]
    exact lookup_insertAt_self ..
  case occ =>
    rw [hslot]
    exact (holdReport_onset_occ hs hq hf).symm

theorem reportedEv_onsetPart (hsound : s.time.Sound) : ∃ x, OnsetPart s p i x := by
  have hr := reporting_reporting s p .active
  have hdyn := hr.dyn p
  rw [if_pos rfl] at hdyn
  obtain ⟨ht, -, hqu, hshelf, hctl, -⟩ := kept_fields (s := s) (k := s.controllers) (q := s.queue) hr.kept
  have hd : (s.reporting p .active).pointDef p = s.pointDef p := pointDef_congr (congrArg Tables.points ht) p
  have hev := reportedEv_onset hs hq hf
  refine ⟨onsetChange (s.reporting p .active) i p, ?_⟩
  constructor
  case part => exact onset_tablePart hs hq hf
  case candidate => rfl
  case suppresses =>
    intro t htt
    unfold Machine.suppresses onsetChange
    dsimp only
    rw [hd, pointDef_congr (congrArg Tables.points htt)]
    rfl
  case queue => rw [hev]; exact hqu
  case time => rw [hev]; exact hr.time hsound
  case slot =>
    rw [reportedEv_onset_slotOf hs hq hf]
    unfold onsetSlot freshSlot
    rw [hr.stamp hsound, shelved_congr hshelf, hdyn, hd, controllerLive_congr hctl]
  case others =>
    intro j hj
    rw [hev]
    exact (lookup_insertAt_of_ne _ hj _).trans (congrArg (lookup · j) hr.slots)

end

end Sys2Proof.Machine

namespace Sys2Proof.Machine

/-! ## The NOTE FLOOD of a report, and what an onset leaves (R45, R46) -/

theorem pointAreas_pos (s : State) : 1 ≤ s.pointAreas.length :=
  List.length_pos_of_mem (mem_ascending.2 (List.mem_cons_self ..))

section
variable {s : State} {p : Nat} {c : Condition} {x : Option SlotChange} (h : TablePart s p c x)
include h

theorem loadedReport_records : (loadedReport s p c).s.records = s.records := by
  have hr : (reportedEv s p c).s.records = s.records := by
    rw [h.frame]
    exact (reporting_reporting s p c).records
  unfold loadedReport
  rw [h.changes]
  cases x with
  | none => exact hr
  | some y => exact (loadOne_loaded ..).records.trans hr

/-- The consoles of an area that a report brings into FLOOD hold its NOTE FLOOD after the load stage (R45). -/
theorem loadedReport_told {a : Nat} {k : Console} (hb : (s.area (s.pointDef p).area).flood = false)
    (ht : ((loadedReport s p c).s.area (s.pointDef p).area).flood = true) (hrise : risingKeys s.consoles = true)
    (hk : lookup s.consoles a = some k) (ha : k.attached = true) (hv : viewsArea s (s.pointDef p).area k)
    (hroom : k.notices.length < 32) :
    HoldsFlood (loadedReport s p c).s (s.pointDef p).area a (k.notices.length + 1) := by
  have hr := reporting_reporting s p c
  have hcons : (reportedEv s p c).s.consoles = s.consoles := by rw [h.frame]; exact hr.consoles
  have hareas : (reportedEv s p c).s.areas = s.areas := by rw [h.frame]; exact hr.areas
  have hviews : viewsArea (reportedEv s p c).s (s.pointDef p).area k := by
    unfold viewsArea at hv ⊢
    simpa only [hasRight_congr h.tables] using hv
  unfold loadedReport at ht ⊢
  rw [h.changes] at ht ⊢
  cases hx : x with
  | none =>
    rw [hx] at ht
    exact absurd (hb.symm.trans ((congrArg Area.flood (area_congr hareas _)).symm.trans ht)) Bool.false_ne_true
  | some y =>
    rw [hx] at ht
    obtain ⟨-, hy⟩ := h.point y hx
    rw [← hy] at hb ht hviews ⊢
    exact loadOne_told ((congrArg Area.flood (area_congr hareas _)).trans hb) ht (by rwa [hcons]) (by rwa [hcons]) ha
      hviews hroom

end

/-- The consoles of an area that a PREP brings into FLOOD hold its NOTE FLOOD (R45). -/
theorem PrepLeaves.told {ms p a : Nat} {f : Frame} {c : Condition} {x : SlotChange} {s t : State}
    (hl : PrepLeaves ms f p c (some x) s t) (hx : TablePart (s.heard ms .plant f) p c (some x))
    (ha : (s.pointDef p).area = a) (hb : (s.area a).flood = false) (ht : (t.area a).flood = true) :
    Told (.flood a true) (viewsArea s a) s t := by
  subst ha
  intro hrise b k hk hatt hv hroom
  have hh := heard_heardFrom s ms f
  have hpos := pointAreas_pos s
  have hview : viewsArea (s.heard ms .plant f) (s.pointDef p).area k := by
    unfold viewsArea at hv ⊢
    simpa only [hasRight_congr (heard_tables s ms f)] using hv
  have htold := loadedReport_told (a := b) (k := k) hx
  rw [heard_pointDef, heard_area, ← hl.flood, hh.consoles] at htold
  obtain ⟨hrise', k', hk', hmem, hlen⟩ := htold hb ht hrise hk hatt hview (by omega)
  have hgrow := handOn_grows hrise' (loadedReport_part hx).names b (s.heard ms .plant f) []
  rw [loadedReport_records hx, hh.records] at hgrow
  obtain ⟨k'', hk'', hq⟩ := hgrow.queue k' hk'
  rw [hl.consoles]
  exact ⟨k'', hk'', hq.kept (by omega) _ hmem rfl⟩

/-- Settles O22: the onset takes the free slot found for it, its one slot change is a candidate of the load monitor, and
the NOTE FLOOD that the load stage queues stays in a queue with room for what is handed on after it. -/
theorem onsetTakesTheLowestFreeSlot : Obligations.OnsetTakesTheLowestFreeSlot := by
  intro ms p i a f d s ⟨harr, hctl, hown, hrecs, hlen, hp, hcond, hpc, hdef, hmine, ha, hs, hq, hi, hfree, hlow, hsound⟩
  have hf := lowestFree_of_free hi hfree hlow
  obtain ⟨x, hx⟩ := reportedEv_onsetPart (s := s.heard ms .plant f) (p := p) ((slotOf_congr (heard_slots ..) p).trans hs)
    ((queued_congr (heard_queue ..) p).trans hq) ((lowestFree_congr (heard_slots ..)).trans hf) (heard_sound hsound ms f)
  obtain ⟨t, ht, hl⟩ := exec_prep_leaves hx.part
    ⟨harr, hctl, hown, hrecs, hlen, hp, hcond, hpc, hdef, hmine, hsound⟩
  have hh := heard_heardFrom s ms f
  have hcounts : countsIn s p (some x) = countsOnset s p := by
    unfold countsIn
    rw [Option.any_some, hx.candidate, Bool.true_and]
  have hqt : t.queue = s.queue := hl.queue.trans (hx.queue.trans (heard_queue ..))
  obtain ⟨hslot, -, hothers⟩ := loadedReport_slot hx.part hx.slot
  have htab : (loadedReport (s.heard ms .plant f) p .active).s.tables = (s.heard ms .plant f).tables := by
    obtain ⟨h, -⟩ := kept_fields (loadedReport_kept hx.part)
    rw [h, heard_tables]
  rw [Option.any_some, hx.suppresses _ htab, heard_countsIn, hcounts, ← hl.slots, ← hl.flood] at hslot
  simp only [heard_pointDef, heard_stamp, heard_shelved, heard_dynOf, hh.live, hmine, ha, Bool.false_or] at hslot
  refine ⟨t, ht, ⟨_, hslot, rfl, rfl, rfl, rfl, rfl, rfl, rfl, rfl, ?_, rfl⟩, fun j hj => ?_, fun b => ?_,
    fun hb hfl => ?_, hl.dyn, ?_, hl.hold, hl.snapshot, hl.console, ?_⟩
  · dsimp only
    ac_rfl
  · rw [hl.slots, hothers j hj, hx.others j hj, heard_slots]
  · rw [hl.area, hcounts, ha]
    split
    · next hb => rw [hb]; rfl
    · rfl
  · exact hl.told hx.part ha hb hfl
  · rw [hl.time, hx.time, hh.time, heard_stamp]
  · have hframe := hl.frame
    rw [hqt] at hframe
    exact hframe

end Sys2Proof.Machine

namespace Sys2Proof.Machine

/-! ## A telegram that only counts for the liveness of its source (R31, R34, R82, R172) -/

@[simp] theorem modController_modController (s : State) (a : Nat) (f g : Controller → Controller) :
    (s.modController a f).modController a g = s.modController a fun c => g (f c) := by
  unfold State.modController
  cases h : lookup s.controllers a <;> simp [h]

/-- A console or another station at the console port keeps its place in the console table. -/
theorem heard_console_isNone (s : State) (ms a : Nat) (f : Frame) :
    (lookup (s.heard ms .console f).consoles a).isNone = (lookup s.consoles a).isNone := by
  rw [heard_console, lookup_modConsole]
  split
  · next h => subst h; exact Option.isNone_map
  · rfl

/-- A telegram of R172's table other than an MREQ, and not of an unconfigured console, is discarded. -/
theorem classify_of_discarded {p : PortId} {kind : Byte} {f : Frame} {s : State} (hn : namedKind kind = true)
    (hm : kind ≠ 0x40#8) (hc : p = .plant ∨ consoleKind kind = false ∨ lookup s.consoles f.source.toNat ≠ none) :
    classify p kind f s = s := by
  have hm' : (kind == Kind.mreq) = false := beq_eq_false_iff_ne.2 hm
  unfold classify
  rw [if_neg (by simp [hn]), if_neg (by simp [hm']), if_neg]
  rintro ⟨rfl, hk, hl⟩
  rcases hc with hc | hc | hc
  · cases hc
  · exact absurd (hk.symm.trans hc) Bool.true_eq_false.mp
  · exact hc (Option.isNone_iff_eq_none.1 hl)

/-- A LIVE controller, one in resynchronisation and a station that is no controller start no resynchronisation. -/
theorem heard_plant_of_supervised {s : State} {f : Frame} (ms : Nat)
    (h : (lookup s.controllers f.source.toNat).all (fun c => c.live || c.phase != .idle) = true) :
    s.heard ms .plant f = (s.atArrival ms).modController f.source.toNat fun c => { c with silence := 0 } := by
  have hl : lookup (s.atArrival ms).controllers f.source.toNat = lookup s.controllers f.source.toNat := rfl
  unfold State.heard liveness State.modController
  dsimp only
  rw [hl]
  cases hc : lookup s.controllers f.source.toNat with
  | none => rfl
  | some c =>
    rw [hc, Option.all_some] at h
    have hb : (!c.live && c.phase == .idle) = false := by
      cases hlive : c.live <;> simp_all
    simp only [hb]
    rfl

theorem sendSreq_eq {s : State} {a : Nat} {c : Controller} (h : lookup s.controllers a = some c) :
    sendSreq a s = s.send .plant (generated s Kind.sreq a 0 (BitVec.ofNat 16 c.snapNumber) 0 []) := by
  unfold sendSreq
  rw [h]

/-- An SREQ is sent for a controller whose entry has just changed. -/
theorem sendSreq_modController {s : State} {a : Nat} {c : Controller} (h : lookup s.controllers a = some c)
    (g : Controller → Controller) :
    sendSreq a (s.modController a g)
      = (s.modController a g).send .plant (generated s 0x12#8 a 0 (BitVec.ofNat 16 (g c).snapNumber) 0 []) := by
  have hl : lookup (s.modController a g).controllers a = some (g c) := by rw [lookup_modController, if_pos rfl, h]; rfl
  rw [sendSreq_eq hl, generated_congr (State.modController_tables ..)]
  rfl

/-- A STALE controller in IDLE that is heard starts a resynchronisation (R34). -/
theorem heard_plant_of_stale {s : State} {f : Frame} {c : Controller} (ms : Nat)
    (hc : lookup s.controllers f.source.toNat = some c) (hlive : c.live = false) (hphase : c.phase = .idle) :
    s.heard ms .plant f = (((s.atArrival ms).modController f.source.toNat fun k =>
        { k with
          silence := 0, snapNumber := (k.snapNumber + 1) % 65536, sent := 1, wait := 5, phase := .requested }).send .plant
      (generated s 0x12#8 f.source.toNat 0 (BitVec.ofNat 16 ((c.snapNumber + 1) % 65536)) 0 [])).beginEvent := by
  have hl : lookup (s.atArrival ms).controllers f.source.toNat = some c := hc
  unfold State.heard liveness
  dsimp only
  rw [hl]
  simp only [hlive, hphase, Bool.not_false, Bool.true_and, beq_self_eq_true, if_true]
  unfold startResync
  rw [modController_modController, sendSreq_modController hl]
  rfl

theorem exec_live {p : PortId} {s : State} {f : Frame} (h : arrives p s f = true) (ms : Nat) :
    exec (.live ms p f) s = .next (s.heard ms p f) := congrArg Host.Outcome.next (receive_of_arrives h ms _)

theorem exec_discardedTelegram {p : PortId} {s : State} {f : Frame} {kind : Byte} (h : arrives p s f = true) (ms : Nat)
    (hn : namedKind kind = true) (hm : kind ≠ 0x40#8)
    (hc : p = .plant ∨ consoleKind kind = false ∨ lookup s.consoles f.source.toNat ≠ none) :
    exec (.discardedTelegram ms p kind f) s = .next (s.heard ms p f) := by
  refine congrArg Host.Outcome.next ((receive_of_arrives h ms _).trans (classify_of_discarded hn hm ?_))
  cases p with
  | plant => exact .inl rfl
  | console =>
    refine hc.imp id (Or.imp id fun hl hn => hl ?_)
    rw [← Option.isNone_iff_eq_none, heard_console_isNone] at hn
    exact Option.isNone_iff_eq_none.1 hn

/-- Settles O17: LIVE and each kind that R172 discards is heard, and what being heard does is given by port and by the
controller's state. -/
theorem discardedTelegramCountsForLiveness : Obligations.DiscardedTelegramCountsForLiveness := by
  refine ⟨fun ms p f s h => exec_live h ms, fun ms p kind f s h hn hm hc => exec_discardedTelegram h ms hn hm hc,
    fun ms f s => heard_console s ms f, fun ms f s h => heard_plant_of_supervised ms h, fun ms f s c hc hlive hphase => ?_⟩
  have hl : lookup (s.atArrival ms).controllers f.source.toNat = some c := hc
  rw [heard_plant_of_stale ms hc hlive hphase]
  constructor
  · rw [State.beginEvent_controllers, State.send_controllers, lookup_modController, if_pos rfl, hl]
    rfl
  · rw [State.beginEvent_plant, send_plant_plant, State.modController_plant]
    rfl

end Sys2Proof.Machine

namespace Sys2Proof.Machine

/-! ## A notice that an event with slot changes leaves in its queue (R99 to R101) -/

/-- No event with slot changes queues a notice of this kind: it is no NEW_ALARM, HANDOVER or HORN. -/
def Notice.lasting (n : Notice) : Bool := n.kindCode != 1 && n.kindCode != 3 && n.kindCode != 9

theorem Notice.sameKey_of_lasting {m n : Notice} (hn : n.lasting = true) (hm : m.lasting = false) :
    m.sameKey n = false := by
  refine Bool.eq_false_iff.2 fun h => ?_
  have hk : m.kindCode = n.kindCode := by simp_all [Notice.sameKey]
  rw [Notice.lasting, hk] at hm
  exact Bool.false_ne_true (hm.symm.trans hn)

/-- The console at `a` holds the notice `n`, among at most `k` notices. -/
def HoldsNotice (n : Notice) (a k : Nat) (s : State) : Prop :=
  risingKeys s.consoles = true ∧ ∃ c, lookup s.consoles a = some c ∧ n ∈ c.notices ∧ c.notices.length ≤ k

theorem HoldsNotice.congr {n : Notice} {a k : Nat} {s t : State} (h : HoldsNotice n a k s)
    (hc : t.consoles = s.consoles) : HoldsNotice n a k t := by
  unfold HoldsNotice
  rwa [hc]

theorem HoldsNotice.mono {n : Notice} {a j k : Nat} {s : State} (h : HoldsNotice n a j s) (hk : j ≤ k) :
    HoldsNotice n a k s := by
  obtain ⟨hr, c, hc, hm, hl⟩ := h
  exact ⟨hr, c, hc, hm, hl.trans hk⟩

theorem joinNotice_keeps {l : List Notice} {n m : Notice} (horn : Horn) (hs : m.sameKey n = false) (hn : n ∈ l)
    (hl : l.length < 32) : n ∈ joinNotice horn l m := by
  unfold joinNotice
  split
  · exact List.mem_map.2 ⟨n, hn, if_neg (by simp [hs])⟩
  · rw [if_pos (show l.length < Config.noticeCap from hl)]
    exact List.mem_append_left _ hn

theorem take_keeps {c : Console} {n m : Notice} (hs : m.sameKey n = false) (hn : n ∈ c.notices)
    (hl : c.notices.length < 32) : n ∈ (c.take m).notices ∧ (c.take m).notices.length ≤ c.notices.length + 1 := by
  by_cases ha : c.attached = true
  · refine ⟨?_, (take_mem ha hl m).2⟩
    unfold Console.take
    rw [if_pos ha]
    exact joinNotice_keeps _ hs hn hl
  · unfold Console.take
    rw [if_neg ha]
    exact ⟨hn, Nat.le_succ _⟩

section
variable {n : Notice} {a : Nat}

/-- A console whose notices do not change holds what it held. -/
theorem HoldsNotice.modConsole {k : Nat} {s : State} (h : HoldsNotice n a k s) (b : Nat) {f : Console → Console}
    (hf : ∀ c, (f c).notices = c.notices) : HoldsNotice n a k (s.modConsole b f) := by
  obtain ⟨hr, c, hc, hm, hl⟩ := h
  refine ⟨modConsole_rising hr b f, ?_⟩
  rw [lookup_modConsole]
  by_cases hb : a = b
  · rw [if_pos hb, ← hb, hc]
    exact ⟨f c, rfl, by rwa [hf], by rwa [hf]⟩
  · rw [if_neg hb]
    exact ⟨c, hc, hm, hl⟩

variable (hn : n.lasting = true)
include hn

theorem HoldsNotice.notify {k : Nat} {s : State} (h : HoldsNotice n a k s) {m : Notice} (hm : m.lasting = false) (b : Nat)
    (hk : k + oneAt b a ≤ 32) : HoldsNotice n a (k + oneAt b a) (s.notify b m) := by
  obtain ⟨hr, c, hc, hmem, hl⟩ := h
  refine ⟨modConsole_rising hr b _, ?_⟩
  rw [State.notify, lookup_modConsole]
  unfold oneAt at hk ⊢
  by_cases hb : b = a
  · subst hb
    rw [if_pos rfl] at hk
    obtain ⟨hmem', hl'⟩ := take_keeps (Notice.sameKey_of_lasting hn hm) hmem (show c.notices.length < 32 by omega)
    rw [if_pos rfl, if_pos rfl, hc]
    exact ⟨c.take m, rfl, hmem', by omega⟩
  · rw [if_neg (Ne.symm hb)]
    exact ⟨c, hc, hmem, by omega⟩

omit hn in
/-- A notice outlasts a fold whose steps it outlasts, each at its cost. -/
theorem HoldsNotice.foldl {α : Type} {f : State → α → State} {cost : α → Nat}
    (hf : ∀ s x k, k + cost x ≤ 32 → HoldsNotice n a k s → HoldsNotice n a (k + cost x) (f s x)) (l : List α) {s : State}
    {k : Nat} (hk : k + (l.map cost).sum ≤ 32) (h : HoldsNotice n a k s) :
    HoldsNotice n a (k + (l.map cost).sum) (l.foldl f s) := by
  induction l generalizing s k with
  | nil => exact h
  | cons x l ih =>
    rw [List.map_cons, List.sum_cons, ← Nat.add_assoc] at hk ⊢
    exact ih hk (hf s x k (by omega) h)

omit hn in
theorem sum_oneAt_le {l : List Nat} (h : l.Nodup) : (l.map fun b => oneAt b a).sum ≤ 1 := by
  have hs : (l.map fun b => oneAt b a).sum = l.count a := by
    unfold oneAt
    induction l with
    | nil => rfl
    | cons b l ih =>
      rw [List.map_cons, List.sum_cons, ih (List.nodup_cons.1 h).2, List.count_cons, Nat.add_comm]
      simp
  rw [hs]
  exact List.nodup_iff_count_le_one.1 h a

omit hn in
/-- A step taken once for each console address of a list without duplicates costs one place. -/
theorem HoldsNotice.foldl_addresses {f : State → Nat → State}
    (hf : ∀ s b k, k + oneAt b a ≤ 32 → HoldsNotice n a k s → HoldsNotice n a (k + oneAt b a) (f s b)) {l : List Nat}
    (hl : l.Nodup) {s : State} {k : Nat} (hk : k + 1 ≤ 32) (h : HoldsNotice n a k s) :
    HoldsNotice n a (k + 1) (l.foldl f s) := by
  have hsum := sum_oneAt_le (a := a) hl
  exact (HoldsNotice.foldl hf l (by omega) h).mono (by omega)

theorem HoldsNotice.notifyArea {k : Nat} {s : State} (h : HoldsNotice n a k s) (hk : k + 1 ≤ 32) (b : Nat) {m : Notice}
    (hm : m.lasting = false) : HoldsNotice n a (k + 1) (s.notifyArea b m) :=
  HoldsNotice.foldl_addresses (fun _ x _ hk h => h.notify hn hm x hk) (keys_nodup h.1 _) hk h

theorem HoldsNotice.setHorn {k : Nat} {s : State} (h : HoldsNotice n a k s) (b : Nat) (x : Horn)
    (hk : k + oneAt b a ≤ 32) : HoldsNotice n a (k + oneAt b a) (s.setHorn b x) := by
  unfold State.setHorn
  split
  · split
    · exact h.mono (Nat.le_add_right ..)
    · exact (h.modConsole b (f := fun c => { c with horn := x }) fun _ => rfl).notify hn (m := .horn x) rfl b hk
  · exact h.mono (Nat.le_add_right ..)

theorem HoldsNotice.hornStep {k : Nat} {s : State} (h : HoldsNotice n a k s) (b : State) (cs : List SlotChange) (x : Nat)
    (hk : k + oneAt x a ≤ 32) : HoldsNotice n a (k + oneAt x a) (hornStep b cs s x) := by
  unfold Machine.hornStep State.hornStep2
  split
  · split
    · exact h.setHorn hn _ _ hk
    · split
      · split
        · exact h.setHorn hn _ _ hk
        · exact h.mono (Nat.le_add_right ..)
      · exact h.mono (Nat.le_add_right ..)
  · exact h.mono (Nat.le_add_right ..)

theorem HoldsNotice.evaluateHorns {k : Nat} {s : State} (h : HoldsNotice n a k s) (hk : k + 1 ≤ 32) (b : State)
    (cs : List SlotChange) : HoldsNotice n a (k + 1) (evaluateHorns b cs s) :=
  HoldsNotice.foldl_addresses (fun _ x _ hk h => h.hornStep hn b cs x hk) (keys_nodup h.1 _) hk h

theorem HoldsNotice.reviewRecord {k : Nat} {t : State} (h : HoldsNotice n a k t) (hk : k + 1 ≤ 32) (s : State)
    (cs : List SlotChange) (xs : List ShelfEvent) (g : Handover) :
    HoldsNotice n a (k + 1) (reviewRecord s cs xs t g) := by
  unfold Machine.reviewRecord
  dsimp only
  split
  · have hone : oneAt (reviewEvent s cs xs g).1.inConsole a ≤ 1 := by unfold oneAt; split <;> omega
    have hset : HoldsNotice n a k (t.setRecord (reviewEvent s cs xs g).1) := h.congr rfl
    exact (hset.notify hn (by rfl) _ (by omega)).mono (by omega)
  · exact HoldsNotice.mono (h.congr rfl) (Nat.le_succ k)

theorem HoldsNotice.engineEvent {k : Nat} {s : State} (h : HoldsNotice n a k s) (hk : k + s.records.length ≤ 32)
    (cs : List SlotChange) (xs : List ShelfEvent) : HoldsNotice n a (k + s.records.length) (engineEvent cs xs s) := by
  have hsum : (s.records.map fun _ => 1).sum = s.records.length := by simp
  rw [← hsum] at hk ⊢
  rw [engineEvent_eq]
  exact HoldsNotice.foldl (fun _ x _ hk h => h.reviewRecord hn hk s cs xs x) s.records hk h

theorem HoldsNotice.queueNewAlarms {k j : Nat} {s : State} (h : HoldsNotice n a k s) {cs : List SlotChange}
    (hj : (namedAreas cs).length ≤ j) (hk : k + j ≤ 32) : HoldsNotice n a (k + j) (queueNewAlarms cs s) := by
  have hsum : ((namedAreas cs).map fun _ => 1).sum = (namedAreas cs).length := by simp
  refine HoldsNotice.mono (j := k + (namedAreas cs).length) ?_ (by omega)
  rw [← hsum]
  refine HoldsNotice.foldl (fun t x k hk h => ?_) (namedAreas cs) (by omega) h
  split
  · exact h.mono (Nat.le_succ k)
  · exact h.notifyArea hn hk x (by rfl)

/-- Handing on costs a NOTE HANDOVER of each record, a NEW_ALARM of each named area and a NOTE HORN at most. -/
theorem HoldsNotice.handOn {k j : Nat} {e : Ev} (h : HoldsNotice n a k e.s) (hj : (namedAreas e.changes).length ≤ j)
    (hk : k + e.s.records.length + j + 1 ≤ 32) (b : State) (xs : List ShelfEvent) :
    HoldsNotice n a (k + e.s.records.length + j + 1) (handOn b e xs) := by
  have hadv : HoldsNotice n a k (advanceGenerations (namedAreas e.changes) e.s) :=
    h.congr (by rw [advanceGenerations_frame])
  have hrec : (advanceGenerations (namedAreas e.changes) e.s).records = e.s.records := by rw [advanceGenerations_frame]
  have hengine := hadv.engineEvent hn (by rw [hrec]; omega) e.changes xs
  rw [hrec] at hengine
  unfold Machine.handOn
  dsimp only
  split
  · exact hengine.mono (by omega)
  · exact (hengine.queueNewAlarms hn hj (by omega)).evaluateHorns hn hk b e.changes

end

/-! ## A notice for every ATTACHED console (R100) -/

theorem notify_consoles_congr {s t : State} (h : t.consoles = s.consoles) (a : Nat) (n : Notice) :
    (t.notify a n).consoles = (s.notify a n).consoles := by
  unfold State.notify State.modConsole
  rw [h]
  cases lookup s.consoles a <;> simp [h]

theorem notifyEach_consoles_congr {s t : State} (h : t.consoles = s.consoles) (l : List Nat) (n : Notice) :
    (t.notifyEach l n).consoles = (s.notifyEach l n).consoles := by
  induction l generalizing s t with
  | nil => exact h
  | cons a l ih => exact ih (notify_consoles_congr h a n)

theorem notifyAll_consoles_congr {s t : State} (h : t.consoles = s.consoles) (n : Notice) :
    (t.notifyAll n).consoles = (s.notifyAll n).consoles := by
  unfold State.notifyAll State.attachedConsoles
  rw [h]
  exact notifyEach_consoles_congr h _ n

theorem notifyAll_consolesKept (s : State) (n : Notice) : ConsolesKept s (s.notifyAll n) :=
  .foldl (fun s a => notify_consolesKept s a n) _ s

theorem notifyEach_rising {s : State} (h : risingKeys s.consoles = true) (n : Notice) (l : List Nat) :
    risingKeys (s.notifyEach l n).consoles = true := by
  unfold State.notifyEach
  induction l generalizing s with
  | nil => exact h
  | cons b l ih => exact ih (modConsole_rising h b _)

theorem lookup_notifyAll {s : State} (h : risingKeys s.consoles = true) (n : Notice) (a : Nat) :
    lookup (s.notifyAll n).consoles a = (lookup s.consoles a).map (·.take n) := by
  unfold State.notifyAll
  rw [lookup_notifyEach (l := s.attachedConsoles) (keys_nodup h _)]
  split
  · rfl
  · next hna =>
    cases hc : lookup s.consoles a with
    | none => rfl
    | some c =>
      have hc' : c.attached = false := Bool.eq_false_iff.2 fun ha =>
        hna (List.mem_map.2 ⟨(a, c), List.mem_filter.2 ⟨mem_of_lookup hc, ha⟩, rfl⟩)
      simp [Console.take, hc']

/-- An ATTACHED console with room holds the notice. -/
theorem notifyAll_holds {s : State} {a : Nat} {c : Console} (h : risingKeys s.consoles = true) (n : Notice)
    (hc : lookup s.consoles a = some c) (ha : c.attached = true) (hroom : c.notices.length < 32) :
    HoldsNotice n a (c.notices.length + 1) (s.notifyAll n) := by
  obtain ⟨hmem, hlen⟩ := take_mem ha hroom n
  exact ⟨notifyEach_rising h n _, c.take n, by rw [lookup_notifyAll h, hc]; rfl, hmem, hlen⟩

theorem pointArea_mem (s : State) (p : Nat) : (s.pointDef p).area ∈ s.pointAreas := by
  unfold State.pointDef State.pointAreas
  rw [mem_ascending]
  cases h : lookup s.tables.points p with
  | none => exact List.mem_cons_self
  | some d => exact List.mem_cons_of_mem _ (List.mem_map.2 ⟨(p, d), mem_of_lookup h, rfl⟩)

/-- Slot changes of points name no more areas than there are. -/
theorem namedAreas_length_le {s : State} {cs : List SlotChange} (h : ∀ c ∈ cs, c.area ∈ s.pointAreas) :
    (namedAreas cs).length ≤ s.pointAreas.length := by
  refine ((ascending_nodup _).subperm fun b hb => ?_).length_le
  obtain ⟨c, hc, rfl⟩ := List.mem_map.1 (mem_ascending.1 hb)
  exact h c hc

/-- An event that tells every ATTACHED console, and then hands on slot changes of points, leaves the notice with each
(R99 to R101). -/
theorem told_of_handOn {n : Notice} (hn : n.lasting = true) {s : State} {e : Ev}
    (hc : e.s.consoles = (s.notifyAll n).consoles) (hr : e.s.records = s.records)
    (hnames : ∀ c ∈ e.changes, c.area ∈ s.pointAreas) (b : State) (xs : List ShelfEvent) :
    Told n (fun _ => True) s (handOn b e xs) := by
  intro hrise a c hl ha _ hroom
  have hheld : HoldsNotice n a (c.notices.length + 1) e.s := (notifyAll_holds hrise n hl ha (by omega)).congr hc
  obtain ⟨-, k, hk, hmem, -⟩ := hheld.handOn hn (namedAreas_length_le hnames) (by rw [hr]; omega) b xs
  exact ⟨k, hk, hmem⟩

end Sys2Proof.Machine

namespace Sys2Proof.Machine

/-! ## Overlays slot by slot (R14) -/

/-- The slot change of an overlay that `f` sets or clears in slot `x`. -/
def overlayChange (s : State) (f : Slot → Slot) (x : Nat × Slot) : SlotChange :=
  { kind := .overlay, point := x.2.point, area := (s.pointDef x.2.point).area, slot := some x.1
    oldState := some x.2.state, newState := some (f x.2).state, oldOcc := some x.2.occ, newOcc := some (f x.2).occ }

/-- The slots of `l` written into a table, each through `f`. -/
def rewriteSlots (f : Slot → Slot) (l t : List (Nat × Slot)) : List (Nat × Slot) :=
  l.foldl (fun acc x => insertAt acc x.1 (f x.2)) t

theorem overlayEach_eq (q : Slot → Bool) (f : Slot → Slot) (e : Ev) :
    overlayEach q f e =
      { s := { e.s with slots := rewriteSlots f (e.s.slots.filter fun x => q x.2) e.s.slots }
        changes := e.changes ++ (e.s.slots.filter fun x => q x.2).map (overlayChange e.s f) } := by
  have hfold : ∀ (l : List (Nat × Slot)) (e : Ev),
      l.foldl (fun acc x => moveSlot x.1 x.2 (f x.2) .overlay none acc) e =
        { s := { e.s with slots := rewriteSlots f l e.s.slots }, changes := e.changes ++ l.map (overlayChange e.s f) } := by
    intro l
    induction l with
    | nil => intro e; simp [rewriteSlots]
    | cons x l ih =>
      intro e
      rw [List.foldl_cons, ih, List.map_cons, List.append_cons]
      rfl
  exact hfold _ e

/-- A slot of the table written is one of `l` through `f`, or stands outside of `l` as before. -/
theorem lookup_rewriteSlots {f : Slot → Slot} {l t : List (Nat × Slot)} {i : Nat} {y : Slot}
    (h : lookup (rewriteSlots f l t) i = some y) :
    (∃ x, (i, x) ∈ l ∧ y = f x) ∨ (lookup t i = some y ∧ ∀ x, (i, x) ∉ l) := by
  unfold rewriteSlots at h
  induction l generalizing t with
  | nil => exact .inr ⟨h, fun _ => List.not_mem_nil⟩
  | cons e l ih =>
    rw [List.foldl_cons] at h
    rcases ih h with ⟨x, hx, hy⟩ | ⟨hl, hne⟩
    · exact .inl ⟨x, List.mem_cons_of_mem _ hx, hy⟩
    · rw [lookup_insertAt] at hl
      split at hl
      · next hi =>
        rw [hi]
        exact .inl ⟨e.2, List.mem_cons_self, (Option.some.inj hl).symm⟩
      · next hi =>
        refine .inr ⟨hl, fun x hx => ?_⟩
        rcases List.mem_cons.1 hx with rfl | hx
        · exact hi rfl
        · exact hne x hx

/-- After an overlay a slot carries it, or stands as before outside of those picked. -/
theorem lookup_overlayEach {q : Slot → Bool} {f : Slot → Slot} {e : Ev} {i : Nat} {y : Slot}
    (h : lookup (overlayEach q f e).s.slots i = some y) :
    (∃ x, q x = true ∧ y = f x) ∨ (lookup e.s.slots i = some y ∧ q y = false) := by
  rw [overlayEach_eq] at h
  rcases lookup_rewriteSlots h with ⟨x, hx, hy⟩ | ⟨hl, hne⟩
  · exact .inl ⟨x, (List.mem_filter.1 hx).2, hy⟩
  · exact .inr ⟨hl, Bool.eq_false_iff.2 fun hq => hne y (List.mem_filter.2 ⟨mem_of_lookup hl, hq⟩)⟩

/-! ## Commands that end (R153, R156) -/

/-- Nothing but the commands, the ports and the flags has changed; no flag is cleared, and nothing joins OWN of a plant
port without room. -/
structure GateStep (s t : State) : Prop where
  frame : t = { s with
    commands := t.commands, plant := t.plant, console := t.console, latched := t.latched, statSeq := t.statSeq
    statSent := t.statSent }
  latched : ∀ x, s.isLatched x = true → t.isLatched x = true
  plant : s.plant.ownRoom = false → t.plant = s.plant

theorem GateStep.refl (s : State) : GateStep s s := ⟨rfl, fun _ h => h, fun _ => rfl⟩

theorem GateStep.trans {s t u : State} (h : GateStep s t) (k : GateStep t u) : GateStep s u where
  frame := by rw [k.frame, h.frame]
  latched x hx := k.latched x (h.latched x hx)
  plant hr := by
    have hp := h.plant hr
    exact (k.plant (by rw [hp]; exact hr)).trans hp

section
variable {s t : State} (h : GateStep s t)
include h

theorem GateStep.slots : t.slots = s.slots := by rw [h.frame]
theorem GateStep.consoles : t.consoles = s.consoles := by rw [h.frame]
theorem GateStep.controllers : t.controllers = s.controllers := by rw [h.frame]

end

theorem GateStep.foldl {α : Type} {f : State → α → State} (h : ∀ s a, GateStep s (f s a)) (l : List α) (s : State) :
    GateStep s (l.foldl f s) := by
  induction l generalizing s with
  | nil => exact .refl s
  | cons a l ih => exact (h s a).trans (ih _)

theorem latch_gateStep (s : State) (f : StatusFlag) : GateStep s (s.latch f) :=
  ⟨by rw [latch_frame], fun x => latch_keeps s f x, latch_plant_noRoom s f⟩

theorem sendEntry_gateStep (s : State) (p : PortId) (e : OwnEntry) : GateStep s (s.sendEntry p e) := by
  refine ⟨by rw [sendEntry_frame], fun x hx => ?_, fun hr => ?_⟩
  · unfold State.sendEntry
    split
    · cases p <;> exact hx
    · exact latch_keeps _ _ _ hx
  · cases p with
    | plant => rw [sendEntry_plant_plant, joinOwn_noRoom _ _ hr]
    | console =>
      unfold State.sendEntry
      split
      · rfl
      · exact latch_plant_noRoom _ _ hr

theorem endCommand_gateStep (r : Result) (detail : List Byte) (s : State) (c : Command) :
    GateStep s (endCommand r detail s c) := by
  have h : GateStep s { s with commands := s.commands.filter fun x => !(x.tag == c.tag) } :=
    ⟨rfl, fun _ h => h, fun _ => rfl⟩
  unfold endCommand
  dsimp only
  split
  · exact h.trans (sendEntry_gateStep ..)
  · exact h

theorem endCommandsTo_gateStep (a : Nat) (s : State) : GateStep s (endCommandsTo a s) :=
  .foldl (endCommand_gateStep .linkLost []) _ s

theorem endCommand_commands (r : Result) (detail : List Byte) (s : State) (c : Command) :
    (endCommand r detail s c).commands = s.commands.filter fun x => !(x.tag == c.tag) := by
  unfold endCommand
  dsimp only
  split
  · exact State.respond_commands ..
  · rfl

/-- No command to the controller is left, and the others that are left were there before (R156). -/
theorem mem_endCommandsTo {a : Nat} {s : State} {c : Command} (h : c ∈ (endCommandsTo a s).commands) :
    c ∈ s.commands ∧ c.controller ≠ a := by
  have hfold : ∀ (l : List Command) (s : State), c ∈ (l.foldl (endCommand .linkLost []) s).commands →
      c ∈ s.commands ∧ c ∉ l := by
    intro l
    induction l with
    | nil => exact fun s h => ⟨h, List.not_mem_nil⟩
    | cons x l ih =>
      intro s h
      obtain ⟨hm, hl⟩ := ih _ h
      rw [endCommand_commands, List.mem_filter] at hm
      refine ⟨hm.1, fun hc => ?_⟩
      rcases List.mem_cons.1 hc with rfl | hc
      · simp at hm
      · exact hl hc
  obtain ⟨hm, hl⟩ := hfold _ s h
  exact ⟨hm, fun ha => hl (List.mem_filter.2 ⟨hm, by simp [ha]⟩)⟩

/-! ## A controller that becomes STALE (R33) -/

/-- The LIVE controller at `a` has become STALE, on an event in progress. -/
structure StaleStep (a : Nat) (e e' : Ev) : Prop where
  controllers : e'.s.controllers = (e.s.modController a Controller.stale).controllers
  slots : ∀ i y, lookup e'.s.slots i = some y →
    y.stale = true ∨ (lookup e.s.slots i = some y ∧ (e.s.pointDef y.point).controller ≠ a)
  commands : ∀ c ∈ e'.s.commands, c ∈ e.s.commands ∧ c.controller ≠ a
  consoles : e'.s.consoles = (e.s.notifyAll (.stale a true)).consoles
  frame : e'.s = { e.s with
    slots := e'.s.slots, consoles := e'.s.consoles, controllers := e'.s.controllers, commands := e'.s.commands
    plant := e'.s.plant, console := e'.s.console, latched := e'.s.latched, statSeq := e'.s.statSeq
    statSent := e'.s.statSent }
  staleAny : e'.s.isLatched .staleAny = true
  latched : ∀ x, e.s.isLatched x = true → e'.s.isLatched x = true
  plant : e.s.plant.ownRoom = false → e'.s.plant = e.s.plant
  names : (∀ c ∈ e.changes, c.area ∈ e.s.pointAreas) → ∀ c ∈ e'.changes, c.area ∈ e.s.pointAreas

/-- The slots of the points of controller `a` that take STALE in state `s`. -/
def takesStale (a : Nat) (s : State) (sl : Slot) : Bool := (s.pointDef sl.point).controller == a && !sl.stale

/-- A slot with STALE. -/
def Slot.withStale (sl : Slot) : Slot := { sl with stale := true }

/-- The state of `staleEv` after the controller and the slots have become STALE. -/
def staleSlots (a : Nat) (e : Ev) : Ev :=
  overlayEach (takesStale a e.s) Slot.withStale { e with s := e.s.modController a Controller.stale }

theorem staleEv_eq (a : Nat) (e : Ev) :
    staleEv a e = { staleSlots a e with
      s := ((endCommandsTo a (staleSlots a e).s).notifyAll (.stale a true)).latch .staleAny } := rfl

theorem staleSlots_s (a : Nat) (e : Ev) :
    (staleSlots a e).s = { e.s.modController a Controller.stale with slots := (staleSlots a e).s.slots } := by
  unfold staleSlots
  rw [overlayEach_eq]

theorem staleSlots_names {a : Nat} {e : Ev} (h : ∀ c ∈ e.changes, c.area ∈ e.s.pointAreas) :
    ∀ c ∈ (staleSlots a e).changes, c.area ∈ e.s.pointAreas := by
  unfold staleSlots
  rw [overlayEach_eq]
  intro c hc
  rcases List.mem_append.1 hc with hc | hc
  · exact h c hc
  · obtain ⟨x, -, rfl⟩ := List.mem_map.1 hc
    rw [show (overlayChange _ _ x).area = (e.s.pointDef x.2.point).area from
      congrArg PointDef.area (pointDef_congr (by simp) _)]
    exact pointArea_mem _ _

theorem staleEv_frame (a : Nat) (e : Ev) :
    (staleEv a e).s = { e.s with
      slots := (staleEv a e).s.slots, consoles := (staleEv a e).s.consoles, controllers := (staleEv a e).s.controllers
      commands := (staleEv a e).s.commands, plant := (staleEv a e).s.plant, console := (staleEv a e).s.console
      latched := (staleEv a e).s.latched, statSeq := (staleEv a e).s.statSeq, statSent := (staleEv a e).s.statSent } := by
  have hm : e.s.modController a Controller.stale =
      { e.s with controllers := (e.s.modController a Controller.stale).controllers } := by
    unfold State.modController
    split <;> rfl
  rw [staleEv_eq, latch_frame, State.notifyAll, notifyEach_frame, (endCommandsTo_gateStep a _).frame, staleSlots_s, hm]

theorem staleEv_staleStep (a : Nat) (e : Ev) : StaleStep a e (staleEv a e) := by
  have hs := staleSlots_s a e
  have hg := endCommandsTo_gateStep a (staleSlots a e).s
  have hl := latch_gateStep ((endCommandsTo a (staleSlots a e).s).notifyAll (.stale a true)) .staleAny
  have hplant : (staleSlots a e).s.plant = e.s.plant := by rw [hs]; exact State.modController_plant ..
  constructor
  case controllers =>
    rw [staleEv_eq, State.latch_controllers, State.notifyAll_controllers, hg.controllers, hs]
  case slots =>
    intro i y hy
    rw [staleEv_eq, State.latch_slots, State.notifyAll_slots, hg.slots] at hy
    rcases lookup_overlayEach hy with ⟨x, -, rfl⟩ | ⟨hy, hq⟩
    · exact .inl rfl
    · refine or_iff_not_imp_left.2 fun hstale => ⟨by simpa using hy, fun hc => ?_⟩
      simp [takesStale, hc, hstale] at hq
  case commands =>
    intro c hc
    rw [staleEv_eq, State.latch_commands, State.notifyAll_commands] at hc
    obtain ⟨hm, hne⟩ := mem_endCommandsTo hc
    rw [hs] at hm
    exact ⟨by simpa using hm, hne⟩
  case consoles =>
    rw [staleEv_eq, State.latch_consoles]
    refine notifyAll_consoles_congr ?_ _
    rw [hg.consoles, hs]
    exact State.modController_consoles ..
  case frame => exact staleEv_frame a e
  case staleAny => exact latch_isLatched ..
  case latched =>
    intro x hx
    refine hl.latched x ?_
    rw [isLatched_congr (State.notifyAll_latched ..)]
    refine hg.latched x ?_
    rwa [isLatched_congr (s := e.s) (by rw [hs]; exact State.modController_latched ..)]
  case plant =>
    intro hr
    have hn : ((endCommandsTo a (staleSlots a e).s).notifyAll (.stale a true)).plant = e.s.plant := by
      rw [State.notifyAll_plant, hg.plant (by rw [hplant]; exact hr), hplant]
    exact (hl.plant (by rw [hn]; exact hr)).trans hn
  case names => exact fun h => staleSlots_names h

end Sys2Proof.Machine

namespace Sys2Proof.Machine

/-! ## STALE as an event of its own (R31, R33) -/

section
variable (a : Nat) (s : State)

theorem becomeStale_controllers : (becomeStale a s).controllers = (s.modController a Controller.stale).controllers :=
  (handOn_controllers ..).trans (staleEv_staleStep a { s := s }).controllers

theorem becomeStale_slots {i : Nat} {y : Slot} (h : lookup (becomeStale a s).slots i = some y)
    (hc : (s.pointDef y.point).controller = a) : y.stale = true := by
  rw [becomeStale, handOn_slots] at h
  exact ((staleEv_staleStep a { s := s }).slots i y h).resolve_right fun hn => hn.2 hc

theorem becomeStale_commands {c : Command} (h : c ∈ (becomeStale a s).commands) : c ∈ s.commands ∧ c.controller ≠ a := by
  rw [becomeStale, handOn_commands] at h
  exact (staleEv_staleStep a { s := s }).commands c h

theorem becomeStale_staleAny : (becomeStale a s).isLatched .staleAny = true :=
  (isLatched_congr (handOn_latched ..) _).trans (staleEv_staleStep a { s := s }).staleAny

theorem becomeStale_consolesKept : ConsolesKept s (becomeStale a s) :=
  ((notifyAll_consolesKept s _).trans (.of_eq (staleEv_staleStep a { s := s }).consoles)).trans
    (handOn_consolesKept s (staleEv a { s := s }) [])

theorem becomeStale_told : Told (.stale a true) (fun _ => True) s (becomeStale a s) :=
  told_of_handOn rfl (staleEv_staleStep a { s := s }).consoles (by rw [(staleEv_staleStep a { s := s }).frame])
    ((staleEv_staleStep a { s := s }).names fun _ hc => absurd hc List.not_mem_nil) s []

theorem becomeStale_owed : (becomeStale a s).owed = s.owed := by
  rw [becomeStale, handOn_owed, (staleEv_staleStep a { s := s }).frame]

variable {s}

theorem becomeStale_frame (h : s.request = none) :
    AlarmEventFrame { s with controllers := (becomeStale a s).controllers, commands := (becomeStale a s).commands }
      (becomeStale a s) := by
  have hf := (staleEv_staleStep a { s := s }).frame
  have hr : (staleEv a { s := s }).s.request = none := by rw [hf]; exact h
  have hk := kept_handOn (b := s) (xs := []) hr
  refine alarmEventFrame_iff.2 (hk.trans ?_)
  rw [becomeStale, handOn_controllers, handOn_commands, hf]
  rfl

end

/-! ## What expires is taken by its own command (R161) -/

theorem takeOwed_of_expiring {x : TickItem} {s : State} (h : x ∈ s.owed) (he : expires x s = true) :
    takeOwed x s = tickWork x (s.dropOwed x) := by
  unfold takeOwed
  rw [if_pos]
  simp [h, he]

/-- The state in which an owed piece of tick work is taken. -/
def State.takingOwed (s : State) (x : TickItem) : State :=
  { s with owed := s.owed.filter fun y => !(y == x), statSent := false }

theorem takingOwed_eq {s : State} (h : s.settled = true) (x : TickItem) :
    ((enter s).dropOwed x).beginEvent = s.takingOwed x := by
  rw [enter_of_settled h]
  rfl

/-- CONTROLLER_SILENCE_EXPIRY at the third tick without a telegram (R31). -/
theorem exec_controllerSilenceExpiry {a : Nat} {c : Controller} {s : State} (hs : s.settled = true)
    (ho : TickItem.controllerSilence a ∈ s.owed) (hc : lookup s.controllers a = some c) (hlive : c.live = true)
    (h2 : 2 ≤ c.silence) :
    exec (.controllerSilenceExpiry a) s = .next (becomeStale a (s.takingOwed (.controllerSilence a))) := by
  have hlimit : Config.stationLiveLimit ≤ c.silence + 1 := Nat.succ_le_succ h2
  have hexp : expires (.controllerSilence a) (enter s) = true := by
    rw [enter_of_settled hs]
    simp [expires, hc, hlive, hlimit]
  refine congrArg Host.Outcome.next ?_
  rw [takeOwed_of_expiring (by rw [enter_of_settled hs]; exact ho) hexp]
  unfold tickWork
  dsimp only
  rw [takingOwed_eq hs]
  have hl : lookup (s.takingOwed (.controllerSilence a)).controllers a = some c := hc
  unfold controllerSilenceWork
  rw [hl]
  dsimp only
  rw [if_neg (by simp [hlive]), if_pos hlimit]

theorem exec_resyncWaitExpiry {a : Nat} {c : Controller} {s : State} (hs : s.settled = true)
    (ho : TickItem.resyncWait a ∈ s.owed) (hc : lookup s.controllers a = some c) (hp : c.phase ≠ .idle) (hw : c.wait ≤ 1) :
    exec (.resyncWaitExpiry a) s = .next (resyncExpired a (s.takingOwed (.resyncWait a))) := by
  have hexp : expires (.resyncWait a) (enter s) = true := by
    rw [enter_of_settled hs]
    simp [expires, hc, hp, hw]
  refine congrArg Host.Outcome.next ?_
  rw [takeOwed_of_expiring (by rw [enter_of_settled hs]; exact ho) hexp]
  unfold tickWork
  dsimp only
  rw [takingOwed_eq hs]
  have hl : lookup (s.takingOwed (.resyncWait a)).controllers a = some c := hc
  unfold resyncWaitWork
  rw [hl]
  dsimp only
  rw [if_neg hp, if_pos hw]

/-! ## The wait of a resynchronisation (R35) -/

section
variable {a : Nat} {c : Controller} {s : State} (hc : lookup s.controllers a = some c)
include hc

/-- A repeat, below four requests. -/
theorem resyncExpired_of_repeat (h : c.sent < 4) :
    resyncExpired a s = (s.modController a fun k =>
        { k with
          snapSet := [], snapNumber := (k.snapNumber + 1) % 65536, sent := k.sent + 1, wait := 5
          phase := .requested }).send .plant
      (generated s 0x12#8 a 0 (BitVec.ofNat 16 ((c.snapNumber + 1) % 65536)) 0 []) := by
  unfold resyncExpired
  rw [hc]
  dsimp only
  rw [if_pos (show c.sent < Config.snapshotRetries + 1 from h), sendSreq_modController hc]
  rfl

/-- Failure, at four. -/
theorem resyncExpired_of_failure (h : 4 ≤ c.sent) :
    resyncExpired a s = s.modController a fun k =>
      { k with phase := .idle, sent := 0, wait := 0, snapSet := [], snapFailed := true } := by
  unfold resyncExpired
  rw [hc]
  dsimp only
  rw [if_neg (show ¬ c.sent < Config.snapshotRetries + 1 from by rw [Nat.not_lt]; exact h)]

end

theorem modController_frame (s : State) (a : Nat) (f : Controller → Controller) :
    s.modController a f = { s with controllers := (s.modController a f).controllers } := by
  unfold State.modController
  split <;> rfl

/-- Nothing but the controllers, the plant port and the flags is reached by the end of the wait. -/
theorem resyncExpired_frame (a : Nat) (s : State) :
    resyncExpired a s = { s with
      controllers := (resyncExpired a s).controllers, plant := (resyncExpired a s).plant
      latched := (resyncExpired a s).latched, statSeq := (resyncExpired a s).statSeq
      statSent := (resyncExpired a s).statSent } := by
  cases hc : lookup s.controllers a with
  | none =>
    have he : resyncExpired a s = s := by unfold resyncExpired; rw [hc]
    rw [he]
  | some c =>
    by_cases h : c.sent < 4
    · rw [resyncExpired_of_repeat hc h, State.send]
      refine State.ext ?_ ?_ ?_ ?_ ?_ ?_ ?_ ?_ ?_ ?_ rfl ?_ ?_ ?_ ?_ ?_ rfl ?_ rfl rfl ?_ ?_ ?_ ?_ ?_ rfl ?_ ?_ <;> simp
    · rw [resyncExpired_of_failure hc (by omega), modController_frame]

/-- Settles O27: the silence makes the controller STALE as an event of its own, and the end of the wait is a repeat or a
failure. -/
theorem silentControllerGoesStale : Obligations.SilentControllerGoesStale := by
  refine ⟨fun a c s hs ho hc hlive h2 => ⟨_, exec_controllerSilenceExpiry hs ho hc hlive h2, ?_⟩,
    fun a c s hs ho hc hp hw => ⟨_, exec_resyncWaitExpiry hs ho hc hp hw, ?_⟩⟩
  · have hr : s.request = none := ((settled_iff s).1 hs).1
    have hown (b : Nat) := lookup_modController (s.takingOwed (.controllerSilence a)) a b Controller.stale
    refine ⟨?_, fun b hb => ?_, fun i sl hl => becomeStale_slots a (s.takingOwed _) hl,
      fun x hx => (becomeStale_commands a _ hx).2, becomeStale_staleAny a _, becomeStale_consolesKept a (s.takingOwed _),
      becomeStale_told a (s.takingOwed _), ?_⟩
    · rw [becomeStale_controllers, hown, if_pos rfl, show (s.takingOwed _).controllers = s.controllers from rfl, hc]
      rfl
    · rw [becomeStale_controllers, hown, if_neg hb]
      rfl
    · rw [becomeStale_owed]
      exact becomeStale_frame a (s := s.takingOwed (.controllerSilence a)) hr
  · have hl : lookup (s.takingOwed (.resyncWait a)).controllers a = some c := hc
    have hf := resyncExpired_frame a (s.takingOwed (.resyncWait a))
    have ho : (resyncExpired a (s.takingOwed (.resyncWait a))).owed = (s.takingOwed (.resyncWait a)).owed := by rw [hf]
    refine ⟨fun h4 => ?_, fun h4 => ?_, by rw [ho]; exact hf⟩
    · rw [resyncExpired_of_repeat hl h4, State.send_controllers, lookup_modController, if_pos rfl, hl, send_plant_plant,
        State.modController_plant]
      exact ⟨rfl, rfl⟩
    · rw [resyncExpired_of_failure hl h4, lookup_modController, if_pos rfl, hl, State.modController_plant]
      exact ⟨rfl, rfl⟩

end Sys2Proof.Machine

namespace Sys2Proof.Machine

/-! ## What an event of authority or of a handover leaves as it was -/

/-- Nothing but areas, consoles, records, the retained store, the high mark and owed tick work has changed. -/
abbrev SessionFrame (s t : State) : Prop :=
  t = { s with
    areas := t.areas, consoles := t.consoles, records := t.records, retained := t.retained, time := t.time
    owed := t.owed }

theorem SessionFrame.trans {s t u : State} (h : SessionFrame s t) (k : SessionFrame t u) : SessionFrame s u := by
  unfold SessionFrame at h k ⊢
  rw [k, h]

theorem SessionFrame.of_consoles {s t : State} (h : t = { s with consoles := t.consoles }) : SessionFrame s t := by
  unfold SessionFrame
  rw [h]

/-- Nothing beyond the frame of a session's end has changed, and of the consoles their notices and horns alone. -/
structure AuthorityStep (s t : State) : Prop where
  frame : SessionFrame s t
  consoles : ConsolesKept s t

theorem AuthorityStep.refl (s : State) : AuthorityStep s s := ⟨rfl, .refl s⟩

theorem AuthorityStep.trans {s t u : State} (h : AuthorityStep s t) (k : AuthorityStep t u) : AuthorityStep s u :=
  ⟨h.frame.trans k.frame, h.consoles.trans k.consoles⟩

theorem AuthorityStep.foldl {α : Type} {f : State → α → State} (h : ∀ s a, AuthorityStep s (f s a)) (l : List α)
    (s : State) : AuthorityStep s (l.foldl f s) := by
  induction l generalizing s with
  | nil => exact .refl s
  | cons a l ih => exact (h s a).trans (ih _)

theorem AuthorityStep.ite {s t u : State} {p : Prop} [Decidable p] (h : AuthorityStep s t) (k : AuthorityStep s u) :
    AuthorityStep s (if p then t else u) := by
  split
  · exact h
  · exact k

theorem modArea_authorityStep (s : State) (a : Nat) (f : Area → Area) : AuthorityStep s (s.modArea a f) :=
  ⟨rfl, .of_eq rfl⟩

theorem retainArea_authorityStep (s : State) (a : Nat) : AuthorityStep s (s.retainArea a) := ⟨rfl, .of_eq rfl⟩

theorem writeJournal_authorityStep (s : State) (e : JournalEntry) : AuthorityStep s (s.writeJournal e) :=
  ⟨rfl, .of_eq rfl⟩

theorem dropOwed_authorityStep (s : State) (x : TickItem) : AuthorityStep s (s.dropOwed x) := ⟨rfl, .of_eq rfl⟩

theorem dropRecord_authorityStep (s : State) (n : Nat) : AuthorityStep s (s.dropRecord n) := ⟨rfl, .of_eq rfl⟩

theorem notify_authorityStep (s : State) (a : Nat) (n : Notice) : AuthorityStep s (s.notify a n) :=
  ⟨SessionFrame.of_consoles (notify_frame ..), notify_consolesKept s a n⟩

theorem noteAuthority_authorityStep (s : State) (a : Nat) : AuthorityStep s (s.noteAuthority a) :=
  .foldl (fun s c => notify_authorityStep s c _) _ s

theorem hornStep2_consolesKept (s : State) (a : Nat) : ConsolesKept s (s.hornStep2 a) := by
  unfold State.hornStep2
  split
  · split
    · exact setHorn_consolesKept s a .quiet
    · exact .refl s
  · exact .refl s

theorem hornStep2_authorityStep (s : State) (a : Nat) : AuthorityStep s (s.hornStep2 a) :=
  ⟨SessionFrame.of_consoles (hornStep2_frame ..), hornStep2_consolesKept s a⟩

theorem enterGrace_authorityStep (s : State) (a : Nat) : AuthorityStep s (s.enterGrace a) :=
  ((modArea_authorityStep ..).trans (noteAuthority_authorityStep ..)).trans (dropOwed_authorityStep ..)

theorem orphanArea_authorityStep (s : State) (a : Nat) : AuthorityStep s (s.orphanArea a) :=
  (modArea_authorityStep ..).trans (noteAuthority_authorityStep ..)

theorem graceSeat_authorityStep (s : State) (h : Holder) : AuthorityStep s (s.graceSeat h) :=
  .foldl (fun s a => .ite (enterGrace_authorityStep s a) (.refl s)) _ s

theorem orphanOperator_authorityStep (s : State) (op : Nat) : AuthorityStep s (s.orphanOperator op) := by
  unfold State.orphanOperator
  dsimp only
  have h (l : List Nat) : AuthorityStep s (l.foldl State.orphanArea s) := .foldl orphanArea_authorityStep l s
  exact .ite (h _) ((h _).trans (writeJournal_authorityStep ..))

theorem closeAreas_authorityStep (s : State) (l : List Nat) : AuthorityStep s (s.closeAreas l) :=
  .foldl (fun s a => modArea_authorityStep s a _) l s

theorem noteParties_authorityStep (s : State) (h : Handover) (st : HandoverState) (r : Option AbortReason) :
    AuthorityStep s (s.noteParties h st r) :=
  .ite (notify_authorityStep ..) ((notify_authorityStep s _ _).trans (notify_authorityStep ..))

theorem abort_authorityStep (s : State) (h : Handover) (r : AbortReason) : AuthorityStep s (s.abort h r) :=
  (((closeAreas_authorityStep ..).trans (dropRecord_authorityStep ..)).trans (writeJournal_authorityStep ..)).trans
    (noteParties_authorityStep ..)

theorem abortIncoming_authorityStep (s : State) (op : Nat) : AuthorityStep s (s.abortIncoming op) :=
  .foldl (fun s h => .ite (abort_authorityStep s h _) (.refl s)) _ s

theorem abortRemoved_authorityStep (s : State) (op : Nat) : AuthorityStep s (s.abortRemoved op) :=
  .foldl (fun s h => .ite (abort_authorityStep s h _) (.ite (abort_authorityStep s h _) (.refl s))) _ s

theorem endAuthority_authorityStep (a n op : Nat) (cause : EndCause) (s : State) :
    AuthorityStep s (endAuthority a n op cause s) := by
  cases cause with
  | detach | rehello | removed => exact graceSeat_authorityStep ..
  | roster => exact orphanOperator_authorityStep ..
  | logout | move => exact .refl s

theorem endHandovers_authorityStep (op : Nat) (cause : EndCause) (s : State) :
    AuthorityStep s (endHandovers op cause s) := by
  cases cause with
  | roster => exact abortRemoved_authorityStep ..
  | _ => exact abortIncoming_authorityStep ..

/-! ## The end of a session (R85) -/

/-- A console whose seat `n` has become EMPTY, with its transfer from that seat. -/
def Console.vacated (n : Nat) (c : Console) : Console :=
  if (c.setSeat n none).transfer.any fun t => t.seat == n then { c.setSeat n none with transfer := none }
  else c.setSeat n none

theorem endSession_of_empty {a n : Nat} {s : State} (h : (lookup s.consoles a).bind (·.seatOp n) = none)
    (cause : EndCause) : endSession a n cause s = s := by
  unfold endSession
  rw [h]

theorem endSession_of_seated {a n op : Nat} {s : State} (h : (lookup s.consoles a).bind (·.seatOp n) = some op)
    (cause : EndCause) : endSession a n cause s =
      (endHandovers op cause (endAuthority a n op cause (s.modConsole a (Console.vacated n)))).hornStep2 a := by
  unfold endSession
  rw [h]
  dsimp only
  rw [modConsole_modConsole]
  rfl

/-- A session's end reaches nothing beyond authority and handovers, once its seat has been left. -/
theorem endSession_authorityStep {a n op : Nat} {s : State} (h : (lookup s.consoles a).bind (·.seatOp n) = some op)
    (cause : EndCause) : AuthorityStep (s.modConsole a (Console.vacated n)) (endSession a n cause s) := by
  rw [endSession_of_seated h]
  exact ((endAuthority_authorityStep ..).trans (endHandovers_authorityStep ..)).trans (hornStep2_authorityStep ..)

theorem endSession_frame (a n : Nat) (cause : EndCause) (s : State) : SessionFrame s (endSession a n cause s) := by
  cases h : (lookup s.consoles a).bind (·.seatOp n) with
  | none =>
    rw [endSession_of_empty h]
  | some op => exact (SessionFrame.of_consoles (modConsole_frame ..)).trans (endSession_authorityStep h cause).frame

theorem detachConsole_frame (cause : EndCause) (a : Nat) (s : State) : SessionFrame s (detachConsole cause a s) := by
  unfold detachConsole
  split
  · split
    · exact ((endSession_frame ..).trans (endSession_frame ..)).trans (.of_consoles (modConsole_frame ..))
    · rfl
  · rfl

theorem vacated_eq (n : Nat) (c : Console) :
    c.vacated n = { c.setSeat n none with transfer := (c.vacated n).transfer } := by
  unfold Console.vacated
  split <;> rfl

theorem setSeat_cls (c : Console) (n : Nat) (o : Option Nat) : (c.setSeat n o).cls = c.cls := by
  unfold Console.setSeat
  split
  · rfl
  · split <;> rfl

theorem vacated_cls (n : Nat) (c : Console) : (c.vacated n).cls = c.cls := by
  rw [vacated_eq]
  exact setSeat_cls c n none

theorem ConsolesKept.cls {s t : State} (h : ConsolesKept s t) (a : Nat) :
    (lookup t.consoles a).map Console.cls = (lookup s.consoles a).map Console.cls := by
  have hb := congrArg (Option.map Console.cls) (h a)
  simpa [Function.comp_def, Console.bare] using hb

/-- No session's end attaches or detaches a console. -/
theorem endSession_cls (a n b : Nat) (cause : EndCause) (s : State) :
    (lookup (endSession a n cause s).consoles b).map Console.cls = (lookup s.consoles b).map Console.cls := by
  cases h : (lookup s.consoles a).bind (·.seatOp n) with
  | none => rw [endSession_of_empty h]
  | some op =>
    rw [(endSession_authorityStep h cause).consoles.cls, lookup_modConsole]
    split
    · next hb => subst hb; cases lookup s.consoles b <;> simp [vacated_cls]
    · rfl

/-- A console is ATTACHED after a detach of the console at `a` only where it was before, and is another. -/
theorem attached_of_detachConsole {cause : EndCause} {a b : Nat} {s : State} {c : Console}
    (h : lookup (detachConsole cause a s).consoles b = some c) (hc : c.attached = true) :
    b ≠ a ∧ ∃ k, lookup s.consoles b = some k ∧ k.attached = true := by
  unfold detachConsole at h
  split at h
  · next k hk =>
    split at h
    · rw [lookup_modConsole] at h
      split at h
      · obtain ⟨d, -, rfl⟩ := Option.map_eq_some_iff.1 h
        exact absurd hc Bool.false_ne_true
      · next hb =>
        have hcls : (lookup s.consoles b).map Console.cls = some c.cls := by
          rw [← endSession_cls a 1 b cause, ← endSession_cls a 2 b cause, h]
          rfl
        obtain ⟨d, hd, he⟩ := Option.map_eq_some_iff.1 hcls
        exact ⟨hb, d, hd, by unfold Console.attached at hc ⊢; rwa [he]⟩
    · next hk' =>
      refine ⟨fun hb => hk' ?_, c, h, hc⟩
      rw [hb, hk] at h
      rwa [Option.some.inj h]
  · next hn =>
    refine ⟨fun hb => ?_, c, h, hc⟩
    rw [hb, hn] at h
    cases h

/-! ## The loss of the console link (R86) -/

theorem consoleLoss_frame (s : State) : SessionFrame s (consoleLoss s) := by
  unfold consoleLoss
  exact List.foldlRecOn (motive := fun t : State => SessionFrame s t) _ _ rfl fun t ht a _ =>
    ht.trans (detachConsole_frame ..)

/-- Every console is DETACHED. -/
theorem consoleLoss_attached {s : State} {a : Nat} {c : Console} (h : lookup (consoleLoss s).consoles a = some c) :
    c.attached = false := by
  have hfold : ∀ (l : List Nat) (s : State) (c : Console),
      lookup (l.foldl (fun acc a => detachConsole .detach a acc) s).consoles a = some c → c.attached = true →
      a ∉ l ∧ ∃ k, lookup s.consoles a = some k ∧ k.attached = true := by
    intro l
    induction l with
    | nil => exact fun s c h hc => ⟨List.not_mem_nil, c, h, hc⟩
    | cons b l ih =>
      intro s c h hc
      obtain ⟨hl, k, hk, hka⟩ := ih _ c h hc
      obtain ⟨hb, hs⟩ := attached_of_detachConsole hk hka
      exact ⟨List.not_mem_cons_of_ne_of_not_mem hb hl, hs⟩
  refine Bool.eq_false_iff.2 fun hc => ?_
  obtain ⟨hl, k, hk, hka⟩ := hfold _ s c h hc
  exact hl (List.mem_map.2 ⟨(a, k), List.mem_filter.2 ⟨mem_of_lookup hk, hka⟩, rfl⟩)

end Sys2Proof.Machine

namespace Sys2Proof.Machine

/-! ## The loss of the plant link (R32, R40, R156) -/

/-- The controllers at the addresses `l` have become STALE one after another, on an event in progress. -/
structure StaleSteps (l : List Nat) (e e' : Ev) : Prop where
  controllers : ∀ b, lookup e'.s.controllers b =
    (lookup e.s.controllers b).map fun c => if b ∈ l then c.stale else c
  slots : ∀ i y, lookup e'.s.slots i = some y →
    y.stale = true ∨ (lookup e.s.slots i = some y ∧ (e.s.pointDef y.point).controller ∉ l)
  commands : ∀ c ∈ e'.s.commands, c ∈ e.s.commands ∧ c.controller ∉ l
  frame : e'.s = { e.s with
    slots := e'.s.slots, consoles := e'.s.consoles, controllers := e'.s.controllers, commands := e'.s.commands
    plant := e'.s.plant, console := e'.s.console, latched := e'.s.latched, statSeq := e'.s.statSeq
    statSent := e'.s.statSent }
  latched : ∀ x, e.s.isLatched x = true → e'.s.isLatched x = true
  plant : e.s.plant.ownRoom = false → e'.s.plant = e.s.plant

theorem stale_stale (c : Controller) : c.stale.stale = c.stale := rfl

theorem foldl_staleEv_staleSteps (l : List Nat) (e : Ev) : StaleSteps l e (l.foldl (fun e a => staleEv a e) e) := by
  induction l generalizing e with
  | nil =>
    exact ⟨fun b => by simp, fun i y h => .inr ⟨h, List.not_mem_nil⟩, fun c h => ⟨h, List.not_mem_nil⟩, rfl,
      fun _ h => h, fun _ => rfl⟩
  | cons a l ih =>
    have h := staleEv_staleStep a e
    have k := ih (staleEv a e)
    have htables : (staleEv a e).s.tables = e.s.tables := by rw [h.frame]
    rw [List.foldl_cons]
    generalize l.foldl (fun e a => staleEv a e) (staleEv a e) = e' at k ⊢
    constructor
    case controllers =>
      intro b
      rw [k.controllers, h.controllers, lookup_modController]
      by_cases hb : b = a
      · subst hb
        rw [if_pos rfl, Option.map_map]
        congr 1
        funext c
        by_cases hl : b ∈ l <;> simp [hl, stale_stale]
      · simp [hb]
    case slots =>
      intro i y hy
      rcases k.slots i y hy with hs | ⟨hy, hl⟩
      · exact .inl hs
      · rw [pointDef_congr (congrArg Tables.points htables)] at hl
        exact (h.slots i y hy).imp_right fun ⟨hy, ha⟩ => ⟨hy, List.not_mem_cons_of_ne_of_not_mem ha hl⟩
    case commands =>
      intro c hc
      obtain ⟨hc, hl⟩ := k.commands c hc
      obtain ⟨hc, ha⟩ := h.commands c hc
      exact ⟨hc, List.not_mem_cons_of_ne_of_not_mem ha hl⟩
    case frame => rw [k.frame, h.frame]
    case latched => exact fun x hx => k.latched x (h.latched x hx)
    case plant =>
      intro hr
      have hp := h.plant hr
      exact (k.plant (by rw [hp]; exact hr)).trans hp

/-- The LIVE controllers' addresses. -/
def liveAddresses (s : State) : List Nat := keys (s.controllers.filter fun e => e.2.live)

theorem mem_liveAddresses {s : State} {a : Nat} (h : s.controllerLive a = true) : a ∈ liveAddresses s := by
  unfold State.controllerLive at h
  split at h
  · next c hc => exact List.mem_map.2 ⟨(a, c), List.mem_filter.2 ⟨mem_of_lookup hc, h⟩, rfl⟩
  · cases h

/-- The event of a plant link loss before it is handed on. -/
def plantLossEv (s : State) : Ev := (liveAddresses s).foldl (fun e a => staleEv a e) { s := s }

theorem plantLossEv_staleSteps (s : State) : StaleSteps (liveAddresses s) { s := s } (plantLossEv s) :=
  foldl_staleEv_staleSteps _ _

/-- A resynchronisation that is not in IDLE is abandoned (R40). -/
def Controller.idled (c : Controller) : Controller := if c.phase = .idle then c else c.abandon

theorem plantLoss_eq (s : State) : plantLoss s =
    { handOn s (plantLossEv s) [] with
      controllers := (handOn s (plantLossEv s) []).controllers.map fun e => (e.1, e.2.idled) } := rfl

/-- What a plant link loss leaves. -/
structure PlantLost (s t : State) : Prop where
  controllers : ∀ a c, lookup t.controllers a = some c → c.live = false ∧ c.phase = .idle
  slots : ∀ i sl, lookup t.slots i = some sl → s.controllerLive (s.pointDef sl.point).controller = true → sl.stale = true
  commands : ∀ c ∈ t.commands, s.controllerLive c.controller = false
  latched : ∀ x, s.isLatched x = true → t.isLatched x = true
  plant : s.plant.ownRoom = false → t.plant = s.plant
  rest : t.tables = s.tables ∧ t.memory = s.memory ∧ t.dyn = s.dyn ∧ t.queue = s.queue ∧ t.shelf = s.shelf
    ∧ t.store = s.store ∧ t.pending = s.pending

theorem idled_of_stale (c : Controller) : c.stale.idled.live = false ∧ c.stale.idled.phase = .idle := ⟨rfl, rfl⟩

theorem idled_of_dead {c : Controller} (h : c.live = false) : c.idled.live = false ∧ c.idled.phase = .idle := by
  unfold Controller.idled
  split
  · next hp => exact ⟨h, hp⟩
  · exact ⟨h, rfl⟩

theorem plantLoss_plantLost (s : State) : PlantLost s (plantLoss s) := by
  have h := plantLossEv_staleSteps s
  have hf := h.frame
  constructor
  case controllers =>
    intro a c hc
    rw [plantLoss_eq] at hc
    simp only [handOn_controllers] at hc
    rw [lookup_map, h.controllers, Option.map_map] at hc
    obtain ⟨k, hk, rfl⟩ := Option.map_eq_some_iff.1 hc
    dsimp only [Function.comp_apply]
    split
    · exact idled_of_stale k
    · next ha =>
      refine idled_of_dead (Bool.eq_false_iff.2 fun hlive => ha (mem_liveAddresses ?_))
      unfold State.controllerLive
      rw [show lookup s.controllers a = some k from hk]
      exact hlive
  case slots =>
    intro i sl hl hlive
    rw [plantLoss_eq] at hl
    simp only [handOn_slots] at hl
    exact (h.slots i sl hl).resolve_right fun hn => hn.2 (mem_liveAddresses hlive)
  case commands =>
    intro c hc
    rw [plantLoss_eq] at hc
    simp only [handOn_commands] at hc
    exact Bool.eq_false_iff.2 fun hlive => (h.commands c hc).2 (mem_liveAddresses hlive)
  case latched => exact fun x hx => (isLatched_congr (handOn_latched ..) x).trans (h.latched x hx)
  case plant => exact fun hr => (handOn_plant ..).trans (h.plant hr)
  case rest =>
    rw [plantLoss_eq]
    simp only [handOn_tables, handOn_memory, handOn_dyn, handOn_queue, handOn_shelf, handOn_store, handOn_pending]
    rw [hf]
    exact ⟨rfl, rfl, rfl, rfl, rfl, rfl, rfl⟩

/-! ## LINK_DOWN and LINK_UP (R169) -/

/-- The port's own part of LINK_DOWN, with EGRESS_DROP where OWN loses a telegram. -/
def linkLost (ms : Nat) (p : PortId) (s : State) : State :=
  let u := (s.atArrival ms).modPort p Port.goDown
  if (s.port p).ownLost > 0 then u.latch .egressDrop else u

/-- What a link loss does behind the port. -/
def lossBehind : PortId → State → State
  | .plant => plantLoss
  | .console => consoleLoss

theorem exec_linkDown {p : PortId} {s : State} (ms : Nat) (h : s.ready = true) (hu : (s.port p).up = true) :
    exec (.linkDown ms p) s = .next (lossBehind p (linkLost ms p s)) := by
  refine congrArg Host.Outcome.next ?_
  rw [if_pos hu, arriveAt_of_ready h]
  cases p <;> rfl

theorem ownRoom_goDown (q : Port) : q.goDown.ownRoom = false := rfl

theorem linkLost_port (ms : Nat) (p : PortId) (s : State) : (linkLost ms p s).port p = (s.port p).goDown := by
  have hd : ((s.atArrival ms).modPort p Port.goDown).port p = (s.port p).goDown := by rw [port_modPort_self, atArrival_port]
  unfold linkLost
  dsimp only
  split
  · cases p with
    | plant => exact (latch_plant_noRoom _ _ rfl).trans hd
    | console => exact (State.latch_console ..).trans hd
  · exact hd

theorem linkLost_egressDrop {ms : Nat} {p : PortId} {s : State}
    (h : (s.port p).own ≠ [] ∨ ∃ e, (s.port p).sending = some (.own e)) :
    (linkLost ms p s).isLatched .egressDrop = true := by
  have hlost : 0 < (s.port p).ownLost := by
    unfold Port.ownLost
    rcases h with h | ⟨e, he⟩
    · exact Nat.add_pos_left (List.length_pos_of_ne_nil h) _
    · rw [he]
      exact Nat.succ_pos _
  unfold linkLost
  rw [if_pos hlost]
  exact latch_isLatched ..

/-- The line loses nothing but its port: tables, points, controllers, slots and commands are as they were. -/
theorem linkLost_frame (ms : Nat) (p : PortId) (s : State) : linkLost ms p s = { s with
    time := (linkLost ms p s).time, plant := (linkLost ms p s).plant, console := (linkLost ms p s).console
    latched := (linkLost ms p s).latched, statSeq := (linkLost ms p s).statSeq
    statSent := (linkLost ms p s).statSent } := by
  unfold linkLost
  dsimp only
  split
  · rw [latch_frame]
    cases p <;> rfl
  · cases p <;> rfl

theorem goDown_eq (q : Port) : q.goDown =
    { q with
      up := false, forward := [], own := [], sending := none
      dropped := min 65535 (q.dropped + q.forward.length + match q.sending with | some (.forward _) => 1 | _ => 0) } := 
  congrArg (fun n => { q with up := false, forward := [], own := [], sending := none, dropped := min 65535 n })
    (Nat.add_assoc ..).symm

/-- What is kept of the state before a link loss. -/
theorem linkLost_rest (ms : Nat) (p : PortId) (s : State) :
    let t := linkLost ms p s
    t.tables = s.tables ∧ t.memory = s.memory ∧ t.dyn = s.dyn ∧ t.queue = s.queue ∧ t.shelf = s.shelf
      ∧ t.store = s.store ∧ t.pending = s.pending := by
  dsimp only
  rw [linkLost_frame]
  exact ⟨rfl, rfl, rfl, rfl, rfl, rfl, rfl⟩

theorem exec_linkDown_plant (ms : Nat) (s : State) :
    let t := plantLoss (linkLost ms .plant s)
    t.plant = s.plant.goDown
      ∧ (∀ a c, lookup t.controllers a = some c → c.live = false ∧ c.phase = .idle)
      ∧ (∀ i sl, lookup t.slots i = some sl → s.controllerLive (s.pointDef sl.point).controller = true → sl.stale = true)
      ∧ ∀ c ∈ t.commands, s.controllerLive c.controller = false := by
  dsimp only
  have h := plantLoss_plantLost (linkLost ms .plant s)
  have hf := linkLost_frame ms .plant s
  have hport : (linkLost ms .plant s).plant = s.plant.goDown := linkLost_port ms .plant s
  have hlive (a : Nat) : (linkLost ms .plant s).controllerLive a = s.controllerLive a :=
    controllerLive_congr (by rw [hf]) a
  have hdef (p : Nat) : (linkLost ms .plant s).pointDef p = s.pointDef p := pointDef_congr (by rw [hf]) p
  refine ⟨(h.plant (by rw [hport]; rfl)).trans hport, h.controllers, fun i sl hl hc => h.slots i sl hl ?_, fun c hc => ?_⟩
  · rwa [hlive, hdef]
  · rw [← hlive]
    exact h.commands c hc

/-- LINK_UP (R169). -/
theorem exec_linkUp {s : State} (h : s.settled = true) (p : PortId) :
    exec (.linkUp p) s = .next (s.beginEvent.modPort p fun q => { q with up := true }) := by
  refine congrArg Host.Outcome.next ?_
  rw [enter_of_settled h]

/-- Settles O13: the port goes down alone, and what lay behind it is lost by the port it is. -/
theorem linkStateFollowsTheLink : Obligations.LinkStateFollowsTheLink := by
  refine ⟨fun ms p s h hu => ⟨_, exec_linkDown ms h hu, ?_⟩, fun p s h => ⟨_, exec_linkUp h p, ?_⟩⟩
  · obtain ⟨h1, h2, h3, h4, h5, h6, h7⟩ := linkLost_rest ms p s
    cases p with
    | plant =>
      obtain ⟨hport, hcontrollers, hslots, hcommands⟩ := exec_linkDown_plant ms s
      have k := plantLoss_plantLost (linkLost ms .plant s)
      obtain ⟨k1, k2, k3, k4, k5, k6, k7⟩ := k.rest
      exact ⟨hport.trans (goDown_eq _), fun hlost => k.latched _ (linkLost_egressDrop hlost),
        fun _ => ⟨hcontrollers, hslots, hcommands⟩, nofun, k1.trans h1, k2.trans h2, k3.trans h3, k4.trans h4,
        k5.trans h5, k6.trans h6, k7.trans h7⟩
    | console =>
      have hf := consoleLoss_frame (linkLost ms .console s)
      refine ⟨?_, fun hlost => ?_, nofun, fun _ a c hc => consoleLoss_attached hc, ?_⟩
      · exact (congrArg State.console hf).trans ((linkLost_port ms .console s).trans (goDown_eq _))
      · exact (isLatched_congr (congrArg State.latched hf) _).trans (linkLost_egressDrop hlost)
      · exact ⟨(congrArg State.tables hf).trans h1, (congrArg State.memory hf).trans h2, (congrArg State.dyn hf).trans h3,
          (congrArg State.queue hf).trans h4, (congrArg State.shelf hf).trans h5, (congrArg State.store hf).trans h6,
          (congrArg State.pending hf).trans h7⟩
  · cases p <;> exact ⟨rfl, rfl, rfl⟩

end Sys2Proof.Machine

namespace Sys2Proof.Machine

/-! ## One piece of tick work that ends nothing (R161) -/

/-- The entry of point `p` counted down, in its new place of the shelf list (R65, R69). -/
def shelfCounted (p : Nat) (l : List ShelfEntry) : List ShelfEntry :=
  match l.find? fun e => e.point == p with
  | some e => placeShelf { e with ticks := e.ticks - 1 } (removeShelf p l)
  | none => l

/-- The limits of a record after a tick (R137). -/
def Handover.counted (h : Handover) : Handover :=
  { h with left := h.left - 1, attendLeft := if h.state = .offered then h.attendLeft - 1 else h.attendLeft }

/-- What a piece of tick work does beside that of the time base, where it ends nothing. -/
def countDown (x : TickItem) (s : State) : State :=
  match x with
  | .chatter p => s.setDyn p { s.dynOf p with score := (s.dynOf p).score - 1 }
  | .shelf p => { s with shelf := shelfCounted p s.shelf }
  | .load a => s.modArea a fun r => { r with load := decayed r.load }
  | .controllerSilence c =>
    if s.controllerLive c then s.modController c fun k => { k with silence := k.silence + 1 } else s
  | .resyncWait c =>
    if s.phaseOf c = .idle then s else s.modController c fun k => { k with wait := k.wait - 1 }
  | .consoleSilence c =>
    if (lookup s.consoles c).any Console.attached then s.modConsole c fun k => { k with silence := k.silence + 1 } else s
  | .rateHold c => s.modConsole c fun k => { k with rateHold := k.rateHold - 1 }
  | .loginHold c => s.modConsole c fun k => { k with loginHold := k.loginHold - 1 }
  | .grace a =>
    if (s.area a).authority = .grace then s.modArea a fun r => { r with graceLeft := r.graceLeft - 1 } else s
  | .handover n =>
    match s.record n with
    | some h => s.setRecord h.counted
    | none => s
  | .confirm t =>
    { s with commands := s.commands.map fun c => if c.tag == t then { c with ticks := c.ticks - 1 } else c }
  | .time => timeWork s

section
variable {s : State}

theorem chatterWork_of_running {p : Nat} (h : chatterEnds p s = false) : chatterWork p s = countDown (.chatter p) s := by
  unfold chatterEnds at h
  unfold chatterWork
  rw [if_neg (by rw [h]; exact Bool.false_ne_true)]
  rfl

theorem shelfWork_of_running {p : Nat} (h : expires (.shelf p) s = false) : shelfWork p s = countDown (.shelf p) s := by
  unfold expires at h
  unfold shelfWork countDown shelfCounted
  dsimp only at h ⊢
  cases he : s.shelfEntry p with
  | none =>
    rw [show s.shelf.find? (fun e => e.point == p) = none from he]
  | some e =>
    rw [he] at h
    rw [show s.shelf.find? (fun e => e.point == p) = some e from he]
    dsimp only
    rw [if_neg (by simpa using h)]

theorem loadWork_of_running {a : Nat} (h : floodEnds a s = false) : loadWork a s = countDown (.load a) s := by
  unfold floodEnds at h
  unfold loadWork
  rw [if_neg (by rw [h]; exact Bool.false_ne_true)]
  rfl

theorem controllerSilenceWork_of_running {c : Nat} (h : expires (.controllerSilence c) s = false) :
    controllerSilenceWork c s = countDown (.controllerSilence c) s := by
  unfold expires at h
  unfold controllerSilenceWork countDown State.controllerLive
  dsimp only at h ⊢
  cases hc : lookup s.controllers c with
  | none => rfl
  | some k =>
    rw [hc] at h
    cases hl : k.live with
    | false => simp [hl]
    | true =>
      simp only [hl, Option.any_some, Bool.true_and, decide_eq_false_iff_not] at h
      simp [hl, h]

theorem resyncWaitWork_of_running {c : Nat} (h : expires (.resyncWait c) s = false) :
    resyncWaitWork c s = countDown (.resyncWait c) s := by
  unfold expires at h
  unfold resyncWaitWork countDown State.phaseOf
  dsimp only at h ⊢
  cases hc : lookup s.controllers c with
  | none => rfl
  | some k =>
    rw [hc] at h
    dsimp only
    split
    · rfl
    · next hp => rw [if_neg (by simpa [hp] using h)]

theorem consoleSilenceWork_of_running {c : Nat} (h : expires (.consoleSilence c) s = false) :
    consoleSilenceWork c s = countDown (.consoleSilence c) s := by
  unfold expires at h
  unfold consoleSilenceWork countDown
  dsimp only at h ⊢
  cases hc : lookup s.consoles c with
  | none => rfl
  | some k =>
    rw [hc] at h
    cases hl : k.attached with
    | false => simp [hl]
    | true =>
      simp only [hl, Option.any_some, Bool.true_and, decide_eq_false_iff_not] at h
      simp [hl, h]

theorem graceWork_of_running {a : Nat} (h : expires (.grace a) s = false) : graceWork a s = countDown (.grace a) s := by
  unfold expires at h
  unfold graceWork countDown
  dsimp only at h ⊢
  split
  · next hg => rw [if_neg (by simpa [hg] using h)]
  · rfl

theorem handoverWork_of_running {n : Nat} (h : expires (.handover n) s = false) :
    handoverWork n s = countDown (.handover n) s := by
  unfold expires handoverEnds attendEnds at h
  unfold handoverWork countDown
  dsimp only at h ⊢
  cases hr : s.record n with
  | none => rfl
  | some g =>
    rw [hr] at h
    simp only [Option.any_some, Bool.or_eq_false_iff, decide_eq_false_iff_not] at h
    obtain ⟨hleft, hattend⟩ := h
    dsimp only
    rw [if_neg hleft]
    unfold Handover.counted
    by_cases ho : g.state = .offered
    · have ha : ¬ g.attendLeft ≤ 1 := fun ha => by simp [ho, ha, Nat.lt_of_not_le hleft] at hattend
      rw [if_pos ho, if_neg ha, if_pos ho]
    · rw [if_neg ho, if_neg ho]

theorem confirmWork_of_running {t : Nat} (h : expires (.confirm t) s = false) :
    confirmWork t s = countDown (.confirm t) s := by
  unfold expires at h
  unfold confirmWork countDown
  dsimp only at h ⊢
  split
  · next hn =>
    rw [List.find?_eq_none] at hn
    have hmap : (s.commands.map fun c => if c.tag == t then { c with ticks := c.ticks - 1 } else c) = s.commands :=
      (List.map_congr_left fun c hc => if_neg (hn c hc)).trans (List.map_id' _)
    rw [hmap]
  · next c hc =>
    rw [hc] at h
    rw [if_neg (by simpa using h)]

/-- A piece of tick work is left where it ends what it counts, and counts down where it does not. -/
theorem tickOne_eq (s : State) (x : TickItem) :
    tickOne s x = if expires x s then { s with owed := s.owed ++ [x] } else countDown x s.beginEvent := by
  unfold tickOne
  cases h : expires x s with
  | true => rfl
  | false =>
    rw [if_neg Bool.false_ne_true, if_neg Bool.false_ne_true]
    unfold tickWork
    dsimp only
    cases x with
    | chatter p => exact chatterWork_of_running (s := s.beginEvent) h
    | shelf p => exact shelfWork_of_running (s := s.beginEvent) h
    | load a => exact loadWork_of_running (s := s.beginEvent) h
    | controllerSilence c => exact controllerSilenceWork_of_running (s := s.beginEvent) h
    | resyncWait c => exact resyncWaitWork_of_running (s := s.beginEvent) h
    | consoleSilence c => exact consoleSilenceWork_of_running (s := s.beginEvent) h
    | rateHold c => rfl
    | loginHold c => rfl
    | grace a => exact graceWork_of_running (s := s.beginEvent) h
    | handover n => exact handoverWork_of_running (s := s.beginEvent) h
    | confirm t => exact confirmWork_of_running (s := s.beginEvent) h
    | time => rfl

theorem tickOne_of_expires {x : TickItem} (h : expires x s = true) : tickOne s x = { s with owed := s.owed ++ [x] } := by
  rw [tickOne_eq, if_pos h]

theorem tickOne_of_running {x : TickItem} (h : expires x s = false) : tickOne s x = countDown x s.beginEvent := by
  rw [tickOne_eq, if_neg (ne_true_of_eq_false h)]

end

end Sys2Proof.Machine

namespace Sys2Proof.Machine

/-! ## What one piece of tick work does to each counter -/

/-- The chatter score after a tick, of a point with this chatter off (R52). -/
def PointDyn.ticked (off : Nat) (d : PointDyn) : PointDyn :=
  if (d.held && d.score - 1 ≤ off) = true then d else { d with score := d.score - 1 }

/-- The load of an area after a tick, of an area with this flood exit (R47). -/
def Area.decayedOnce (off : Nat) (r : Area) : Area :=
  if (r.flood && decayed r.load < off) = true then r else { r with load := decayed r.load }

/-- The grace of an area after a tick (R109). -/
def Area.graceTicked (r : Area) : Area :=
  if r.authority = .grace ∧ 1 < r.graceLeft then { r with graceLeft := r.graceLeft - 1 } else r

/-- The silence of a controller after a tick (R31). -/
def Controller.silenceTicked (c : Controller) : Controller :=
  if c.live = true ∧ c.silence < 2 then { c with silence := c.silence + 1 } else c

/-- The wait of a controller after a tick (R35). -/
def Controller.waitTicked (c : Controller) : Controller :=
  if c.phase ≠ .idle ∧ 1 < c.wait then { c with wait := c.wait - 1 } else c

/-- The silence of a console after a tick (R86). -/
def Console.silenceTicked (c : Console) : Console :=
  if c.attached = true ∧ c.silence < 2 then { c with silence := c.silence + 1 } else c

/-- The rate hold of a console after a tick (R93). -/
def Console.rateTicked (c : Console) : Console := if c.rateHold = 1 then c else { c with rateHold := c.rateHold - 1 }

/-- The login hold of a console after a tick (R95). -/
def Console.loginTicked (c : Console) : Console := if c.loginHold = 1 then c else { c with loginHold := c.loginHold - 1 }

/-- An outstanding command after a tick (R155). -/
def Command.ticked (c : Command) : Command := if 1 < c.ticks then { c with ticks := c.ticks - 1 } else c

/-- A record after a tick (R137). -/
def Handover.ticked (h : Handover) : Handover :=
  if h.left ≤ 1 ∨ (h.state = .offered ∧ h.attendLeft ≤ 1) then h else h.counted

/-- A shelf entry after a tick (R69). -/
def ShelfEntry.ticked (x : ShelfEntry) : ShelfEntry := { x with ticks := if 1 < x.ticks then x.ticks - 1 else x.ticks }

/-- The shelf list after the tick work of point `p`. -/
def shelfTicked (p : Nat) (l : List ShelfEntry) : List ShelfEntry :=
  match l.find? fun e => e.point == p with
  | some e => if e.ticks ≤ 1 then l else placeShelf { e with ticks := e.ticks - 1 } (removeShelf p l)
  | none => l

/-- The part of the state a piece of tick work counts in. -/
inductive TickPart where
  | dyn | shelf | areas | controllers | consoles | records | commands | time
  deriving DecidableEq

def TickItem.part : TickItem → TickPart
  | .chatter _ => .dyn
  | .shelf _ => .shelf
  | .load _ | .grace _ => .areas
  | .controllerSilence _ | .resyncWait _ => .controllers
  | .consoleSilence _ | .rateHold _ | .loginHold _ => .consoles
  | .handover _ => .records
  | .confirm _ => .commands
  | .time => .time

/-- Every part but `q` of the parts counted in is as it was. -/
structure PartKept (q : TickPart) (s t : State) : Prop where
  dyn : q ≠ .dyn → t.dyn = s.dyn
  shelf : q ≠ .shelf → t.shelf = s.shelf
  areas : q ≠ .areas → t.areas = s.areas
  controllers : q ≠ .controllers → t.controllers = s.controllers
  consoles : q ≠ .consoles → t.consoles = s.consoles
  records : q ≠ .records → t.records = s.records
  commands : q ≠ .commands → t.commands = s.commands
  rest : t = { s with
    dyn := t.dyn, shelf := t.shelf, areas := t.areas, controllers := t.controllers, consoles := t.consoles
    records := t.records, commands := t.commands, statSent := t.statSent }

theorem PartKept.refl (q : TickPart) (s : State) : PartKept q s s :=
  ⟨fun _ => rfl, fun _ => rfl, fun _ => rfl, fun _ => rfl, fun _ => rfl, fun _ => rfl, fun _ => rfl, rfl⟩

theorem modController_partKept (s : State) (a : Nat) (f : Controller → Controller) :
    PartKept .controllers s (s.modController a f) := by
  rw [modController_frame]
  exact ⟨fun _ => rfl, fun _ => rfl, fun _ => rfl, absurd rfl, fun _ => rfl, fun _ => rfl, fun _ => rfl, rfl⟩

theorem modConsole_partKept (s : State) (a : Nat) (f : Console → Console) :
    PartKept .consoles s (s.modConsole a f) := by
  rw [modConsole_frame]
  exact ⟨fun _ => rfl, fun _ => rfl, fun _ => rfl, fun _ => rfl, absurd rfl, fun _ => rfl, fun _ => rfl, rfl⟩

theorem modArea_partKept (s : State) (a : Nat) (f : Area → Area) : PartKept .areas s (s.modArea a f) :=
  ⟨fun _ => rfl, fun _ => rfl, absurd rfl, fun _ => rfl, fun _ => rfl, fun _ => rfl, fun _ => rfl, rfl⟩

section
variable {s : State} {x : TickItem} (h : x ≠ .time)
include h

theorem countDown_partKept : PartKept x.part s (countDown x s) := by
  cases x with
  | time => exact absurd rfl h
  | chatter p => exact ⟨absurd rfl, fun _ => rfl, fun _ => rfl, fun _ => rfl, fun _ => rfl, fun _ => rfl, fun _ => rfl, rfl⟩
  | shelf p => exact ⟨fun _ => rfl, absurd rfl, fun _ => rfl, fun _ => rfl, fun _ => rfl, fun _ => rfl, fun _ => rfl, rfl⟩
  | confirm t => exact ⟨fun _ => rfl, fun _ => rfl, fun _ => rfl, fun _ => rfl, fun _ => rfl, fun _ => rfl, absurd rfl, rfl⟩
  | load a => unfold countDown; exact modArea_partKept ..
  | rateHold c => exact modConsole_partKept ..
  | loginHold c => exact modConsole_partKept ..
  | controllerSilence c =>
    unfold countDown
    dsimp only
    split
    · exact modController_partKept ..
    · exact .refl ..
  | resyncWait c =>
    unfold countDown
    dsimp only
    split
    · exact .refl ..
    · exact modController_partKept ..
  | consoleSilence c =>
    unfold countDown
    dsimp only
    split
    · exact modConsole_partKept ..
    · exact .refl ..
  | grace a =>
    unfold countDown
    dsimp only
    split
    · exact modArea_partKept ..
    · exact .refl ..
  | handover n =>
    unfold countDown
    dsimp only
    split
    · exact ⟨fun _ => rfl, fun _ => rfl, fun _ => rfl, fun _ => rfl, fun _ => rfl, absurd rfl, fun _ => rfl, rfl⟩
    · exact .refl ..

theorem tickOne_owed : (tickOne s x).owed = if expires x s then s.owed ++ [x] else s.owed := by
  rw [tickOne_eq]
  split
  · rfl
  · rw [(countDown_partKept (s := s.beginEvent) h).rest]
    rfl

theorem tickOne_partKept : PartKept x.part { s with owed := (tickOne s x).owed } (tickOne s x) := by
  rw [tickOne_eq]
  split
  · exact .refl ..
  · obtain ⟨hd, hs, ha, hc, hk, hr, hm, he⟩ := countDown_partKept (s := s.beginEvent) h
    refine ⟨hd, hs, ha, hc, hk, hr, hm, ?_⟩
    rw [he]
    rfl

end

/-! ## Each counter after one piece of tick work -/

section
variable {α : Type} {t : List (Nat × α)} {b : Nat} {f g : α → α} (a : Nat)

theorem ite_lookup_map_congr (h : ∀ c, lookup t b = some c → f c = g c) :
    (if a = b then (lookup t b).map f else lookup t a) = if a = b then (lookup t b).map g else lookup t a :=
  if_congr Iff.rfl (Option.map_congr h) rfl

theorem ite_lookup_map_self (h : ∀ c, lookup t b = some c → g c = c) :
    lookup t a = if a = b then (lookup t b).map g else lookup t a := by
  split
  · next hab =>
    subst hab
    exact (Option.map_id' (x := lookup t a)).symm.trans (Option.map_congr fun c hc => (h c hc).symm)
  · rfl

end

section
variable (s : State) (a b : Nat)

theorem lookup_tickOne_controllerSilence : lookup (tickOne s (.controllerSilence b)).controllers a =
    if a = b then (lookup s.controllers b).map .silenceTicked else lookup s.controllers a := by
  cases he : expires (.controllerSilence b) s with
  | true =>
    rw [tickOne_of_expires he]
    refine ite_lookup_map_self (t := s.controllers) a fun c hc => if_neg ?_
    simp [expires, hc, Config.stationLiveLimit] at he
    omega
  | false =>
    rw [tickOne_of_running he]
    unfold countDown
    dsimp only
    split
    · next hl =>
      rw [lookup_modController]
      refine ite_lookup_map_congr (t := s.controllers) a fun c hc => (if_pos ?_).symm
      simp_all [expires, Config.stationLiveLimit, State.controllerLive]
    · next hl =>
      refine ite_lookup_map_self (t := s.controllers) a fun c hc => if_neg ?_
      simp_all [State.controllerLive]

theorem lookup_tickOne_resyncWait : lookup (tickOne s (.resyncWait b)).controllers a =
    if a = b then (lookup s.controllers b).map .waitTicked else lookup s.controllers a := by
  cases he : expires (.resyncWait b) s with
  | true =>
    rw [tickOne_of_expires he]
    refine ite_lookup_map_self (t := s.controllers) a fun c hc => if_neg ?_
    simp [expires, hc] at he
    omega
  | false =>
    rw [tickOne_of_running he]
    unfold countDown
    dsimp only
    split
    · next hl =>
      refine ite_lookup_map_self (t := s.controllers) a fun c hc => if_neg ?_
      simp_all [State.phaseOf]
    · next hl =>
      rw [lookup_modController]
      refine ite_lookup_map_congr (t := s.controllers) a fun c hc => (if_pos ?_).symm
      simp_all [expires, State.phaseOf]

theorem lookup_tickOne_consoleSilence : lookup (tickOne s (.consoleSilence b)).consoles a =
    if a = b then (lookup s.consoles b).map .silenceTicked else lookup s.consoles a := by
  cases he : expires (.consoleSilence b) s with
  | true =>
    rw [tickOne_of_expires he]
    refine ite_lookup_map_self (t := s.consoles) a fun c hc => if_neg ?_
    simp [expires, hc, Config.stationLiveLimit] at he
    omega
  | false =>
    rw [tickOne_of_running he]
    unfold countDown
    dsimp only
    split
    · next hl =>
      rw [lookup_modConsole]
      refine ite_lookup_map_congr (t := s.consoles) a fun c hc => (if_pos ?_).symm
      simp_all [expires, Config.stationLiveLimit]
    · next hl =>
      refine ite_lookup_map_self (t := s.consoles) a fun c hc => if_neg ?_
      simp_all

theorem lookup_tickOne_rateHold : lookup (tickOne s (.rateHold b)).consoles a =
    if a = b then (lookup s.consoles b).map .rateTicked else lookup s.consoles a := by
  cases he : expires (.rateHold b) s with
  | true =>
    rw [tickOne_of_expires he]
    exact ite_lookup_map_self (t := s.consoles) a fun c hc => if_pos (by simpa [expires, hc] using he)
  | false =>
    rw [tickOne_of_running he]
    refine (lookup_modConsole ..).trans ?_
    exact ite_lookup_map_congr (t := s.consoles) a fun c hc => (if_neg (by simpa [expires, hc] using he)).symm

theorem lookup_tickOne_loginHold : lookup (tickOne s (.loginHold b)).consoles a =
    if a = b then (lookup s.consoles b).map .loginTicked else lookup s.consoles a := by
  cases he : expires (.loginHold b) s with
  | true =>
    rw [tickOne_of_expires he]
    exact ite_lookup_map_self (t := s.consoles) a fun c hc => if_pos (by simpa [expires, hc] using he)
  | false =>
    rw [tickOne_of_running he]
    refine (lookup_modConsole ..).trans ?_
    exact ite_lookup_map_congr (t := s.consoles) a fun c hc => (if_neg (by simpa [expires, hc] using he)).symm

theorem dynOf_tickOne_chatter : (tickOne s (.chatter b)).dynOf a =
    if a = b then (s.dynOf b).ticked (s.pointDef b).chatterOff else s.dynOf a := by
  cases he : expires (.chatter b) s with
  | true =>
    rw [tickOne_of_expires he]
    split
    · next hab => rw [hab]; exact (if_pos he).symm
    · rfl
  | false =>
    rw [tickOne_of_running he]
    refine (dynOf_setDyn ..).trans (if_congr Iff.rfl ?_ rfl)
    exact (if_neg (ne_true_of_eq_false he)).symm

theorem area_tickOne_load : (tickOne s (.load b)).area a =
    if a = b then (s.area b).decayedOnce (s.areaParams b).fOff else s.area a := by
  cases he : expires (.load b) s with
  | true =>
    rw [tickOne_of_expires he]
    split
    · next hab => rw [hab]; exact (if_pos he).symm
    · rfl
  | false =>
    rw [tickOne_of_running he]
    refine (area_modArea ..).trans (if_congr Iff.rfl ?_ rfl)
    exact (if_neg (ne_true_of_eq_false he)).symm

theorem area_tickOne_grace : (tickOne s (.grace b)).area a =
    if a = b then (s.area b).graceTicked else s.area a := by
  cases he : expires (.grace b) s with
  | true =>
    rw [tickOne_of_expires he]
    split
    · next hab =>
      rw [hab]
      exact (if_neg (by simp_all [expires])).symm
    · rfl
  | false =>
    rw [tickOne_of_running he]
    unfold countDown
    dsimp only
    split
    · next hg =>
      refine (area_modArea ..).trans (if_congr Iff.rfl ?_ rfl)
      exact (if_pos ⟨hg, by simpa [expires, show (s.area b).authority = .grace from hg] using he⟩).symm
    · next hg =>
      split
      · next hab => rw [hab]; exact (if_neg fun hn => hg hn.1).symm
      · rfl

end

/-! ## Each counter of one key after any piece of countdown work -/

section
variable {s : State} {x : TickItem} (h : x ≠ .time)
include h

theorem dynOf_tickOne (p : Nat) : (tickOne s x).dynOf p =
    if x = .chatter p then (s.dynOf p).ticked (s.pointDef p).chatterOff else s.dynOf p := by
  have hkeep := (tickOne_partKept (s := s) h).dyn
  cases x with
  | chatter q =>
    rw [dynOf_tickOne_chatter]
    simp only [TickItem.chatter.injEq]
    exact if_ctx_congr eq_comm (fun hq => by rw [hq]) fun _ => rfl
  | _ => exact congrArg (fun d => (lookup d p).getD {}) (hkeep nofun)

theorem area_tickOne (a : Nat) : (tickOne s x).area a =
    if x = .load a then (s.area a).decayedOnce (s.areaParams a).fOff
    else if x = .grace a then (s.area a).graceTicked else s.area a := by
  have hkeep := (tickOne_partKept (s := s) h).areas
  cases x with
  | load b =>
    rw [area_tickOne_load]
    simp only [TickItem.load.injEq]
    exact if_ctx_congr eq_comm (fun hq => by rw [hq]) fun _ => rfl
  | grace b =>
    rw [area_tickOne_grace, if_neg (show ¬ TickItem.grace b = .load a from nofun)]
    simp only [TickItem.grace.injEq]
    exact if_ctx_congr eq_comm (fun hq => by rw [hq]) fun _ => rfl
  | _ => exact congrArg (fun d => (lookup d a).getD {}) (hkeep nofun)

theorem lookup_controllers_tickOne (a : Nat) : lookup (tickOne s x).controllers a =
    if x = .controllerSilence a then (lookup s.controllers a).map .silenceTicked
    else if x = .resyncWait a then (lookup s.controllers a).map .waitTicked else lookup s.controllers a := by
  have hkeep := (tickOne_partKept (s := s) h).controllers
  cases x with
  | controllerSilence b =>
    rw [lookup_tickOne_controllerSilence]
    simp only [TickItem.controllerSilence.injEq]
    exact if_ctx_congr eq_comm (fun hq => by rw [hq]) fun _ => rfl
  | resyncWait b =>
    rw [lookup_tickOne_resyncWait, if_neg (show ¬ TickItem.resyncWait b = .controllerSilence a from nofun)]
    simp only [TickItem.resyncWait.injEq]
    exact if_ctx_congr eq_comm (fun hq => by rw [hq]) fun _ => rfl
  | _ => exact congrArg (lookup · a) (hkeep nofun)

theorem lookup_consoles_tickOne (a : Nat) : lookup (tickOne s x).consoles a =
    if x = .consoleSilence a then (lookup s.consoles a).map .silenceTicked
    else if x = .rateHold a then (lookup s.consoles a).map .rateTicked
    else if x = .loginHold a then (lookup s.consoles a).map .loginTicked else lookup s.consoles a := by
  have hkeep := (tickOne_partKept (s := s) h).consoles
  cases x with
  | consoleSilence b =>
    rw [lookup_tickOne_consoleSilence]
    simp only [TickItem.consoleSilence.injEq]
    exact if_ctx_congr eq_comm (fun hq => by rw [hq]) fun _ => rfl
  | rateHold b =>
    rw [lookup_tickOne_rateHold, if_neg (show ¬ TickItem.rateHold b = .consoleSilence a from nofun)]
    simp only [TickItem.rateHold.injEq]
    exact if_ctx_congr eq_comm (fun hq => by rw [hq]) fun _ => rfl
  | loginHold b =>
    rw [lookup_tickOne_loginHold, if_neg (show ¬ TickItem.loginHold b = .consoleSilence a from nofun),
      if_neg (show ¬ TickItem.loginHold b = .rateHold a from nofun)]
    simp only [TickItem.loginHold.injEq]
    exact if_ctx_congr eq_comm (fun hq => by rw [hq]) fun _ => rfl
  | _ => exact congrArg (lookup · a) (hkeep nofun)

theorem consoles_tickOne_rising (hr : risingKeys s.consoles = true) : risingKeys (tickOne s x).consoles = true := by
  have hkeep := (tickOne_partKept (s := s) h).consoles
  by_cases hx : x.part = .consoles
  · rw [tickOne_eq]
    split
    · exact hr
    · cases x with
      | consoleSilence c =>
        unfold countDown
        dsimp only
        split
        · exact modConsole_rising (s := s.beginEvent) hr ..
        · exact hr
      | rateHold c => exact modConsole_rising (s := s.beginEvent) hr ..
      | loginHold c => exact modConsole_rising (s := s.beginEvent) hr ..
      | _ => exact absurd hx nofun
  · rw [hkeep hx]
    exact hr

end

end Sys2Proof.Machine

namespace Sys2Proof.Machine

/-! ## The lists counted in: records, outstanding commands and the shelf (R137, R155, R69) -/

section
variable {α : Type} {key : α → Nat}

theorem find?_of_nodup {l : List α} (hn : (l.map key).Nodup) {x : α} (hx : x ∈ l) :
    (l.find? fun y => key y == key x) = some x := by
  have hsome : (l.find? fun y => key y == key x).isSome := List.find?_isSome.2 ⟨x, hx, beq_self_eq_true _⟩
  obtain ⟨y, hy⟩ := Option.isSome_iff_exists.1 hsome
  have hk : key y = key x := by simpa using List.find?_some hy
  rw [hy, List.inj_on_of_nodup_map hn (List.mem_of_find?_eq_some hy) hx hk]

/-- What one key's entry becomes leaves the entry of another key to be found as before. -/
theorem find?_map_at {m n : Nat} (h : n ≠ m) {f : α → α} (hf : ∀ x, key x = m → key (f x) = m) (l : List α) :
    ((l.map fun x => if key x == m then f x else x).find? fun x => key x == n) = l.find? fun x => key x == n := by
  induction l with
  | nil => rfl
  | cons x l ih =>
    rw [List.map_cons, List.find?_cons, List.find?_cons, ih]
    by_cases hx : key x = m
    · have hfx := hf x hx
      simp only [hx, beq_self_eq_true, if_true, hfx, beq_eq_false_iff_ne.2 h.symm]
    · have hne : (key x == m) = false := beq_eq_false_iff_ne.2 hx
      simp only [hne, Bool.false_eq_true, if_false]

/-- Each of the keys `ns` once: every entry of one of them has moved. -/
theorem foldl_map_at {g : α → α} (hg : ∀ x, key (g x) = key x) {ns : List Nat} (hn : ns.Nodup) (l : List α) :
    (ns.foldl (fun l n => l.map fun x => if key x = n then g x else x) l)
      = l.map fun x => if key x ∈ ns then g x else x := by
  induction ns generalizing l with
  | nil => simp
  | cons n ns ih =>
    obtain ⟨hni, hns⟩ := List.nodup_cons.1 hn
    rw [List.foldl_cons, ih hns, List.map_map]
    refine List.map_congr_left fun x _ => ?_
    by_cases hx : key x = n
    · simp [hx, hg, hni]
    · simp [hx]

theorem foldl_map_at_all {g : α → α} (hg : ∀ x, key (g x) = key x) {l : List α} (hn : (l.map key).Nodup) :
    ((l.map key).foldl (fun l n => l.map fun x => if key x = n then g x else x) l) = l.map g := by
  rw [foldl_map_at hg hn]
  exact List.map_congr_left fun x hx => if_pos (List.mem_map_of_mem hx)

end

theorem Handover.ticked_number (h : Handover) : h.ticked.number = h.number := by
  unfold Handover.ticked
  split <;> rfl

theorem Command.ticked_tag (c : Command) : c.ticked.tag = c.tag := by
  unfold Command.ticked
  split <;> rfl

section
variable {s : State}

theorem records_tickOne_handover (hn : (s.records.map fun h => h.number).Nodup) (n : Nat) :
    (tickOne s (.handover n)).records = s.records.map fun h => if h.number = n then h.ticked else h := by
  have hfind : ∀ h ∈ s.records, h.number = n → s.record n = some h := fun h hm he => by
    rw [← he]
    exact find?_of_nodup hn hm
  cases he : expires (.handover n) s with
  | true =>
    rw [tickOne_of_expires he]
    refine (List.map_id' _).symm.trans (List.map_congr_left fun h hm => ?_)
    split
    · next hnum =>
      refine (if_pos ?_).symm
      simp only [expires, handoverEnds, attendEnds, hfind h hm hnum, Option.any_some, Bool.or_eq_true,
        Bool.and_eq_true, decide_eq_true_eq, beq_iff_eq] at he
      exact he.imp_right fun ⟨⟨_, ho⟩, ha⟩ => ⟨ho, ha⟩
    · rfl
  | false =>
    rw [tickOne_of_running he]
    unfold countDown
    dsimp only
    split
    · next g hg =>
      have hgn : g.number = n := by simpa using List.find?_some hg
      refine List.map_congr_left fun h hm => ?_
      by_cases hnum : h.number = n
      · have hgh : g = h := Option.some.inj (hg.symm.trans (hfind h hm hnum))
        subst hgh
        refine (if_pos (beq_self_eq_true g.number)).trans ((if_pos hnum).trans (if_neg ?_)).symm
        simp [expires, handoverEnds, attendEnds, hfind g hm hnum] at he
        obtain ⟨hleft, hattend⟩ := he
        exact not_or.2 ⟨by omega, fun ⟨ho, ha⟩ => absurd (hattend hleft ho) (by omega)⟩
      · rw [if_neg hnum, if_neg (by simpa [Handover.counted, hgn] using hnum)]
    · next hnone =>
      refine (List.map_id' _).symm.trans (List.map_congr_left fun h hm => (if_neg fun hnum => ?_).symm)
      exact absurd ((hfind h hm hnum).symm.trans hnone) nofun

theorem commands_tickOne_confirm (hn : (s.commands.map fun c => c.tag).Nodup) (n : Nat) :
    (tickOne s (.confirm n)).commands = s.commands.map fun c => if c.tag = n then c.ticked else c := by
  have hfind : ∀ c ∈ s.commands, c.tag = n → (s.commands.find? fun c => c.tag == n) = some c := fun c hm he => by
    rw [← he]
    exact find?_of_nodup hn hm
  cases he : expires (.confirm n) s with
  | true =>
    rw [tickOne_of_expires he]
    refine (List.map_id' _).symm.trans (List.map_congr_left fun c hm => ?_)
    split
    · next htag =>
      refine (if_neg ?_).symm
      simpa [expires, hfind c hm htag] using he
    · rfl
  | false =>
    rw [tickOne_of_running he]
    refine List.map_congr_left fun c hm => ?_
    by_cases htag : c.tag = n
    · rw [if_pos (by simpa using htag), if_pos htag]
      refine (if_pos ?_).symm
      simpa [expires, hfind c hm htag] using he
    · rw [if_neg (by simpa using htag), if_neg htag]

theorem shelf_tickOne_shelf (p : Nat) : (tickOne s (.shelf p)).shelf = shelfTicked p s.shelf := by
  unfold shelfTicked
  cases he : expires (.shelf p) s with
  | true =>
    rw [tickOne_of_expires he]
    cases hf : s.shelf.find? fun e => e.point == p with
    | none => rfl
    | some e => exact (if_pos (by simpa [expires, State.shelfEntry, hf] using he)).symm
  | false =>
    rw [tickOne_of_running he]
    refine (show _ = shelfCounted p s.shelf from rfl).trans ?_
    unfold shelfCounted
    cases hf : s.shelf.find? fun e => e.point == p with
    | none => rfl
    | some e => exact (if_neg (by simpa [expires, State.shelfEntry, hf] using he)).symm

/-- The open records after a piece of tick work. -/
def recordsAfter (x : TickItem) (l : List Handover) : List Handover :=
  match x with
  | .handover n => l.map fun h => if h.number = n then h.ticked else h
  | _ => l

/-- The outstanding commands after a piece of tick work. -/
def commandsAfter (x : TickItem) (l : List Command) : List Command :=
  match x with
  | .confirm n => l.map fun c => if c.tag = n then c.ticked else c
  | _ => l

/-- The shelf list after a piece of tick work. -/
def shelfAfter (x : TickItem) (l : List ShelfEntry) : List ShelfEntry :=
  match x with
  | .shelf p => shelfTicked p l
  | _ => l

variable {x : TickItem} (h : x ≠ .time)
include h

theorem records_tickOne (hn : (s.records.map fun h => h.number).Nodup) : (tickOne s x).records = recordsAfter x s.records := by
  have hkeep := (tickOne_partKept (s := s) h).records
  cases x with
  | handover n => exact records_tickOne_handover hn n
  | _ => exact hkeep nofun

theorem commands_tickOne (hn : (s.commands.map fun c => c.tag).Nodup) : (tickOne s x).commands = commandsAfter x s.commands := by
  have hkeep := (tickOne_partKept (s := s) h).commands
  cases x with
  | confirm n => exact commands_tickOne_confirm hn n
  | _ => exact hkeep nofun

theorem shelf_tickOne : (tickOne s x).shelf = shelfAfter x s.shelf := by
  have hkeep := (tickOne_partKept (s := s) h).shelf
  cases x with
  | shelf p => exact shelf_tickOne_shelf p
  | _ => exact hkeep nofun

end

/-! ## The shelf list after its work -/

theorem placeShelf_perm (e : ShelfEntry) (l : List ShelfEntry) : (placeShelf e l).Perm (e :: l) := by
  induction l with
  | nil => exact .refl _
  | cons x l ih =>
    unfold placeShelf
    split
    · exact .refl _
    · exact (ih.cons x).trans (.swap ..)

theorem perm_cons_removeShelf {l : List ShelfEntry} (hn : (l.map fun x => x.point).Nodup) {e : ShelfEntry} (he : e ∈ l) :
    l.Perm (e :: removeShelf e.point l) := by
  have hnl : l.Nodup := List.Nodup.of_map _ hn
  have hrm : removeShelf e.point l = l.erase e := by
    rw [hnl.erase_eq_filter]
    refine List.filter_congr fun x hx => ?_
    have hiff : x.point = e.point ↔ x = e := ⟨List.inj_on_of_nodup_map hn hx he, fun hxe => by rw [hxe]⟩
    simp only [bne, Bool.not_inj_iff]
    exact Bool.eq_iff_iff.2 (by simpa using hiff)
  rw [hrm]
  exact List.perm_cons_erase he

theorem ShelfEntry.ticked_point (x : ShelfEntry) : x.ticked.point = x.point := rfl

theorem ShelfEntry.ticked_of_le {x : ShelfEntry} (h : x.ticks ≤ 1) : x.ticked = x := by
  unfold ShelfEntry.ticked
  rw [if_neg (by omega)]

theorem ShelfEntry.ticked_of_lt {x : ShelfEntry} (h : 1 < x.ticks) : x.ticked = { x with ticks := x.ticks - 1 } := by
  unfold ShelfEntry.ticked
  rw [if_pos h]

theorem shelfTicked_perm {l : List ShelfEntry} (hn : (l.map fun x => x.point).Nodup) (p : Nat) :
    (shelfTicked p l).Perm (l.map fun x => if x.point = p then x.ticked else x) := by
  unfold shelfTicked
  split
  · next e hf =>
    have hep : e.point = p := by simpa using List.find?_some hf
    have hel : e ∈ l := List.mem_of_find?_eq_some hf
    subst hep
    have hrest : ((removeShelf e.point l).map fun x => if x.point = e.point then x.ticked else x)
        = removeShelf e.point l :=
      (List.map_congr_left fun x hx => if_neg (mem_removeShelf.1 hx).2).trans (List.map_id' _)
    have hmap : (l.map fun x => if x.point = e.point then x.ticked else x).Perm (e.ticked :: removeShelf e.point l) := by
      refine ((perm_cons_removeShelf hn hel).map _).trans ?_
      rw [List.map_cons, if_pos rfl, hrest]
    split
    · next hle =>
      rw [ShelfEntry.ticked_of_le hle] at hmap
      exact (perm_cons_removeShelf hn hel).trans hmap.symm
    · next hlt =>
      rw [ShelfEntry.ticked_of_lt (by omega)] at hmap
      exact (placeShelf_perm ..).trans hmap.symm
  · next hf =>
    rw [List.find?_eq_none] at hf
    have hid : (l.map fun x => if x.point = p then x.ticked else x) = l :=
      (List.map_congr_left fun x hx => if_neg (by simpa using hf x hx)).trans (List.map_id' _)
    rw [hid]

theorem foldl_shelfTicked_perm {ns : List Nat} (hns : ns.Nodup) {l : List ShelfEntry}
    (hn : (l.map fun x => x.point).Nodup) :
    (ns.foldl (fun l p => shelfTicked p l) l).Perm (l.map fun x => if x.point ∈ ns then x.ticked else x) := by
  rw [← foldl_map_at ShelfEntry.ticked_point hns]
  induction ns generalizing l with
  | nil => exact .refl _
  | cons n ns ih =>
    have hns' := (List.nodup_cons.1 hns).2
    have hperm := shelfTicked_perm hn n
    have hpoints : ((l.map fun x => if x.point = n then x.ticked else x).map fun x => x.point) = l.map fun x => x.point := by
      rw [List.map_map]
      refine List.map_congr_left fun x _ => ?_
      dsimp only [Function.comp]
      split <;> rfl
    have hn' : ((shelfTicked n l).map fun x => x.point).Nodup := (hperm.map _).nodup_iff.2 (hpoints ▸ hn)
    refine (ih hns' hn').trans ?_
    rw [foldl_map_at ShelfEntry.ticked_point hns', List.foldl_cons, foldl_map_at ShelfEntry.ticked_point hns']
    exact hperm.map _

/-- Every entry, none left out and none twice. -/
theorem foldl_shelfTicked_mem {l : List ShelfEntry} (hn : (l.map fun x => x.point).Nodup) (e : ShelfEntry) :
    e ∈ (l.map fun x => x.point).foldl (fun l p => shelfTicked p l) l ↔ ∃ x ∈ l, e = x.ticked := by
  rw [(foldl_shelfTicked_perm hn hn).mem_iff]
  simp only [List.mem_map]
  refine exists_congr fun x => and_congr_right fun hx => ?_
  rw [if_pos ⟨x, hx, rfl⟩]
  exact eq_comm

theorem placeShelf_between {e : ShelfEntry} {l r : List ShelfEntry} (hl : ∀ x ∈ l, x.ticks ≤ e.ticks)
    (hr : ∀ x ∈ r, e.ticks < x.ticks) : placeShelf e (l ++ r) = l ++ e :: r := by
  induction l with
  | nil =>
    cases r with
    | nil => rfl
    | cons x r => exact if_pos (hr x List.mem_cons_self)
  | cons x l ih =>
    refine (if_neg (Nat.not_lt.2 (hl x List.mem_cons_self))).trans ?_
    exact congrArg (x :: ·) (ih fun y hy => hl y (List.mem_cons_of_mem _ hy))

/-- In a list in ascending order each entry keeps its place: those before it have been counted, those behind it not. -/
theorem foldl_shelfTicked_sorted (done rest : List ShelfEntry) (hn : ((done ++ rest).map fun x => x.point).Nodup)
    (hs : (done ++ rest).Pairwise fun x y => x.ticks ≤ y.ticks) :
    (rest.map fun x => x.point).foldl (fun l p => shelfTicked p l) (done.map ShelfEntry.ticked ++ rest)
      = (done ++ rest).map ShelfEntry.ticked := by
  induction rest generalizing done with
  | nil => simp
  | cons e rest ih =>
    have hstep : shelfTicked e.point (done.map ShelfEntry.ticked ++ e :: rest)
        = (done ++ [e]).map ShelfEntry.ticked ++ rest := by
      have hdone : ∀ x ∈ done, x.ticks ≤ e.ticks := fun x hx =>
        (List.pairwise_append.1 hs).2.2 x hx e List.mem_cons_self
      have hrest : ∀ x ∈ rest, e.ticks ≤ x.ticks := (List.pairwise_cons.1 (List.pairwise_append.1 hs).2.1).1
      have hout : ∀ x ∈ done ++ rest, x.point ≠ e.point := by
        have hmid := (List.perm_middle (a := e) (l₁ := done) (l₂ := rest)).map fun x => x.point
        have hnot := (List.nodup_cons.1 (hmid.nodup_iff.1 hn)).1
        exact fun x hx hxe => hnot (List.mem_map.2 ⟨x, hx, hxe⟩)
      have hfind : ((done.map ShelfEntry.ticked ++ e :: rest).find? fun x => x.point == e.point) = some e := by
        have hnone : ((done.map ShelfEntry.ticked).find? fun x => x.point == e.point) = none := by
          simpa [List.find?_eq_none, ShelfEntry.ticked_point] using fun x hx => hout x (List.mem_append_left _ hx)
        rw [List.find?_append, hnone, Option.none_or]
        exact List.find?_cons_of_pos (beq_self_eq_true e.point)
      have hremove : removeShelf e.point (done.map ShelfEntry.ticked ++ e :: rest)
          = done.map ShelfEntry.ticked ++ rest := by
        unfold removeShelf
        rw [List.filter_append, List.filter_cons_of_neg (by simp), List.filter_eq_self.2, List.filter_eq_self.2]
        · simpa using fun x hx => hout x (List.mem_append_right _ hx)
        · simpa [ShelfEntry.ticked_point] using fun x hx => hout x (List.mem_append_left _ hx)
      unfold shelfTicked
      rw [hfind]
      dsimp only
      split
      · next hle => simp [ShelfEntry.ticked_of_le hle]
      · next hlt =>
        have hlt : 1 < e.ticks := Nat.not_le.1 hlt
        rw [hremove, ← ShelfEntry.ticked_of_lt hlt, placeShelf_between]
        · simp
        · intro x hx
          obtain ⟨y, hy, rfl⟩ := List.mem_map.1 hx
          have hye := hdone y hy
          unfold ShelfEntry.ticked
          dsimp only
          split <;> omega
        · intro x hx
          have hex := hrest x hx
          rw [ShelfEntry.ticked_of_lt hlt]
          dsimp only
          omega
    rw [List.map_cons, List.foldl_cons, hstep, ih (done ++ [e]) (by simpa using hn) (by simpa using hs)]
    simp

end Sys2Proof.Machine

namespace Sys2Proof.Machine

/-! ## What expires is not moved by the work before it (R161) -/

theorem Area.graceTicked_load (r : Area) : r.graceTicked.load = r.load := by unfold Area.graceTicked; split <;> rfl

theorem Area.graceTicked_flood (r : Area) : r.graceTicked.flood = r.flood := by unfold Area.graceTicked; split <;> rfl

theorem Area.decayedOnce_authority (off : Nat) (r : Area) : (r.decayedOnce off).authority = r.authority := by
  unfold Area.decayedOnce; split <;> rfl

theorem Area.decayedOnce_graceLeft (off : Nat) (r : Area) : (r.decayedOnce off).graceLeft = r.graceLeft := by
  unfold Area.decayedOnce; split <;> rfl

theorem Controller.waitTicked_live (c : Controller) : c.waitTicked.live = c.live := by
  unfold Controller.waitTicked; split <;> rfl

theorem Controller.waitTicked_silence (c : Controller) : c.waitTicked.silence = c.silence := by
  unfold Controller.waitTicked; split <;> rfl

theorem Controller.silenceTicked_phase (c : Controller) : c.silenceTicked.phase = c.phase := by
  unfold Controller.silenceTicked; split <;> rfl

theorem Controller.silenceTicked_wait (c : Controller) : c.silenceTicked.wait = c.wait := by
  unfold Controller.silenceTicked; split <;> rfl

theorem Console.silenceTicked_rateHold (c : Console) : c.silenceTicked.rateHold = c.rateHold := by unfold Console.silenceTicked; split <;> rfl

theorem Console.silenceTicked_loginHold (c : Console) : c.silenceTicked.loginHold = c.loginHold := by unfold Console.silenceTicked; split <;> rfl

theorem Console.rateTicked_attached (c : Console) : c.rateTicked.attached = c.attached := by unfold Console.rateTicked; split <;> rfl

theorem Console.rateTicked_silence (c : Console) : c.rateTicked.silence = c.silence := by unfold Console.rateTicked; split <;> rfl

theorem Console.rateTicked_loginHold (c : Console) : c.rateTicked.loginHold = c.loginHold := by unfold Console.rateTicked; split <;> rfl

theorem Console.loginTicked_attached (c : Console) : c.loginTicked.attached = c.attached := by unfold Console.loginTicked; split <;> rfl

theorem Console.loginTicked_silence (c : Console) : c.loginTicked.silence = c.silence := by unfold Console.loginTicked; split <;> rfl

theorem Console.loginTicked_rateHold (c : Console) : c.loginTicked.rateHold = c.rateHold := by unfold Console.loginTicked; split <;> rfl

theorem find?_placeShelf {p : Nat} {e : ShelfEntry} (h : e.point ≠ p) (l : List ShelfEntry) :
    ((placeShelf e l).find? fun x => x.point == p) = l.find? fun x => x.point == p := by
  induction l with
  | nil => simp [placeShelf, h]
  | cons x l ih =>
    unfold placeShelf
    split
    · exact List.find?_cons_of_neg (by simpa using h)
    · rw [List.find?_cons, List.find?_cons, ih]

theorem find?_removeShelf {p q : Nat} (h : q ≠ p) (l : List ShelfEntry) :
    ((removeShelf q l).find? fun x => x.point == p) = l.find? fun x => x.point == p := by
  unfold removeShelf
  rw [List.find?_filter]
  refine congrArg (fun f => l.find? f) (funext fun x => ?_)
  by_cases hx : x.point = p
  · simp [hx, h.symm]
  · simp [hx]

theorem find?_shelfTicked {p q : Nat} (h : q ≠ p) (l : List ShelfEntry) :
    ((shelfTicked q l).find? fun x => x.point == p) = l.find? fun x => x.point == p := by
  unfold shelfTicked
  split
  · next e he =>
    split
    · rfl
    · have heq : e.point = q := by simpa using List.find?_some he
      rw [find?_placeShelf (by rw [heq]; exact h), find?_removeShelf h]
  · rfl

section
variable {s : State}

theorem record_tickOne_handover {m n : Nat} (h : n ≠ m) : (tickOne s (.handover m)).record n = s.record n := by
  cases he : expires (.handover m) s with
  | true => rw [tickOne_of_expires he]; rfl
  | false =>
    rw [tickOne_of_running he]
    unfold countDown
    dsimp only
    split
    · next g hg =>
      have hgm : g.number = m := by simpa using List.find?_some hg
      refine (congrArg (List.find? _) ?_).trans
        (find?_map_at (key := Handover.number) h (f := fun _ => g.counted) (fun _ _ => hgm) s.records)
      rw [← hgm]
      rfl
    · rfl

theorem command_tickOne_confirm {m n : Nat} (h : n ≠ m) :
    ((tickOne s (.confirm m)).commands.find? fun c => c.tag == n) = s.commands.find? fun c => c.tag == n := by
  cases he : expires (.confirm m) s with
  | true => rw [tickOne_of_expires he]
  | false =>
    rw [tickOne_of_running he]
    exact find?_map_at (key := Command.tag) h (f := fun c => { c with ticks := c.ticks - 1 }) (fun _ hx => hx) s.commands

variable {x : TickItem} (h : x ≠ .time)
include h

theorem tickOne_tables : (tickOne s x).tables = s.tables := by rw [(tickOne_partKept (s := s) h).rest]

theorem tickOne_time : (tickOne s x).time = s.time := by rw [(tickOne_partKept (s := s) h).rest]

theorem expires_tickOne {y : TickItem} (hxy : x ≠ y) : expires y (tickOne s x) = expires y s := by
  have hkeep := tickOne_partKept (s := s) h
  have htables := tickOne_tables (s := s) h
  cases y with
  | chatter p =>
    unfold expires chatterEnds State.pointDef
    dsimp only
    rw [dynOf_tickOne h, if_neg hxy, htables]
  | shelf p =>
    unfold expires State.shelfEntry
    dsimp only
    rw [shelf_tickOne h]
    unfold shelfAfter
    split
    · next q => rw [find?_shelfTicked fun hq => hxy (congrArg _ hq)]
    · rfl
  | load a =>
    unfold expires floodEnds State.areaParams
    dsimp only
    rw [area_tickOne h, if_neg hxy, htables]
    split
    · rw [Area.graceTicked_flood, Area.graceTicked_load]
    · rfl
  | grace a =>
    unfold expires
    dsimp only
    rw [area_tickOne h, if_neg hxy]
    split
    · rw [Area.decayedOnce_authority, Area.decayedOnce_graceLeft]
    · rfl
  | controllerSilence c =>
    unfold expires
    dsimp only
    rw [lookup_controllers_tickOne h, if_neg hxy]
    split
    · rw [Option.any_map]
      simp only [Controller.waitTicked_live, Controller.waitTicked_silence]
    · rfl
  | resyncWait c =>
    unfold expires
    dsimp only
    rw [lookup_controllers_tickOne h, if_neg hxy]
    split
    · rw [Option.any_map]
      simp only [Controller.silenceTicked_phase, Controller.silenceTicked_wait]
    · rfl
  | consoleSilence c =>
    unfold expires
    dsimp only
    rw [lookup_consoles_tickOne h, if_neg hxy]
    split
    · rw [Option.any_map]
      simp only [Console.rateTicked_attached, Console.rateTicked_silence]
    · split
      · rw [Option.any_map]
        simp only [Console.loginTicked_attached, Console.loginTicked_silence]
      · rfl
  | rateHold c =>
    unfold expires
    dsimp only
    rw [lookup_consoles_tickOne h, if_neg hxy]
    split
    · rw [Option.any_map]
      simp only [Console.silenceTicked_rateHold]
    · split
      · rw [Option.any_map]
        simp only [Console.loginTicked_rateHold]
      · rfl
  | loginHold c =>
    unfold expires
    dsimp only
    rw [lookup_consoles_tickOne h, if_neg hxy]
    split
    · rw [Option.any_map]
      simp only [Console.silenceTicked_loginHold]
    · split
      · rw [Option.any_map]
        simp only [Console.rateTicked_loginHold]
      · rfl
  | handover n =>
    have hrec : (tickOne s x).record n = s.record n := by
      cases x with
      | handover m => exact record_tickOne_handover fun hnm => hxy (congrArg _ hnm.symm)
      | _ => exact congrArg (List.find? _) (hkeep.records nofun)
    unfold expires handoverEnds attendEnds
    dsimp only
    rw [hrec]
  | confirm t =>
    have hcmd : ((tickOne s x).commands.find? fun c => c.tag == t) = s.commands.find? fun c => c.tag == t := by
      cases x with
      | confirm m => exact command_tickOne_confirm fun hnm => hxy (congrArg _ hnm.symm)
      | _ => exact congrArg (List.find? _) (hkeep.commands nofun)
    unfold expires
    dsimp only
    rw [hcmd]
  | time =>
    unfold expires
    dsimp only
    rw [tickOne_time h]

end

/-! ## The countdown work of a whole tick -/

theorem ne_time_of_cons {x : TickItem} {l : List TickItem} (hl : TickItem.time ∉ x :: l) :
    x ≠ .time ∧ TickItem.time ∉ l :=
  ⟨fun h => hl (h ▸ List.mem_cons_self), fun h => hl (List.mem_cons_of_mem _ h)⟩

section
variable {l : List TickItem} (hl : TickItem.time ∉ l)
include hl

/-- A counter that each piece of work moves by a rule of its own is moved by the rules in turn. -/
theorem foldl_tickOne_obs {β : Type} (obs : State → β) (F : TickItem → β → β) (P : State → Prop)
    (hstep : ∀ s x, x ≠ .time → P s → P (tickOne s x) ∧ obs (tickOne s x) = F x (obs s)) {s : State} (hs : P s) :
    P (l.foldl tickOne s) ∧ obs (l.foldl tickOne s) = l.foldl (fun o x => F x o) (obs s) := by
  induction l generalizing s with
  | nil => exact ⟨hs, rfl⟩
  | cons x l ih =>
    obtain ⟨hx, hl'⟩ := ne_time_of_cons hl
    obtain ⟨hP, hobs⟩ := hstep s x hx hs
    rw [List.foldl_cons, List.foldl_cons, ← hobs]
    exact ih hl' hP

theorem foldl_tickOne_frame (s : State) : l.foldl tickOne s = { s with
    dyn := (l.foldl tickOne s).dyn, shelf := (l.foldl tickOne s).shelf, areas := (l.foldl tickOne s).areas
    controllers := (l.foldl tickOne s).controllers, consoles := (l.foldl tickOne s).consoles
    records := (l.foldl tickOne s).records, commands := (l.foldl tickOne s).commands
    owed := (l.foldl tickOne s).owed, statSent := (l.foldl tickOne s).statSent } := by
  induction l generalizing s with
  | nil => rfl
  | cons x l ih =>
    obtain ⟨hx, hl'⟩ := ne_time_of_cons hl
    rw [List.foldl_cons, ih hl', (tickOne_partKept (s := s) hx).rest]

/-- What ends something is owed, in the order of the work. -/
theorem foldl_tickOne_owed (hn : l.Nodup) (s : State) :
    (l.foldl tickOne s).owed = s.owed ++ l.filter fun x => expires x s := by
  induction l generalizing s with
  | nil => simp
  | cons x l ih =>
    obtain ⟨hx, hl'⟩ := ne_time_of_cons hl
    obtain ⟨hxl, hn'⟩ := List.nodup_cons.1 hn
    have hfilter : (l.filter fun y => expires y (tickOne s x)) = l.filter fun y => expires y s :=
      List.filter_congr fun y hy => expires_tickOne hx fun hxy => hxl (hxy ▸ hy)
    rw [List.foldl_cons, ih hl' hn', tickOne_owed hx, hfilter, List.filter_cons]
    split <;> simp

end

end Sys2Proof.Machine

namespace Sys2Proof.Machine

/-! ## The countdown work of one tick (R161) -/

/-- The tick work of every block but the time base. -/
def countItems (s : State) : List TickItem :=
  ((keys (s.dyn.filter fun e => 0 < e.2.score || e.2.held)).map TickItem.chatter)
    ++ (s.shelf.map fun e => TickItem.shelf e.point)
    ++ ((allAreas.filter fun a => 0 < (s.area a).load || (s.area a).flood).map TickItem.load)
    ++ ((keys (s.controllers.filter fun e => e.2.live)).map TickItem.controllerSilence)
    ++ ((keys (s.controllers.filter fun e => e.2.phase != .idle)).map TickItem.resyncWait)
    ++ ((keys (s.consoles.filter fun e => e.2.attached)).map TickItem.consoleSilence)
    ++ ((keys (s.consoles.filter fun e => 0 < e.2.rateHold)).map TickItem.rateHold)
    ++ ((keys (s.consoles.filter fun e => 0 < e.2.loginHold)).map TickItem.loginHold)
    ++ ((allAreas.filter fun a => (s.area a).authority == .grace).map TickItem.grace)
    ++ (s.records.map fun h => TickItem.handover h.number)
    ++ (s.commands.map fun c => TickItem.confirm c.tag)

theorem tickItems_eq (s : State) : tickItems s = countItems s ++ [.time] := rfl

theorem time_notMem_countItems (s : State) : TickItem.time ∉ countItems s := by
  simp [countItems]

/-- The state after the countdown work of a tick. -/
def State.counted (s : State) : State := (countItems s).foldl tickOne s

theorem disjoint_map_map {α β γ : Type} {f : α → γ} {g : β → γ} (h : ∀ x y, f x ≠ g y) {l : List α} {m : List β} :
    (l.map f).Disjoint (m.map g) := by
  intro z hf hg
  obtain ⟨x, -, rfl⟩ := List.mem_map.1 hf
  obtain ⟨y, -, hy⟩ := List.mem_map.1 hg
  exact h x y hy.symm

theorem foldl_at {β : Type} {l : List Nat} (hl : l.Nodup) (a : Nat) (g : β → β) (o : β) :
    l.foldl (fun o b => if b = a then g o else o) o = if a ∈ l then g o else o := by
  induction l generalizing o with
  | nil => rfl
  | cons b l ih =>
    obtain ⟨hb, hl'⟩ := List.nodup_cons.1 hl
    rw [List.foldl_cons, ih hl']
    by_cases hba : b = a
    · subst hba
      simp [hb]
    · simp [hba, Ne.symm hba]

/-- A key not among those of the entries `q` picks has none that `q` picks. -/
theorem of_notMem_keys {α : Type} {l : List (Nat × α)} {q : Nat × α → Bool} {a : Nat} (h : a ∉ keys (l.filter q)) {c : α}
    (hc : lookup l a = some c) : q (a, c) = false := by
  by_contra hq
  exact h (List.mem_map.2 ⟨(a, c), List.mem_filter.2 ⟨mem_of_lookup hc, by simpa using hq⟩, rfl⟩)

theorem foldl_keys_map {α : Type} {l : List (Nat × α)} (hl : risingKeys l = true) {q : Nat × α → Bool} {f g : α → α}
    {a : Nat} (hg : ∀ c, q (a, c) = false → g (f c) = f c) :
    (keys (l.filter q)).foldl (fun o b => if b = a then Option.map g o else o) ((lookup l a).map f)
      = (lookup l a).map fun c => g (f c) := by
  rw [foldl_at (keys_nodup hl q)]
  split
  · rw [Option.map_map]
    rfl
  · next h => exact Option.map_congr fun c hc => (hg c (of_notMem_keys h hc)).symm

theorem foldl_keys_map_fst {α : Type} {l : List (Nat × α)} (hl : risingKeys l = true) {q : Nat × α → Bool}
    {g : α → α} {a : Nat} (hg : ∀ c, q (a, c) = false → g c = c) :
    (keys (l.filter q)).foldl (fun o b => if b = a then Option.map g o else o) (lookup l a) = (lookup l a).map g := by
  have h := foldl_keys_map (f := id) hl hg
  rwa [Option.map_id] at h

theorem foldl_at_areas {q : Nat → Bool} {a : Nat} (ha : a < 16) {g : Area → Area} {r : Area}
    (hg : q a = false → g r = r) : (allAreas.filter q).foldl (fun o b => if b = a then g o else o) r = g r := by
  have hn : (allAreas.filter q).Nodup := List.nodup_range.filter q
  rw [foldl_at hn]
  split
  · rfl
  · next h =>
    refine (hg ?_).symm
    by_contra hq
    exact h (List.mem_filter.2 ⟨(List.mem_range.2 ha : a ∈ allAreas), by simpa using hq⟩)

theorem Controller.silenceTicked_of_stale {c : Controller} (h : c.live = false) : c.silenceTicked = c :=
  if_neg fun hn => Bool.false_ne_true (h.symm.trans hn.1)

theorem Controller.waitTicked_of_idle {c : Controller} (h : c.phase = .idle) : c.waitTicked = c := if_neg fun hn => hn.1 h

theorem Console.silenceTicked_of_detached {c : Console} (h : c.attached = false) : c.silenceTicked = c :=
  if_neg fun hn => Bool.false_ne_true (h.symm.trans hn.1)

theorem Console.rateTicked_of_free {c : Console} (h : c.rateHold = 0) : c.rateTicked = c := by
  have hstay : c.rateHold - 1 = c.rateHold := by omega
  unfold Console.rateTicked
  rw [if_neg (by omega), hstay]

theorem Console.loginTicked_of_free {c : Console} (h : c.loginHold = 0) : c.loginTicked = c := by
  have hstay : c.loginHold - 1 = c.loginHold := by omega
  unfold Console.loginTicked
  rw [if_neg (by omega), hstay]

theorem PointDyn.ticked_of_quiet {d : PointDyn} {off : Nat} (hs : d.score = 0) : d.ticked off = d := by
  have hstay : d.score - 1 = d.score := by omega
  unfold PointDyn.ticked
  rw [hstay, ite_self]

theorem Area.decayedOnce_of_quiet {r : Area} {off : Nat} (hl : r.load = 0) : r.decayedOnce off = r := by
  have hstay : decayed r.load = r.load := by rw [hl]; rfl
  unfold Area.decayedOnce
  rw [hstay, ite_self]

theorem Area.graceTicked_of_held {r : Area} (h : r.authority ≠ .grace) : r.graceTicked = r := if_neg fun hn => h hn.1

section
variable (s : State)

theorem counted_dynOf (hk : risingKeys s.dyn = true) (p : Nat) :
    s.counted.dynOf p = (s.dynOf p).ticked (s.pointDef p).chatterOff := by
  have hobs := (foldl_tickOne_obs (s := s) (time_notMem_countItems s) (fun t => t.dynOf p)
    (fun x d => if x = .chatter p then d.ticked (s.pointDef p).chatterOff else d) (fun t => t.tables = s.tables)
    (fun t x hx ht => ⟨(tickOne_tables hx).trans ht, by
      rw [dynOf_tickOne hx]
      unfold State.pointDef
      rw [ht]⟩) rfl).2
  refine hobs.trans ?_
  simp only [countItems, List.foldl_append, List.foldl_map, TickItem.chatter.injEq, reduceCtorEq, if_false,
    List.foldl_fixed]
  rw [foldl_at (keys_nodup hk _)]
  split
  · rfl
  · next h =>
    refine (PointDyn.ticked_of_quiet ?_).symm
    unfold State.dynOf
    cases hd : lookup s.dyn p with
    | none => rfl
    | some d =>
      have hq := of_notMem_keys h hd
      simp only [Bool.or_eq_false_iff, decide_eq_false_iff_not] at hq
      exact Nat.eq_zero_of_not_pos hq.1

theorem counted_area {a : Nat} (ha : a < 16) :
    s.counted.area a = ((s.area a).decayedOnce (s.areaParams a).fOff).graceTicked := by
  have hobs := (foldl_tickOne_obs (s := s) (time_notMem_countItems s) (fun t => t.area a)
    (fun x r => if x = .load a then r.decayedOnce (s.areaParams a).fOff else if x = .grace a then r.graceTicked else r)
    (fun t => t.tables = s.tables)
    (fun t x hx ht => ⟨(tickOne_tables hx).trans ht, by
      rw [area_tickOne hx]
      unfold State.areaParams
      rw [ht]⟩) rfl).2
  refine hobs.trans ?_
  simp only [countItems, List.foldl_append, List.foldl_map, TickItem.load.injEq, TickItem.grace.injEq, reduceCtorEq,
    if_false, List.foldl_fixed]
  rw [foldl_at_areas ha (g := Area.decayedOnce (s.areaParams a).fOff), foldl_at_areas ha (g := Area.graceTicked)]
  · intro hq
    refine Area.graceTicked_of_held ?_
    rw [Area.decayedOnce_authority]
    simpa using hq
  · intro hq
    simp only [Bool.or_eq_false_iff, decide_eq_false_iff_not] at hq
    exact Area.decayedOnce_of_quiet (Nat.eq_zero_of_not_pos hq.1)

theorem counted_controllers (hk : risingKeys s.controllers = true) (a : Nat) :
    lookup s.counted.controllers a = (lookup s.controllers a).map fun c => c.silenceTicked.waitTicked := by
  have hobs := (foldl_tickOne_obs (s := s) (time_notMem_countItems s) (fun t => lookup t.controllers a)
    (fun x o => if x = .controllerSilence a then o.map .silenceTicked
      else if x = .resyncWait a then o.map .waitTicked else o)
    (fun _ => True) (fun t x hx _ => ⟨trivial, lookup_controllers_tickOne hx a⟩) trivial).2
  refine hobs.trans ?_
  simp only [countItems, List.foldl_append, List.foldl_map, TickItem.controllerSilence.injEq, TickItem.resyncWait.injEq,
    reduceCtorEq, if_false, List.foldl_fixed]
  rw [foldl_keys_map_fst hk fun c hc => Controller.silenceTicked_of_stale hc,
    foldl_keys_map hk (f := Controller.silenceTicked) (g := Controller.waitTicked)]
  intro c hc
  exact Controller.waitTicked_of_idle ((Controller.silenceTicked_phase c).trans (by simpa using hc))

theorem counted_consoles (hk : risingKeys s.consoles = true) (a : Nat) :
    lookup s.counted.consoles a = (lookup s.consoles a).map fun c => c.silenceTicked.rateTicked.loginTicked := by
  have hobs := (foldl_tickOne_obs (s := s) (time_notMem_countItems s) (fun t => lookup t.consoles a)
    (fun x o => if x = .consoleSilence a then o.map .silenceTicked
      else if x = .rateHold a then o.map .rateTicked else if x = .loginHold a then o.map .loginTicked else o)
    (fun _ => True) (fun t x hx _ => ⟨trivial, lookup_consoles_tickOne hx a⟩) trivial).2
  refine hobs.trans ?_
  simp only [countItems, List.foldl_append, List.foldl_map, TickItem.consoleSilence.injEq, TickItem.rateHold.injEq,
    TickItem.loginHold.injEq, reduceCtorEq, if_false, List.foldl_fixed]
  rw [foldl_keys_map_fst hk fun c hc => Console.silenceTicked_of_detached hc,
    foldl_keys_map hk (f := Console.silenceTicked) (g := Console.rateTicked),
    foldl_keys_map hk (f := fun c => c.silenceTicked.rateTicked) (g := Console.loginTicked)]
  · intro c hc
    refine Console.loginTicked_of_free ?_
    rw [Console.rateTicked_loginHold, Console.silenceTicked_loginHold]
    simpa using hc
  · intro c hc
    refine Console.rateTicked_of_free ?_
    rw [Console.silenceTicked_rateHold]
    simpa using hc

theorem counted_consoles_rising (hk : risingKeys s.consoles = true) : risingKeys s.counted.consoles = true :=
  (foldl_tickOne_obs (s := s) (time_notMem_countItems s) (fun _ => ()) (fun _ o => o) (fun t => risingKeys t.consoles = true)
    (fun _ _ hx ht => ⟨consoles_tickOne_rising hx ht, rfl⟩) hk).1

theorem counted_records (hn : (s.records.map fun h => h.number).Nodup) :
    s.counted.records = s.records.map Handover.ticked := by
  have hobs := (foldl_tickOne_obs (s := s) (time_notMem_countItems s) (fun t => t.records)
    recordsAfter (fun t => (t.records.map fun h => h.number).Nodup) (fun t x hx ht => ⟨?_, records_tickOne hx ht⟩) hn).2
  · refine hobs.trans ?_
    simp only [countItems, List.foldl_append, List.foldl_map, recordsAfter, List.foldl_fixed]
    exact (List.foldl_map ..).symm.trans (foldl_map_at_all Handover.ticked_number hn)
  · rw [records_tickOne hx ht]
    unfold recordsAfter
    split
    · next n =>
      rw [List.map_map]
      refine (congrArg List.Nodup (List.map_congr_left fun h _ => ?_)).mp ht
      dsimp only [Function.comp]
      split
      · exact h.ticked_number.symm
      · rfl
    · exact ht

theorem counted_commands (hn : (s.commands.map fun c => c.tag).Nodup) :
    s.counted.commands = s.commands.map Command.ticked := by
  have hobs := (foldl_tickOne_obs (s := s) (time_notMem_countItems s) (fun t => t.commands)
    commandsAfter (fun t => (t.commands.map fun c => c.tag).Nodup) (fun t x hx ht => ⟨?_, commands_tickOne hx ht⟩) hn).2
  · refine hobs.trans ?_
    simp only [countItems, List.foldl_append, List.foldl_map, commandsAfter, List.foldl_fixed]
    exact (List.foldl_map ..).symm.trans (foldl_map_at_all Command.ticked_tag hn)
  · rw [commands_tickOne hx ht]
    unfold commandsAfter
    split
    · next n =>
      rw [List.map_map]
      refine (congrArg List.Nodup (List.map_congr_left fun c _ => ?_)).mp ht
      dsimp only [Function.comp]
      split
      · exact c.ticked_tag.symm
      · rfl
    · exact ht

theorem counted_shelf : s.counted.shelf = (s.shelf.map fun x => x.point).foldl (fun l p => shelfTicked p l) s.shelf := by
  have hobs := (foldl_tickOne_obs (s := s) (time_notMem_countItems s) (fun t => t.shelf)
    shelfAfter
    (fun _ => True) (fun t x hx _ => ⟨trivial, shelf_tickOne hx⟩) trivial).2
  refine hobs.trans ?_
  simp only [countItems, List.foldl_append, List.foldl_map, shelfAfter, List.foldl_fixed]

theorem counted_shelf_mem (hn : (s.shelf.map fun x => x.point).Nodup) (e : ShelfEntry) :
    e ∈ s.counted.shelf ↔ ∃ x ∈ s.shelf, e = x.ticked := by
  rw [counted_shelf]
  exact foldl_shelfTicked_mem hn e

theorem counted_shelf_of_sorted (hn : (s.shelf.map fun x => x.point).Nodup)
    (hs : s.shelf.Pairwise fun x y => x.ticks ≤ y.ticks) : s.counted.shelf = s.shelf.map ShelfEntry.ticked := by
  rw [counted_shelf]
  exact foldl_shelfTicked_sorted [] s.shelf hn hs

theorem countItems_nodup (hk : s.KeysRise) (hn : s.NumbersApart) : (countItems s).Nodup := by
  obtain ⟨-, -, -, hdyn, -, -, hcons, hctl, -⟩ := hk
  obtain ⟨hrec, -, hcmd, hshelf⟩ := hn
  have hareas (q : Nat → Bool) : (allAreas.filter q).Nodup := List.nodup_range.filter q
  have hrec' : (s.records.map fun h => TickItem.handover h.number).Nodup := by
    simpa [Function.comp_def] using hrec.map (f := TickItem.handover) fun _ _ => TickItem.handover.inj
  have hcmd' : (s.commands.map fun c => TickItem.confirm c.tag).Nodup := by
    simpa [Function.comp_def] using hcmd.map (f := TickItem.confirm) fun _ _ => TickItem.confirm.inj
  have hshelf' : (s.shelf.map fun e => TickItem.shelf e.point).Nodup := by
    simpa [Function.comp_def] using hshelf.map (f := TickItem.shelf) fun _ _ => TickItem.shelf.inj
  unfold countItems
  repeat refine List.Nodup.append ?_ ?_ (by
    simp only [List.disjoint_append_left]
    and_intros <;> refine disjoint_map_map fun _ _ => ?_ <;> exact nofun)
  · refine List.Nodup.append ((keys_nodup hdyn _).map fun _ _ => TickItem.chatter.inj) hshelf' ?_
    refine disjoint_map_map fun _ _ => ?_
    exact nofun
  · exact (hareas _).map fun _ _ => TickItem.load.inj
  · exact (keys_nodup hctl _).map fun _ _ => TickItem.controllerSilence.inj
  · exact (keys_nodup hctl _).map fun _ _ => TickItem.resyncWait.inj
  · exact (keys_nodup hcons _).map fun _ _ => TickItem.consoleSilence.inj
  · exact (keys_nodup hcons _).map fun _ _ => TickItem.rateHold.inj
  · exact (keys_nodup hcons _).map fun _ _ => TickItem.loginHold.inj
  · exact (hareas _).map fun _ _ => TickItem.grace.inj
  · exact hrec'
  · exact hcmd'

end

end Sys2Proof.Machine

namespace Sys2Proof.Machine

/-! ## The beginning of a tick: the counts made zero and the LIVE telegrams (R93, R161, R174) -/

/-- The state in which the tick's LIVE telegrams are sent. -/
def State.atTick (s : State) : State :=
  { s with
    time := { s.time with elapsed := 0 }, consoles := s.consoles.map fun e => (e.1, { e.2 with requests := 0 })
    statSent := false }

/-- The state in which the blocks' tick work is taken. -/
def State.ticking (s : State) : State := sendLive .console (sendLive .plant s.atTick)

theorem sendLive_gateStep (p : PortId) (s : State) : GateStep s (sendLive p s) := by
  unfold sendLive
  split
  · exact sendEntry_gateStep ..
  · exact .refl s

theorem joinOwn_of_down {q : Port} (h : q.up = false) (e : OwnEntry) : q.joinOwn e = q :=
  joinOwn_noRoom _ _ (by simp [Port.ownRoom, h])

theorem sendLive_console_console (s : State) :
    (sendLive .console s).console = s.console.joinOwn ⟨generated s 0x01#8 255 0 0 0 [], false⟩ := by
  unfold sendLive
  split
  · exact sendEntry_console_console ..
  · next h => exact (joinOwn_of_down (by simpa [State.port] using h) _).symm

theorem sendLive_plant_plant (s : State) :
    (sendLive .plant s).plant = s.plant.joinOwn ⟨generated s 0x01#8 255 0 0 0 [], false⟩ := by
  unfold sendLive
  split
  · exact sendEntry_plant_plant ..
  · next h => exact (joinOwn_of_down (by simpa [State.port] using h) _).symm

theorem sendLive_plant_console (s : State) : (sendLive .plant s).console = s.console := by
  unfold sendLive
  split
  · exact sendEntry_plant_console ..
  · rfl

/-- The console port's LIVE leaves the plant port alone where it finds room or the link is DOWN. -/
theorem sendLive_console_plant {s : State} (h : s.console.ownRoom = true ∨ s.console.up = false) :
    (sendLive .console s).plant = s.plant := by
  unfold sendLive State.send State.sendEntry
  rcases h with h | h
  · split
    · rw [if_pos (show (s.port .console).ownRoom = true from h)]
      rfl
    · rfl
  · rw [if_neg (show ¬ (s.port .console).up = true by simpa [State.port] using h)]

theorem sendLive_commands (p : PortId) (s : State) : (sendLive p s).commands = s.commands := by
  unfold sendLive
  split
  · exact State.sendEntry_commands ..
  · rfl

theorem overdueStore_of_none {s : State} (h : s.store = none) : overdueStore s = s := by
  unfold overdueStore
  rw [h]
  exact if_neg Bool.false_ne_true

theorem tickStart_of_none {s : State} (h : s.store = none) : tickStart s = sendLive .console (sendLive .plant
    { s with
      time := { s.time with elapsed := 0 }
      consoles := s.consoles.map fun e => (e.1, { e.2 with requests := 0 }) }) := by
  unfold tickStart
  rw [h]
  rfl

section
variable (s : State)

theorem ticking_commands : s.ticking.commands = s.commands := (sendLive_commands ..).trans (sendLive_commands ..)

theorem ticking_frame : s.ticking = { s with
    time := { s.time with elapsed := 0 }, consoles := s.consoles.map fun e => (e.1, { e.2 with requests := 0 })
    plant := s.ticking.plant, console := s.ticking.console, latched := s.ticking.latched
    statSeq := s.ticking.statSeq, statSent := s.ticking.statSent } := by
  have h := ((sendLive_gateStep .plant s.atTick).trans (sendLive_gateStep .console _)).frame
  refine h.trans ?_
  rw [show (sendLive .console (sendLive .plant s.atTick)).commands = s.commands from ticking_commands s]
  rfl

theorem ticking_console : s.ticking.console = s.console.joinOwn ⟨generated s 0x01#8 255 0 0 0 [], false⟩ := by
  refine (sendLive_console_console _).trans ?_
  rw [sendLive_plant_console, (sendLive_gateStep .plant s.atTick).frame]
  rfl

theorem ticking_plant (h : s.console.ownRoom = true ∨ s.console.up = false) :
    s.ticking.plant = s.plant.joinOwn ⟨generated s 0x01#8 255 0 0 0 [], false⟩ := by
  refine (sendLive_console_plant ?_).trans (sendLive_plant_plant _)
  rw [sendLive_plant_console]
  exact h

theorem lookup_ticking (a : Nat) :
    lookup s.ticking.consoles a = (lookup s.consoles a).map fun c => { c with requests := 0 } := by
  rw [ticking_frame]
  exact lookup_map s.consoles (fun c => { c with requests := 0 }) a

theorem ticking_keysRise (h : s.KeysRise) : s.ticking.KeysRise := by
  rw [ticking_frame]
  obtain ⟨htab, hmem, hstore, hdyn, hslots, hareas, hcons, hrest⟩ := h
  refine ⟨htab, hmem, hstore, hdyn, hslots, hareas, ?_, hrest⟩
  rw [risingKeys_iff] at hcons ⊢
  exact List.pairwise_map.2 hcons

theorem ticking_numbersApart (h : s.NumbersApart) : s.ticking.NumbersApart := by
  rw [ticking_frame]
  exact h

/-- The request counts pick no piece of tick work. -/
theorem keys_filter_requests (q : Console → Bool) (hq : ∀ c : Console, q { c with requests := 0 } = q c)
    (l : List (Nat × Console)) :
    keys ((l.map fun e => (e.1, { e.2 with requests := 0 })).filter fun e => q e.2) = keys (l.filter fun e => q e.2) := by
  unfold keys
  rw [List.filter_map, List.map_map]
  simp only [Function.comp_def, hq]

theorem tickItems_ticking : tickItems s.ticking = tickItems s := by
  unfold tickItems
  rw [ticking_frame]
  dsimp only
  rw [keys_filter_requests Console.attached fun _ => rfl, keys_filter_requests (fun c => decide (0 < c.rateHold)) fun _ => rfl,
    keys_filter_requests (fun c => decide (0 < c.loginHold)) fun _ => rfl]
  rfl

theorem expires_ticking (x : TickItem) : expires x s.ticking = expires x s := by
  have hcons (c : Nat) (q : Console → Bool) (hq : ∀ k : Console, q { k with requests := 0 } = q k) :
      (lookup s.ticking.consoles c).any q = (lookup s.consoles c).any q := by
    rw [lookup_ticking, Option.any_map]
    simp only [hq]
  cases x with
  | consoleSilence c => exact hcons c _ fun _ => rfl
  | rateHold c => exact hcons c _ fun _ => rfl
  | loginHold c => exact hcons c _ fun _ => rfl
  | _ => rw [ticking_frame]; rfl

theorem exec_tick (hs : s.settled = true) (ho : s.owed = []) (hstore : s.store = none) :
    exec .tick s = .next (tickOne s.ticking.counted .time) := by
  have howed : completeOwed (enter s) = s.beginEvent := by
    rw [enter_of_settled hs]
    unfold completeOwed
    rw [show s.beginEvent.owed = [] from ho]
    rfl
  have hstart : tickStart (overdueStore (completeOwed (enter s)).beginEvent).beginEvent = s.ticking := by
    rw [howed, overdueStore_of_none (s := s.beginEvent.beginEvent) hstore,
      tickStart_of_none (s := s.beginEvent.beginEvent.beginEvent) hstore]
    rfl
  have hexec : exec .tick s = execTick s := rfl
  rw [hexec]
  unfold execTick
  dsimp only
  rw [hstart, tickItems_eq, List.foldl_append, List.foldl_cons, List.foldl_nil]
  unfold State.counted
  rfl

end

/-! ## The time base at a tick (R165 to R168) -/

theorem TimeBase.adjust_elapsed (b : TimeBase) (m : Nat × Nat) :
    (({ b with elapsed := 0 } : TimeBase).adjust m).2 = (b.adjust m).2 := by
  unfold TimeBase.adjust
  split
  · next h => rw [if_pos (show earlier m b.candidate = true from h)]
  · next h => rw [if_neg (show ¬ earlier m b.candidate = true from h)]; rfl

theorem TimeBase.tick_step (b : TimeBase) : b.tick.2 =
    match b.state with
    | .unset => false
    | .locked => if b.nextSilence ≥ Config.timeMasterLimit then false else b.lockedTick.2
    | .holdover => match b.pending with
      | some m => (({ b with state := .locked } : TimeBase).adjust m).2
      | none => false := by
  unfold TimeBase.tick
  cases hs : b.state with
  | unset => cases hp : b.pending <;> simp
  | locked => simp only; split <;> rfl
  | holdover => cases hp : b.pending <;> rfl

theorem TimeBase.lockedTick_elapsed (b : TimeBase) : ({ b with elapsed := 0 } : TimeBase).lockedTick.2 = b.lockedTick.2 := by
  obtain ⟨state, sec, ms, held, high, pending, projection, relock, silence, elapsed⟩ := b
  cases held with
  | false =>
    cases pending with
    | none => rfl
    | some m => exact TimeBase.adjust_elapsed ⟨state, sec, ms, false, high, some m, projection, relock, silence, elapsed⟩ m
  | true =>
    unfold TimeBase.lockedTick
    dsimp only
    rw [if_pos rfl, if_pos rfl]
    split <;> split <;> simp_all <;> rfl

theorem TimeBase.tick_elapsed (b : TimeBase) : ({ b with elapsed := 0 } : TimeBase).tick.2 = b.tick.2 := by
  rw [TimeBase.tick_step, TimeBase.tick_step]
  obtain ⟨state, sec, ms, held, high, pending, projection, relock, silence, elapsed⟩ := b
  cases state with
  | unset => rfl
  | locked => exact if_congr Iff.rfl rfl (TimeBase.lockedTick_elapsed _)
  | holdover =>
    cases pending with
    | none => rfl
    | some m => exact TimeBase.adjust_elapsed ⟨.locked, sec, ms, held, high, some m, projection, relock, silence, elapsed⟩ m

theorem TimeBase.adjust_state (b : TimeBase) (m : Nat × Nat) : (b.adjust m).1.state = b.state := by
  unfold TimeBase.adjust
  split <;> rfl

theorem TimeBase.lockedTick_state (b : TimeBase) : b.lockedTick.1.state = b.state := by
  unfold TimeBase.lockedTick
  cases b.held with
  | true =>
    rw [if_pos rfl]
    exact (apply_ite (fun r : TimeBase × Bool => r.1.state) ..).trans (ite_self _)
  | false =>
    rw [if_neg Bool.false_ne_true]
    split
    · exact b.adjust_state _
    · rfl

/-- The third tick in LOCKED without a mark. -/
def TimeBase.silent (b : TimeBase) : Bool := b.state == .locked && b.pending.isNone && decide (2 ≤ b.silence)

theorem TimeBase.silent_eq (b : TimeBase) :
    (b.state == .locked && decide (Config.timeMasterLimit ≤ b.nextSilence)) = b.silent := by
  unfold TimeBase.silent TimeBase.nextSilence Config.timeMasterLimit
  cases hp : b.pending with
  | none => simp
  | some m => simp

/-- A tick that is not the third in LOCKED without a mark enters no HOLDOVER. -/
theorem TimeBase.tick_state_ne_holdover {b : TimeBase} (h : b.silent = false) (hne : b.state ≠ .holdover) :
    b.tick.1.state ≠ .holdover := by
  unfold TimeBase.tick
  cases hs : b.state with
  | unset => cases hp : b.pending <;> simp [TimeBase.setValue, hs]
  | locked =>
    have hfew : ¬ b.nextSilence ≥ Config.timeMasterLimit := by
      have := b.silent_eq
      rw [h, hs] at this
      simpa using this
    dsimp only
    rw [if_neg hfew]
    dsimp only
    rw [TimeBase.lockedTick_state, hs]
    exact nofun
  | holdover => exact absurd hs hne

/-- The time base's own changes at a tick, with TIME_STEP where it steps (R165). -/
def stepFlag (s : State) : State :=
  if s.time.tick.2 then State.latch { s with time := s.time.tick.1 } .timeStep else { s with time := s.time.tick.1 }

/-- The same with TIME_HOLDOVER where it enters HOLDOVER (R167). -/
def timeFlags (s : State) : State :=
  if s.time.tick.1.state ≠ s.time.state ∧ s.time.tick.1.state = .holdover then (stepFlag s).latch .timeHoldover
  else stepFlag s

section
variable (s : State)

/-- A change of the time state is told to all (R168). -/
theorem timeWork_eq : timeWork s =
    if s.time.tick.1.state = s.time.state then timeFlags s
    else (timeFlags s).notifyAll (.timeState s.time.tick.1.state) := by
  have hunfold : timeWork s = if s.time.tick.1.state = s.time.state then stepFlag s
      else (if s.time.tick.1.state = .holdover then (stepFlag s).latch .timeHoldover else stepFlag s).notifyAll
        (.timeState s.time.tick.1.state) := rfl
  rw [hunfold]
  unfold timeFlags
  split
  · next h => rw [if_neg fun hn => hn.1 h]
  · next h => exact congrArg (State.notifyAll · _) (if_congr (and_iff_right h).symm rfl rfl)

theorem timeFlags_gateStep : GateStep { s with time := s.time.tick.1 } (timeFlags s) := by
  have hstep : GateStep { s with time := s.time.tick.1 } (stepFlag s) := by
    unfold stepFlag
    split
    · exact latch_gateStep ..
    · exact .refl _
  unfold timeFlags
  split
  · exact hstep.trans (latch_gateStep ..)
  · exact hstep

theorem timeFlags_commands : (timeFlags s).commands = s.commands := by
  unfold timeFlags stepFlag
  split <;> split <;> simp

theorem timeFlags_console : (timeFlags s).console = s.console := by
  unfold timeFlags stepFlag
  split <;> split <;> simp

theorem timeFlags_frame : timeFlags s = { s with
    time := s.time.tick.1, plant := (timeFlags s).plant, latched := (timeFlags s).latched
    statSeq := (timeFlags s).statSeq, statSent := (timeFlags s).statSent } := by
  refine (timeFlags_gateStep s).frame.trans ?_
  rw [timeFlags_commands, timeFlags_console]

theorem timeWork_frame : timeWork s = { s with
    time := s.time.tick.1, consoles := (timeWork s).consoles, plant := (timeFlags s).plant
    latched := (timeFlags s).latched, statSeq := (timeFlags s).statSeq, statSent := (timeFlags s).statSent } := by
  rw [timeWork_eq]
  split
  · rw [timeFlags_frame]
  · unfold State.notifyAll
    rw [notifyEach_frame, timeFlags_frame]

variable {s}

theorem timeFlags_plant (hstep : s.time.tick.2 = false) (hquiet : s.time.silent = false) :
    (timeFlags s).plant = s.plant := by
  unfold timeFlags stepFlag
  rw [hstep, if_neg Bool.false_ne_true, if_neg]
  rintro ⟨hne, hh⟩
  exact TimeBase.tick_state_ne_holdover hquiet (fun hs => hne (hh.trans hs.symm)) hh

theorem lookup_timeWork (hr : risingKeys s.consoles = true) (a : Nat) : lookup (timeWork s).consoles a =
    (lookup s.consoles a).map fun c =>
      if s.time.tick.1.state = s.time.state then c else c.take (.timeState s.time.tick.1.state) := by
  have hc : (timeFlags s).consoles = s.consoles := by rw [timeFlags_frame]
  rw [timeWork_eq]
  split
  · rw [hc]
    exact (Option.map_id' (x := lookup s.consoles a)).symm
  · rw [lookup_notifyAll (by rw [hc]; exact hr), hc]

end

end Sys2Proof.Machine

namespace Sys2Proof.Machine

/-! ## The counters as the tick leaves them -/

theorem PointDyn.ticked_eq (s : State) (p : Nat) : (s.dynOf p).ticked (s.pointDef p).chatterOff =
    if chatterEnds p s then s.dynOf p else { s.dynOf p with score := (s.dynOf p).score - 1 } := rfl

theorem decayed_eq (l : Nat) : decayed l = l - max (min 1 l) (l / 64) := by
  unfold decayed
  split
  · next h => simp [h]
  · next h => rw [Nat.min_eq_left (Nat.pos_of_ne_zero h)]

theorem Area.ticked_eq (s : State) (a : Nat) : ((s.area a).decayedOnce (s.areaParams a).fOff).graceTicked =
    { s.area a with
      load := if floodEnds a s then (s.area a).load
        else (s.area a).load - max (min 1 (s.area a).load) ((s.area a).load / 64)
      graceLeft := if (s.area a).authority = .grace ∧ 1 < (s.area a).graceLeft then (s.area a).graceLeft - 1
        else (s.area a).graceLeft } := by
  have hload : (s.area a).decayedOnce (s.areaParams a).fOff = { s.area a with
      load := if floodEnds a s then (s.area a).load
        else (s.area a).load - max (min 1 (s.area a).load) ((s.area a).load / 64) } := by
    rw [← decayed_eq]
    unfold Area.decayedOnce floodEnds
    split <;> rfl
  rw [hload]
  unfold Area.graceTicked
  dsimp only
  split <;> rfl

theorem Controller.ticked_eq (c : Controller) : c.silenceTicked.waitTicked = { c with
    silence := if c.live = true ∧ c.silence < 2 then c.silence + 1 else c.silence
    wait := if c.phase ≠ .idle ∧ 1 < c.wait then c.wait - 1 else c.wait } := by
  have hsilence : c.silenceTicked =
      { c with silence := if c.live = true ∧ c.silence < 2 then c.silence + 1 else c.silence } := by
    unfold Controller.silenceTicked
    split <;> rfl
  rw [hsilence]
  unfold Controller.waitTicked
  dsimp only
  split <;> rfl

/-- A console after its silence and both its holds have been counted. -/
theorem Console.ticked_eq (c : Console) : c.silenceTicked.rateTicked.loginTicked = { c with
    silence := if c.attached = true ∧ c.silence < 2 then c.silence + 1 else c.silence
    rateHold := if c.rateHold = 1 then 1 else c.rateHold - 1
    loginHold := if c.loginHold = 1 then 1 else c.loginHold - 1 } := by
  have hsilence : c.silenceTicked =
      { c with silence := if c.attached = true ∧ c.silence < 2 then c.silence + 1 else c.silence } := by
    unfold Console.silenceTicked
    split <;> rfl
  have hrate (k : Console) : k.rateTicked = { k with rateHold := if k.rateHold = 1 then 1 else k.rateHold - 1 } := by
    unfold Console.rateTicked
    split
    · next h => rw [← h]
    · rfl
  have hlogin (k : Console) : k.loginTicked = { k with loginHold := if k.loginHold = 1 then 1 else k.loginHold - 1 } := by
    unfold Console.loginTicked
    split
    · next h => rw [← h]
    · rfl
  rw [hsilence, hrate, hlogin]

section
variable (s : State)

theorem counted_frame : s.counted = { s with
    dyn := s.counted.dyn, shelf := s.counted.shelf, areas := s.counted.areas, controllers := s.counted.controllers
    consoles := s.counted.consoles, records := s.counted.records, commands := s.counted.commands
    owed := s.counted.owed, statSent := s.counted.statSent } :=
  foldl_tickOne_frame (time_notMem_countItems s) s

theorem expires_time : expires .time s = s.time.silent := s.time.silent_eq

/-- What the tick leaves owed beside the time base's own work. -/
theorem counted_ticking_owed (hk : s.KeysRise) (hn : s.NumbersApart) (ho : s.owed = []) :
    s.ticking.counted.owed = (countItems s).filter fun x => expires x s := by
  have hitems : countItems s.ticking = countItems s := List.append_cancel_right (tickItems_ticking s)
  have howed : s.ticking.owed = [] := by rw [ticking_frame]; exact ho
  have hcounted := foldl_tickOne_owed (time_notMem_countItems s.ticking)
    (countItems_nodup s.ticking (ticking_keysRise s hk) (ticking_numbersApart s hn)) s.ticking
  refine hcounted.trans ?_
  rw [howed, List.nil_append, hitems]
  exact List.filter_congr fun x _ => expires_ticking s x

theorem filter_expires_tickItems : (tickItems s).filter (fun x => expires x s) =
    (countItems s).filter (fun x => expires x s) ++ if s.time.silent then [.time] else [] := by
  rw [tickItems_eq, List.filter_append, List.filter_cons, List.filter_nil, expires_time]

end

/-! ## The time base last: its third silence is left owed (R161, R167) -/

section
variable (s : State)

theorem tickTime_of_silent (h : s.time.silent = true) : tickOne s .time = { s with owed := s.owed ++ [.time] } :=
  tickOne_of_expires (by rw [expires_time]; exact h)

theorem tickTime_of_heard (h : s.time.silent = false) : tickOne s .time = timeWork s.beginEvent :=
  tickOne_of_running (by rw [expires_time]; exact h)

theorem tickTime_time : (tickOne s .time).time = if s.time.silent then s.time else s.time.tick.1 := by
  cases h : s.time.silent with
  | true => rw [tickTime_of_silent s h]; rfl
  | false => rw [tickTime_of_heard s h, timeWork_frame]; rfl

theorem tickTime_owed : (tickOne s .time).owed = s.owed ++ if s.time.silent then [.time] else [] := by
  cases h : s.time.silent with
  | true => rw [tickTime_of_silent s h]; rfl
  | false => rw [tickTime_of_heard s h, timeWork_frame]; exact (List.append_nil _).symm

/-- The time base's own work reaches neither a counter nor the console port. -/
theorem tickTime_frame : tickOne s .time = { s with
    time := (tickOne s .time).time, consoles := (tickOne s .time).consoles, plant := (tickOne s .time).plant
    latched := (tickOne s .time).latched, statSeq := (tickOne s .time).statSeq, owed := (tickOne s .time).owed
    statSent := (tickOne s .time).statSent } := by
  cases h : s.time.silent with
  | true => rw [tickTime_of_silent s h]
  | false => rw [tickTime_of_heard s h, timeWork_frame]; rfl

theorem lookup_tickTime (hr : risingKeys s.consoles = true) (a : Nat) : lookup (tickOne s .time).consoles a =
    (lookup s.consoles a).map fun c =>
      if (tickOne s .time).time.state = s.time.state then c else c.take (.timeState (tickOne s .time).time.state) := by
  rw [tickTime_time]
  cases h : s.time.silent with
  | true =>
    rw [tickTime_of_silent s h]
    simp
  | false =>
    rw [tickTime_of_heard s h]
    exact lookup_timeWork (s := s.beginEvent) hr a

theorem tickTime_plant (hstep : s.time.tick.2 = false) : (tickOne s .time).plant = s.plant := by
  cases h : s.time.silent with
  | true => rw [tickTime_of_silent s h]
  | false => rw [tickTime_of_heard s h, timeWork_frame]; exact timeFlags_plant (s := s.beginEvent) hstep h

end

/-- The state the tick ends in. -/
def State.ticked (s : State) : State := tickOne s.ticking.counted .time

section
variable (s : State)

theorem counted_ticking_time : s.ticking.counted.time = { s.time with elapsed := 0 } := by
  rw [counted_frame, ticking_frame]

theorem ticked_time : s.ticked.time =
    if s.time.silent then { s.time with elapsed := 0 } else ({ s.time with elapsed := 0 } : TimeBase).tick.1 := by
  unfold State.ticked
  rw [tickTime_time, counted_ticking_time]
  rfl

theorem ticked_owed (hk : s.KeysRise) (hn : s.NumbersApart) (ho : s.owed = []) :
    s.ticked.owed = (tickItems s).filter fun x => expires x s := by
  unfold State.ticked
  rw [tickTime_owed, counted_ticking_owed s hk hn ho, filter_expires_tickItems, counted_ticking_time]
  rfl

theorem lookup_ticked (hk : s.KeysRise) (a : Nat) : lookup s.ticked.consoles a = (lookup s.consoles a).map fun c =>
    let x : Console := { c with
      requests := 0
      silence := if c.attached = true ∧ c.silence < 2 then c.silence + 1 else c.silence
      rateHold := if c.rateHold = 1 then 1 else c.rateHold - 1
      loginHold := if c.loginHold = 1 then 1 else c.loginHold - 1 }
    if s.ticked.time.state = s.time.state then x else x.take (.timeState s.ticked.time.state) := by
  obtain ⟨-, -, -, -, -, -, hrise, -⟩ := ticking_keysRise s hk
  unfold State.ticked
  rw [lookup_tickTime _ (counted_consoles_rising _ hrise), counted_consoles _ hrise, lookup_ticking, Option.map_map,
    Option.map_map, counted_ticking_time]
  refine congrArg (Option.map · _) (funext fun c => ?_)
  dsimp only [Function.comp]
  rw [Console.ticked_eq]
  rfl

theorem ticked_plant (hstep : s.time.tick.2 = false) (hroom : s.console.ownRoom = true ∨ s.console.up = false) :
    s.ticked.plant = s.plant.joinOwn ⟨generated s 0x01#8 255 0 0 0 [], false⟩ := by
  have hplant : s.ticking.counted.plant = s.ticking.plant := by rw [counted_frame]
  rw [← ticking_plant s hroom, ← hplant]
  refine tickTime_plant _ ?_
  rw [counted_ticking_time, TimeBase.tick_elapsed, hstep]

theorem ticked_frame : s.ticked = { s.ticking.counted with
    time := s.ticked.time, consoles := s.ticked.consoles, plant := s.ticked.plant, latched := s.ticked.latched
    statSeq := s.ticked.statSeq, owed := s.ticked.owed, statSent := s.ticked.statSent } := tickTime_frame _

end

end Sys2Proof.Machine

namespace Sys2Proof.Machine

/-! ## MASTER_SILENCE_EXPIRY (R167) -/

theorem TimeBase.tick_of_silent {b : TimeBase} (h : b.silent = true) : b.tick = ({ b with
    state := .holdover, held := false, projection := none, silence := 0, pending := none, relock := false
    sec := (addMs (b.sec, b.ms) 1000).1, ms := (addMs (b.sec, b.ms) 1000).2 }, false) := by
  have hlimit := b.silent_eq
  rw [h, Bool.and_eq_true, beq_iff_eq, decide_eq_true_eq] at hlimit
  unfold TimeBase.tick
  rw [hlimit.1]
  dsimp only
  rw [if_pos hlimit.2]
  rfl

section
variable {s : State} (h : s.time.silent = true)
include h

theorem timeWork_of_silent : timeWork s = (timeFlags s).notifyAll (.timeState .holdover) := by
  have hlocked : s.time.state = .locked := by
    have hlimit := s.time.silent_eq
    rw [h, Bool.and_eq_true, beq_iff_eq] at hlimit
    exact hlimit.1
  rw [timeWork_eq, TimeBase.tick_of_silent h, hlocked, if_neg nofun]

theorem timeFlags_timeHoldover : (timeFlags s).isLatched .timeHoldover = true := by
  have hlocked : s.time.state = .locked := by
    have hlimit := s.time.silent_eq
    rw [h, Bool.and_eq_true, beq_iff_eq] at hlimit
    exact hlimit.1
  unfold timeFlags
  rw [if_pos]
  · exact latch_isLatched ..
  · rw [TimeBase.tick_of_silent h, hlocked]
    exact ⟨nofun, rfl⟩

end

theorem exec_masterSilenceExpiry {s : State} (hs : s.settled = true) (ho : TickItem.time ∈ s.owed)
    (h : s.time.silent = true) : exec .masterSilenceExpiry s = .next (timeWork (s.takingOwed .time)) := by
  have hexp : expires .time (enter s) = true := by
    rw [enter_of_settled hs, expires_time]
    exact h
  refine congrArg Host.Outcome.next ?_
  rw [takeOwed_of_expiring (by rw [enter_of_settled hs]; exact ho) hexp]
  unfold tickWork
  dsimp only
  rw [takingOwed_eq hs]

section
variable (s : State)

theorem ticked_counters : s.ticked = { s with
    time := s.ticked.time, consoles := s.ticked.consoles, areas := s.ticked.areas, dyn := s.ticked.dyn
    controllers := s.ticked.controllers, commands := s.ticked.commands, records := s.ticked.records
    shelf := s.ticked.shelf, owed := s.ticked.owed, plant := s.ticked.plant, console := s.ticked.console
    latched := s.ticked.latched, statSeq := s.ticked.statSeq, statSent := s.ticked.statSent } := by
  have hframe := ticked_frame s
  rw [counted_frame, ticking_frame] at hframe
  rw [hframe]

theorem ticked_areas : s.ticked.areas = s.ticking.counted.areas := by rw [ticked_frame]

theorem ticked_dyn : s.ticked.dyn = s.ticking.counted.dyn := by rw [ticked_frame]

theorem ticked_controllers : s.ticked.controllers = s.ticking.counted.controllers := by rw [ticked_frame]

theorem ticked_commands : s.ticked.commands = s.ticking.counted.commands := by rw [ticked_frame]

theorem ticked_records : s.ticked.records = s.ticking.counted.records := by rw [ticked_frame]

theorem ticked_shelf : s.ticked.shelf = s.ticking.counted.shelf := by rw [ticked_frame]

theorem ticked_console : s.ticked.console = s.console.joinOwn ⟨generated s 0x01#8 255 0 0 0 [], false⟩ := by
  rw [ticked_frame, counted_frame]
  exact ticking_console s

theorem ticked_area {a : Nat} (ha : a < 16) : s.ticked.area a = { s.area a with
    load := if floodEnds a s then (s.area a).load
      else (s.area a).load - max (min 1 (s.area a).load) ((s.area a).load / 64)
    graceLeft := if (s.area a).authority = .grace ∧ 1 < (s.area a).graceLeft then (s.area a).graceLeft - 1
      else (s.area a).graceLeft } := by
  have hcounted := (counted_area s.ticking ha).trans (Area.ticked_eq s.ticking a)
  rw [show s.ticked.area a = s.ticking.counted.area a by unfold State.area; rw [ticked_areas], hcounted, ticking_frame]
  rfl

theorem ticked_dynOf (hk : s.KeysRise) (p : Nat) : s.ticked.dynOf p =
    if chatterEnds p s then s.dynOf p else { s.dynOf p with score := (s.dynOf p).score - 1 } := by
  obtain ⟨-, -, -, hdyn, -⟩ := ticking_keysRise s hk
  have hcounted := (counted_dynOf s.ticking hdyn p).trans (PointDyn.ticked_eq s.ticking p)
  rw [show s.ticked.dynOf p = s.ticking.counted.dynOf p by unfold State.dynOf; rw [ticked_dyn], hcounted, ticking_frame]
  rfl

theorem lookup_ticked_controllers (hk : s.KeysRise) (a : Nat) :
    lookup s.ticked.controllers a = (lookup s.controllers a).map fun c => { c with
      silence := if c.live = true ∧ c.silence < 2 then c.silence + 1 else c.silence
      wait := if c.phase ≠ .idle ∧ 1 < c.wait then c.wait - 1 else c.wait } := by
  obtain ⟨-, -, -, -, -, -, -, hctl, -⟩ := ticking_keysRise s hk
  rw [ticked_controllers, counted_controllers _ hctl, ticking_frame]
  exact congrArg (Option.map · _) (funext fun c => c.ticked_eq)

variable (hn : s.NumbersApart)
include hn

theorem ticked_commands_eq :
    s.ticked.commands = s.commands.map fun c => if 1 < c.ticks then { c with ticks := c.ticks - 1 } else c := by
  obtain ⟨-, -, htags, -⟩ := ticking_numbersApart s hn
  rw [ticked_commands, counted_commands _ htags, ticking_frame]
  rfl

theorem ticked_records_eq : s.ticked.records = s.records.map fun h =>
    if h.left ≤ 1 ∨ (h.state = .offered ∧ h.attendLeft ≤ 1) then h
    else { h with
      left := h.left - 1, attendLeft := if h.state = .offered then h.attendLeft - 1 else h.attendLeft } := by
  obtain ⟨hnumbers, -⟩ := ticking_numbersApart s hn
  rw [ticked_records, counted_records _ hnumbers, ticking_frame]
  rfl

theorem mem_ticked_shelf (e : ShelfEntry) : e ∈ s.ticked.shelf ↔
    ∃ x ∈ s.shelf, e = { x with ticks := if 1 < x.ticks then x.ticks - 1 else x.ticks } := by
  obtain ⟨-, -, -, hpoints⟩ := ticking_numbersApart s hn
  rw [ticked_shelf, counted_shelf_mem _ hpoints, ticking_frame]
  rfl

theorem ticked_shelf_eq (hs : s.ShelfOrdered) :
    s.ticked.shelf = s.shelf.map fun x => { x with ticks := if 1 < x.ticks then x.ticks - 1 else x.ticks } := by
  obtain ⟨-, -, -, hpoints⟩ := ticking_numbersApart s hn
  have hsorted : s.ticking.shelf.Pairwise fun x y => x.ticks ≤ y.ticks := by rw [ticking_frame]; exact hs.1
  rw [ticked_shelf, counted_shelf_of_sorted _ hpoints hsorted, ticking_frame]
  rfl

end

section
variable (s : State)

theorem mem_holdover_owed (x : TickItem) :
    x ∈ (timeWork (s.takingOwed .time)).owed ↔ x ∈ s.owed ∧ x ≠ .time := by
  rw [timeWork_frame]
  simp [State.takingOwed]

theorem holdover_frame : timeWork (s.takingOwed .time) = { s with
    time := (timeWork (s.takingOwed .time)).time, owed := (timeWork (s.takingOwed .time)).owed
    consoles := (timeWork (s.takingOwed .time)).consoles, plant := (timeWork (s.takingOwed .time)).plant
    latched := (timeWork (s.takingOwed .time)).latched, statSeq := (timeWork (s.takingOwed .time)).statSeq
    statSent := (timeWork (s.takingOwed .time)).statSent } := by
  rw [timeWork_frame]
  rfl

variable {s} (h : s.time.silent = true)
include h

theorem holdover_time : (timeWork (s.takingOwed .time)).time = { s.time with
    state := .holdover, held := false, projection := none, silence := 0, pending := none, relock := false
    sec := (addMs (s.time.sec, s.time.ms) 1000).1, ms := (addMs (s.time.sec, s.time.ms) 1000).2 } := by
  rw [timeWork_frame]
  exact congrArg Prod.fst (TimeBase.tick_of_silent h)

theorem holdover_latched : (timeWork (s.takingOwed .time)).isLatched .timeHoldover = true := by
  rw [timeWork_of_silent (s := s.takingOwed .time) h]
  exact (isLatched_congr (by simp) _).trans (timeFlags_timeHoldover (s := s.takingOwed .time) h)

theorem lookup_holdover (hr : risingKeys s.consoles = true) (a : Nat) :
    lookup (timeWork (s.takingOwed .time)).consoles a =
      (lookup s.consoles a).map fun c => c.take (.timeState .holdover) := by
  have hc : (timeFlags (s.takingOwed .time)).consoles = s.consoles := by rw [timeFlags_frame]; rfl
  rw [timeWork_of_silent (s := s.takingOwed .time) h, lookup_notifyAll (by rw [hc]; exact hr), hc]

theorem holdover_consolesKept : ConsolesKept s (timeWork (s.takingOwed .time)) := by
  have hc : (timeFlags (s.takingOwed .time)).consoles = s.consoles := by rw [timeFlags_frame]; rfl
  rw [timeWork_of_silent (s := s.takingOwed .time) h]
  exact (ConsolesKept.of_eq hc).trans (notifyAll_consolesKept _ _)

end

/-- Settles O57: each piece of countdown work moves one counter of one key, so the fold over the tick's work moves each
counter once; the time base comes last, and its third silence is taken by its own command. -/
theorem tickCountsEveryTimer : Obligations.TickCountsEveryTimer := by
  refine ⟨fun s hs ho hstore hk hn => ⟨s.ticked, exec_tick s hs ho hstore, ?_⟩, fun s hs ho hlocked hpend hsil => ?_⟩
  · exact ⟨ticked_time s, lookup_ticked s hk, fun a ha => ticked_area s ha, ticked_dynOf s hk, lookup_ticked_controllers s hk,
      ticked_commands_eq s hn, ticked_records_eq s hn, mem_ticked_shelf s hn, ticked_shelf_eq s hn,
      ticked_owed s hk hn ho, ticked_console s, ticked_plant s, ticked_counters s⟩
  · have hsilent : s.time.silent = true := by simp [TimeBase.silent, hlocked, hpend, hsil]
    exact ⟨_, exec_masterSilenceExpiry hs ho hsilent, holdover_time hsilent, holdover_latched hsilent, mem_holdover_owed s,
      lookup_holdover hsilent, holdover_consolesKept hsilent, by rw [timeWork_frame]; rfl, holdover_frame s⟩

end Sys2Proof.Machine

namespace Sys2Proof.Machine

/-! ## The last record of an MREQ that is a WRITE (R181, R183, R184) -/

theorem lastWrite_iff {s : State} {r : Request} {tb : TableId} {d : List Byte} : lastWrite s r tb d = true ↔
    s.request = some r ∧ r.todo = [⟨0x83#8, d⟩] ∧ r.stopped = false ∧ r.storeAt = none ∧ r.resets = false
      ∧ bodyLength r.results + 3 ≤ Config.bodyCap ∧ r.selected = some tb ∧ 3 ≤ d.length := by
  simp [lastWrite, lastRecord, and_assoc]

theorem answerUnowned_of_empty {s : State} {r : Request} (hr : s.request = some r) (ht : r.todo = []) (n : Nat) :
    answerUnowned n s = s := by
  cases n with
  | zero => rfl
  | succ n =>
    have hunowned : headUnowned s = false := by
      unfold headUnowned
      rw [hr]
      dsimp only
      rw [ht]
    unfold answerUnowned
    rw [hunowned]
    exact if_neg Bool.false_ne_true

/-- The MREP of the answer to the last record of the MREQ. -/
def lastMrep (r : Request) (a : Answer) : OwnEntry :=
  ⟨generated a.s Kind.mrep r.source.toNat 0 r.seq r.operator (r.results ++ [⟨0x90#8, [a.code]⟩]), r.decides⟩

section
variable {s : State} {r : Request} {tb : TableId} {d : List Byte} {row : MgmtRow} {op : Operation} {a : Answer}

/-- The WRITE is taken, its result joins the others, and the MREP is sent. -/
theorem takeRecord_lastWrite (hl : lastWrite s r tb d = true) (hrow : rowOf (some tb) ⟨0x83#8, d⟩ = row)
    (hop : op { r with todo := [] } d s = a) (hreq : a.req = { r with todo := [] }) (hdata : a.data = [])
    (hstore : a.s.store = none) :
    takeRecord row op s = ({ a.s with request := none } : State).sendEntry .plant (lastMrep r a) := by
  obtain ⟨hr, htodo, hstop, -, -, hroom, hsel, -⟩ := lastWrite_iff.1 hl
  have hfit : fitted { r with todo := [] } s 0 a = a := by
    unfold fitted
    rw [if_pos]
    rw [hdata]
    exact hroom
  have hhead : takeHead op s = { a.s with request := some { r with
      todo := [], results := r.results ++ [⟨0x90#8, [a.code]⟩], moved := a.s.movedAreas } } := by
    unfold takeHead
    rw [hr]
    dsimp only
    rw [htodo]
    dsimp only
    rw [if_neg (ne_true_of_eq_false hstop), hop, List.length_nil, hfit, hreq, hdata]
  unfold takeRecord
  rw [hr]
  dsimp only
  rw [htodo]
  dsimp only
  rw [if_pos (by rw [hstop, hsel, hrow]; simp), hhead]
  unfold advance
  rw [answerUnowned_of_empty rfl rfl]
  dsimp only
  rw [if_pos List.isEmpty_nil]
  unfold closeRequest holdsMrep
  dsimp only
  rw [hstore]
  rfl

/-- A WRITE at an index within the table, its items of listed codes and sizes, is the table's own to take. -/
theorem writeOp_eq {body : Request → Nat → Bool → List Item → State → Answer} {items : List Item} (req : Request)
    (hlen : 3 ≤ d.length) (hstore : s.store = none) (hi : field2 d 0 < tableSize tb)
    (hitems : checkedItems tb (d.drop 3) = some items) :
    writeOp tb body req d s = body req (field2 d 0) ((field1 d 2).testBit 0) items s := by
  unfold writeOp
  rw [if_neg (Nat.not_lt.2 hlen), hstore, if_neg (by simp), if_neg (Nat.not_le.2 hi), hitems]

section
variable {items : List Item} {i : Nat} (hl : lastWrite s r .roster d = true) (hstore : s.store = none)
  (hi : field2 d 0 = i) (hlt : i < 128) (hitems : checkedItems .roster (d.drop 3) = some items)
include hl hstore hi hlt hitems

theorem exec_writeRoster (hop : writeOperator { r with todo := [] } i ((field1 d 2).testBit 0) items s = a)
    (hreq : a.req = { r with todo := [] }) (hdata : a.data = []) (ha : a.s.store = none) :
    exec .writeRoster s = .next (({ a.s with request := none } : State).sendEntry .plant (lastMrep r a)) := by
  obtain ⟨-, -, -, -, -, -, -, hlen⟩ := lastWrite_iff.1 hl
  refine congrArg Host.Outcome.next (takeRecord_lastWrite hl rfl ?_ hreq hdata ha)
  rw [writeOp_eq _ hlen hstore (by rw [hi]; exact hlt) hitems, hi, hop]

end

section
variable {items : List Item} {i : Nat} (hl : lastWrite s r .stations d = true) (hstore : s.store = none)
  (hi : field2 d 0 = i) (hlt : i < 96) (hitems : checkedItems .stations (d.drop 3) = some items)
include hl hstore hi hlt hitems

theorem exec_writeStations (hop : writeStation { r with todo := [] } i ((field1 d 2).testBit 0) items s = a)
    (hreq : a.req = { r with todo := [] }) (hdata : a.data = []) (ha : a.s.store = none) :
    exec .writeStations s = .next (({ a.s with request := none } : State).sendEntry .plant (lastMrep r a)) := by
  obtain ⟨-, -, -, -, -, -, -, hlen⟩ := lastWrite_iff.1 hl
  refine congrArg Host.Outcome.next (takeRecord_lastWrite hl rfl ?_ hreq hdata ha)
  rw [writeOp_eq _ hlen hstore (by rw [hi]; exact hlt) hitems, hi, hop]

end

end

end Sys2Proof.Machine

namespace Sys2Proof.Machine

/-! ## ROSTER: the entry a WRITE leaves (R91, R181) -/

theorem flagByte_of_yesNo {v : Nat} {b : Bool} (h : yesNo v = some b) : flagByte b = v := by
  unfold yesNo at h
  split at h <;> cases h <;> rfl

theorem yesNo_eq_none : ∀ {v : Nat}, yesNo v = none ↔ 2 ≤ v
  | 0 => by simp [yesNo]
  | 1 => by simp [yesNo]
  | v + 2 => by simp [yesNo]

theorem code_of_roleOf {v : Nat} {x : Role} (h : roleOf v = some x) : x.code = v := by
  unfold roleOf at h
  split at h <;> cases h <;> rfl

theorem roleOf_eq_none : ∀ {v : Nat}, roleOf v = none ↔ v = 0 ∨ 5 ≤ v
  | 0 => by simp [roleOf]
  | 1 => by simp [roleOf]
  | 2 => by simp [roleOf]
  | 3 => by simp [roleOf]
  | 4 => by simp [roleOf]
  | v + 5 => by simp [roleOf]

theorem rank_of_rightOf {v : Nat} {x : RightLevel} (h : rightOf v = some x) : x.rank = v := by
  unfold rightOf at h
  split at h <;> cases h <;> rfl

theorem rightOf_eq_none : ∀ {v : Nat}, rightOf v = none ↔ 5 ≤ v
  | 0 => by simp [rightOf]
  | 1 => by simp [rightOf]
  | 2 => by simp [rightOf]
  | 3 => by simp [rightOf]
  | 4 => by simp [rightOf]
  | v + 5 => by simp [rightOf]

theorem rightsOf_cons (b : Byte) (l : List Byte) :
    rightsOf (b :: l) = (rightsOf l).bind fun t => (rightOf b.toNat).map fun r => r :: t := rfl

theorem ranks_of_rightsOf {l : List Byte} {rs : List RightLevel} (h : rightsOf l = some rs) :
    rs.map RightLevel.rank = l.map BitVec.toNat := by
  induction l generalizing rs with
  | nil => cases h; rfl
  | cons b l ih =>
    rw [rightsOf_cons, Option.bind_eq_some_iff] at h
    obtain ⟨t, ht, hb⟩ := h
    obtain ⟨x, hx, rfl⟩ := Option.map_eq_some_iff.1 hb
    rw [List.map_cons, List.map_cons, rank_of_rightOf hx, ih ht]

theorem rightsOf_eq_none {l : List Byte} : rightsOf l = none ↔ ∃ b ∈ l, 5 ≤ b.toNat := by
  induction l with
  | nil => simp [rightsOf]
  | cons b l ih =>
    rw [rightsOf_cons, List.exists_mem_cons_iff, ← ih, ← rightOf_eq_none]
    cases rightsOf l with
    | none => simp
    | some t => simp

section
variable {α : Type} {items : List Item} {n : Nat} {d : α} {f : Nat → Option α}

theorem optItem_eq_none : optItem items n d f = none ↔ ∃ v, itemValue items n = some v ∧ f v = none := by
  unfold optItem
  cases itemValue items n with
  | none => simp
  | some v => simp

/-- The value left under a code is the item's, or the one that stood there. -/
theorem code_of_optItem {code : α → Nat} (hf : ∀ v x, f v = some x → code x = v) {x : α}
    (h : optItem items n d f = some x) : code x = (itemValue items n).getD (code d) := by
  unfold optItem at h
  cases hv : itemValue items n with
  | none =>
    rw [hv] at h
    cases h
    rfl
  | some v =>
    rw [hv] at h
    exact hf v x h

end

/-- The rights a WRITE leaves. -/
def rightsWritten (old : Operator) (items : List Item) : Option (List RightLevel) :=
  match itemBytes items 5 with
  | some l => rightsOf l
  | none => some old.rights

section
variable {old w : Operator} {items : List Item}

theorem operatorWritten_eq_some : operatorWritten old items = some w ↔
    ∃ e x rs, optItem items 2 old.enabled yesNo = some e ∧ optItem items 4 old.role roleOf = some x
      ∧ rightsWritten old items = some rs
      ∧ { id := (itemValue items 1).getD old.id, enabled := e, code := (itemValue items 3).getD old.code, role := x
          rights := rs } = w := by
  have hunfold : operatorWritten old items =
      (optItem items 2 old.enabled yesNo).bind fun e => (optItem items 4 old.role roleOf).bind fun x =>
        (rightsWritten old items).bind fun rs => some
          { id := (itemValue items 1).getD old.id, enabled := e, code := (itemValue items 3).getD old.code, role := x
            rights := rs } := rfl
  rw [hunfold]
  simp only [Option.bind_eq_some_iff, Option.some.injEq, exists_and_left]

theorem rightsWritten_eq_none : rightsWritten old items = none ↔
    ∃ l, itemBytes items 5 = some l ∧ ∃ b ∈ l, 5 ≤ b.toNat := by
  unfold rightsWritten
  cases itemBytes items 5 with
  | none => simp
  | some l => simp [rightsOf_eq_none]

theorem operatorWritten_eq_none : operatorWritten old items = none ↔
    (∃ v, itemValue items 2 = some v ∧ 2 ≤ v) ∨ (∃ v, itemValue items 4 = some v ∧ (v = 0 ∨ 5 ≤ v))
      ∨ ∃ l, itemBytes items 5 = some l ∧ ∃ b ∈ l, 5 ≤ b.toNat := by
  rw [← rightsWritten_eq_none (old := old)]
  simp only [← yesNo_eq_none, ← roleOf_eq_none]
  rw [← optItem_eq_none (d := old.enabled), ← optItem_eq_none (d := old.role)]
  rw [Option.eq_none_iff_forall_ne_some]
  simp only [ne_eq, operatorWritten_eq_some]
  cases optItem items 2 old.enabled yesNo with
  | none => simp
  | some e =>
    cases optItem items 4 old.role roleOf with
    | none => simp
    | some x =>
      cases rightsWritten old items with
      | none => simp
      | some rs => simp

theorem operatorWritten_fields (h : operatorWritten old items = some w) :
    w.id = (itemValue items 1).getD old.id ∧ flagByte w.enabled = (itemValue items 2).getD (flagByte old.enabled)
      ∧ w.code = (itemValue items 3).getD old.code ∧ w.role.code = (itemValue items 4).getD old.role.code
      ∧ (itemBytes items 5 = none → w.rights = old.rights)
      ∧ ∀ l, itemBytes items 5 = some l → w.rights.map RightLevel.rank = l.map BitVec.toNat := by
  obtain ⟨e, x, rs, he, hx, hrs, rfl⟩ := operatorWritten_eq_some.1 h
  refine ⟨rfl, code_of_optItem (fun _ _ => flagByte_of_yesNo) he, rfl, code_of_optItem (fun _ _ => code_of_roleOf) hx, ?_, ?_⟩
  · intro hnone
    unfold rightsWritten at hrs
    rw [hnone] at hrs
    exact (Option.some.inj hrs).symm
  · intro l hl
    unfold rightsWritten at hrs
    rw [hl] at hrs
    exact ranks_of_rightsOf hrs

end

end Sys2Proof.Machine

namespace Sys2Proof.Machine

/-! ## The authority of areas after GRACE, ORPHANED and the ends of records (R108, R112, R117) -/

theorem area_orphanArea (s : State) (a b : Nat) : (s.orphanArea a).area b =
    if b = a then { s.area a with authority := .orphaned, graceLeft := 0 } else s.area b :=
  (area_congr (State.noteAuthority_areas ..) b).trans (area_modArea ..)

theorem area_enterGrace (s : State) (a b : Nat) : (s.enterGrace a).area b =
    if b = a then { s.area a with authority := .grace, graceLeft := (s.areaParams a).grace } else s.area b :=
  (area_congr (State.noteAuthority_areas ..) b).trans (area_modArea ..)

theorem area_foldl_orphanArea {l : List Nat} (hl : l.Nodup) (s : State) (b : Nat) : (l.foldl State.orphanArea s).area b =
    if b ∈ l then { s.area b with authority := .orphaned, graceLeft := 0 } else s.area b := by
  induction l generalizing s with
  | nil => rfl
  | cons a l ih =>
    obtain ⟨ha, hl'⟩ := List.nodup_cons.1 hl
    rw [List.foldl_cons, ih hl', area_orphanArea]
    by_cases hb : b = a
    · subst hb
      simp [ha]
    · simp [hb]

theorem area_orphanOperator (s : State) (op : Nat) {a : Nat} (ha : a < 16) : (s.orphanOperator op).area a =
    if ((s.area a).authority = .held ∨ (s.area a).authority = .grace)
        ∧ (s.area a).holder.any (fun h => h.operator == op) = true then
      { s.area a with authority := .orphaned, graceLeft := 0 }
    else s.area a := by
  have hmine (l : List Nat) (e : JournalEntry) (b : Nat) :
      (if l.isEmpty then l.foldl State.orphanArea s else (l.foldl State.orphanArea s).writeJournal e).area b
        = (l.foldl State.orphanArea s).area b := by
    split
    · rfl
    · exact area_congr (State.writeJournal_areas ..) b
  have hn (q : Nat → Bool) : (allAreas.filter q).Nodup := List.nodup_range.filter q
  unfold State.orphanOperator
  dsimp only
  rw [hmine, area_foldl_orphanArea (hn _)]
  refine if_congr ?_ rfl rfl
  simp [allAreas, ha]

/-! ## The ends of records (R140 to R142) -/

theorem noteParties_areas (s : State) (h : Handover) (st : HandoverState) (r : Option AbortReason) :
    (s.noteParties h st r).areas = s.areas := by
  unfold State.noteParties
  split <;> simp

theorem noteParties_records (s : State) (h : Handover) (st : HandoverState) (r : Option AbortReason) :
    (s.noteParties h st r).records = s.records := by
  unfold State.noteParties
  split <;> simp

/-- Every area as before, its open record apart. -/
def RecordsClosed (s t : State) : Prop := ∀ a, { t.area a with openRecord := (s.area a).openRecord } = s.area a

theorem RecordsClosed.of_eq {s t : State} (h : t.areas = s.areas) : RecordsClosed s t := fun a => by
  rw [area_congr h]

theorem RecordsClosed.trans {s t u : State} (h : RecordsClosed s t) (k : RecordsClosed t u) : RecordsClosed s u :=
  fun a => by
    rw [← h a, ← k a]

theorem closeAreas_recordsClosed (s : State) (l : List Nat) : RecordsClosed s (s.closeAreas l) := by
  unfold State.closeAreas
  induction l generalizing s with
  | nil => exact .of_eq rfl
  | cons a l ih =>
    refine RecordsClosed.trans (fun b => ?_) (ih _)
    rw [area_modArea]
    split
    · next h => rw [h]
    · rfl

theorem closeAreas_records (s : State) (l : List Nat) : (s.closeAreas l).records = s.records := by
  unfold State.closeAreas
  induction l generalizing s with
  | nil => rfl
  | cons a l ih => exact ih _

theorem abort_recordsClosed (s : State) (h : Handover) (r : AbortReason) : RecordsClosed s (s.abort h r) :=
  (closeAreas_recordsClosed s h.areas).trans (.of_eq ((noteParties_areas ..).trans (State.writeJournal_areas ..)))

theorem abort_records (s : State) (h : Handover) (r : AbortReason) :
    (s.abort h r).records = s.records.filter fun g => !(g.number == h.number) := by
  refine (noteParties_records ..).trans ((State.writeJournal_records ..).trans ?_)
  rw [State.dropRecord_records, closeAreas_records]

theorem abortIncoming_recordsClosed (s : State) (op : Nat) : RecordsClosed s (s.abortIncoming op) := by
  unfold State.abortIncoming
  refine List.foldlRecOn (motive := RecordsClosed s) _ _ (.of_eq rfl) fun t ht h _ => ?_
  split
  · exact ht.trans (abort_recordsClosed _ _ _)
  · exact ht

/-- A record that names the operator ends, as its outgoing or as its incoming party (R142). -/
def abortNaming (op : Nat) (s : State) (h : Handover) : State :=
  if h.outOp == op then s.abort h .authorityLost
  else if h.inOp == op then s.abort h .incomingLost else s

theorem abortRemoved_eq (s : State) (op : Nat) : s.abortRemoved op = s.records.foldl (abortNaming op) s := rfl

theorem abortNaming_recordsClosed (op : Nat) (s : State) (h : Handover) : RecordsClosed s (abortNaming op s h) := by
  unfold abortNaming
  split
  · exact abort_recordsClosed _ _ _
  · split
    · exact abort_recordsClosed _ _ _
    · exact .of_eq rfl

/-- A record left by another's end was there, and where it is the very one it does not name the operator. -/
theorem mem_abortNaming {op : Nat} {s : State} {g h : Handover} (hg : g ∈ (abortNaming op s h).records) :
    g ∈ s.records ∧ (h = g → g.outOp ≠ op ∧ g.inOp ≠ op) := by
  have habort {r : AbortReason} (hm : g ∈ (s.abort h r).records) : g ∈ s.records ∧ h ≠ g := by
    rw [abort_records, List.mem_filter] at hm
    refine ⟨hm.1, fun he => ?_⟩
    rw [he] at hm
    simp at hm
  unfold abortNaming at hg
  split at hg
  · obtain ⟨hmem, hne⟩ := habort hg
    exact ⟨hmem, fun he => absurd he hne⟩
  · next hout =>
    split at hg
    · obtain ⟨hmem, hne⟩ := habort hg
      exact ⟨hmem, fun he => absurd he hne⟩
    · next hin => exact ⟨hg, fun he => he ▸ ⟨by simpa using hout, by simpa using hin⟩⟩

theorem abortRemoved_recordsClosed (s : State) (op : Nat) : RecordsClosed s (s.abortRemoved op) := by
  rw [abortRemoved_eq]
  exact List.foldlRecOn (motive := RecordsClosed s) _ _ (.of_eq rfl) fun t ht h _ =>
    ht.trans (abortNaming_recordsClosed op t h)

/-- No record is left that names an operator whose records have been ended. -/
theorem abortRemoved_records {s : State} {op : Nat} {g : Handover} (hg : g ∈ (s.abortRemoved op).records) :
    g.outOp ≠ op ∧ g.inOp ≠ op := by
  have hfold : ∀ (l : List Handover) (t : State), g ∈ (l.foldl (abortNaming op) t).records →
      g ∈ t.records ∧ (g ∈ l → g.outOp ≠ op ∧ g.inOp ≠ op) := by
    intro l
    induction l with
    | nil => exact fun t ht => ⟨ht, fun hm => absurd hm List.not_mem_nil⟩
    | cons h l ih =>
      intro t ht
      obtain ⟨hstep, hl⟩ := ih _ ht
      obtain ⟨hmem, hhead⟩ := mem_abortNaming hstep
      refine ⟨hmem, fun hm => ?_⟩
      rcases List.mem_cons.1 hm with rfl | hm
      · exact hhead rfl
      · exact hl hm
  obtain ⟨hmem, hall⟩ := hfold s.records s (abortRemoved_eq s op ▸ hg)
  exact hall hmem

/-! ## The removal of an operator (R85, R91, R112, R142) -/

theorem hornStep2_records (s : State) (a : Nat) : (s.hornStep2 a).records = s.records := by rw [hornStep2_frame]

theorem hornStep2_areas (s : State) (a : Nat) : (s.hornStep2 a).areas = s.areas := by rw [hornStep2_frame]

section
variable (op : Nat) (s : State)

/-- The authority and the records after the end of an operator's session by the roster, or without one. -/
theorem rosterEnd_area {a : Nat} (ha : a < 16) :
    { (endHandovers op .roster (endAuthority 0 0 op .roster s)).area a with openRecord := (s.area a).openRecord } =
      if ((s.area a).authority = .held ∨ (s.area a).authority = .grace)
          ∧ (s.area a).holder.any (fun h => h.operator == op) = true then
        { s.area a with authority := .orphaned, graceLeft := 0 }
      else s.area a := by
  have horphan := area_orphanOperator s op ha
  have hopen : ((s.orphanOperator op).area a).openRecord = (s.area a).openRecord := by
    rw [horphan]
    split <;> rfl
  have hclosed := abortRemoved_recordsClosed (s.orphanOperator op) op a
  rw [hopen, horphan] at hclosed
  exact hclosed

theorem vacated_seatOp (n : Nat) (c : Console) (m : Nat) :
    (c.vacated n).seatOp m = if m = n then none else c.seatOp m := by
  rw [vacated_eq]
  unfold Console.seatOp Console.setSeat
  by_cases h1 : n = 1
  · subst h1
    by_cases hm : m = 1
    · simp [hm]
    · simp [hm]
  · by_cases h2 : n = 2
    · subst h2
      by_cases hm : m = 2
      · simp [hm]
      · by_cases hm1 : m = 1
        · simp [hm1]
        · simp [hm, hm1]
    · by_cases hm : m = n
      · simp [hm, h1, h2]
      · simp [hm, h1, h2]

/-- Notices and horns apart, the seats of a console are what they were. -/
theorem ConsolesKept.seatOp {s t : State} (h : ConsolesKept s t) (a n : Nat) :
    (lookup t.consoles a).bind (·.seatOp n) = (lookup s.consoles a).bind (·.seatOp n) := by
  have hb := congrArg (Option.bind · (fun c => c.seatOp n)) (h a)
  simpa [Option.bind_map, Function.comp_def, Console.bare, Console.seatOp] using hb

variable {op s}

/-- The session of an operator is at a seat he sits on. -/
theorem session_seated (hr : risingKeys s.consoles = true) {c n : Nat} (h : s.session op = some (c, n)) :
    (lookup s.consoles c).bind (·.seatOp n) = some op := by
  unfold State.session at h
  obtain ⟨e, he, hcn⟩ := Option.map_eq_some_iff.1 h
  have hmem := List.mem_of_find?_eq_some he
  have hop : op ∈ e.2.operators := by simpa using List.find?_some he
  rw [Prod.mk.injEq] at hcn
  obtain ⟨rfl, rfl⟩ := hcn
  rw [lookup_of_mem hr (show (e.1, e.2) ∈ s.consoles from hmem), Option.bind_some]
  unfold Console.seatOp
  by_cases h1 : e.2.seat1 = some op
  · simp [h1]
  · have h2 : e.2.seat2 = some op := by
      simpa [Console.operators, h1] using hop
    simp [h1, h2]

theorem removeOperator_of_session (hr : risingKeys s.consoles = true) {c n : Nat} (h : s.session op = some (c, n)) :
    removeOperator op s =
      (endHandovers op .roster (endAuthority 0 0 op .roster (s.modConsole c (Console.vacated n)))).hornStep2 c := by
  unfold removeOperator
  rw [h]
  exact endSession_of_seated (session_seated hr h) .roster

theorem removeOperator_of_absent (h : s.session op = none) :
    removeOperator op s = endHandovers op .roster (endAuthority 0 0 op .roster s) := by
  unfold removeOperator
  rw [h]

theorem modConsole_areas (s : State) (a : Nat) (f : Console → Console) : (s.modConsole a f).areas = s.areas := by
  rw [modConsole_frame]

theorem removeOperator_removed (hr : risingKeys s.consoles = true) : OperatorRemoved op s (removeOperator op s) := by
  obtain h | ⟨⟨c, n⟩, h⟩ := Option.eq_none_or_eq_some (s.session op)
  · rw [removeOperator_of_absent h]
    exact ⟨fun c n h' => absurd (h.symm.trans h') nofun, fun a ha => rosterEnd_area op s ha,
      fun g hg => abortRemoved_records hg⟩
  · rw [removeOperator_of_session hr h]
    have hstep : AuthorityStep (s.modConsole c (Console.vacated n)) ((endHandovers op .roster
        (endAuthority 0 0 op .roster (s.modConsole c (Console.vacated n)))).hornStep2 c) :=
      ((endAuthority_authorityStep ..).trans (endHandovers_authorityStep ..)).trans (hornStep2_authorityStep ..)
    refine ⟨fun c' n' h' => ?_, fun a ha => ?_, fun g hg => ?_⟩
    · obtain ⟨rfl, rfl⟩ : c = c' ∧ n = n' := by simpa using h.symm.trans h'
      rw [hstep.consoles.seatOp, lookup_modConsole, if_pos rfl, Option.bind_map]
      cases lookup s.consoles c with
      | none => rfl
      | some k => exact (vacated_seatOp n k n).trans (if_pos rfl)
    · have hend := rosterEnd_area op (s.modConsole c (Console.vacated n)) ha
      rw [area_congr (modConsole_areas ..)] at hend
      rw [area_congr (hornStep2_areas ..)]
      exact hend
    · rw [hornStep2_records] at hg
      exact abortRemoved_records hg

theorem removeOperator_frame (op : Nat) (s : State) : SessionFrame s (removeOperator op s) := by
  unfold removeOperator
  split
  · exact endSession_frame ..
  · exact ((endAuthority_authorityStep ..).trans (endHandovers_authorityStep ..)).frame

/-- What the removal left stands while authority and records stay, and of the consoles notices and horns alone move. -/
theorem OperatorRemoved.mono {t u : State} (h : OperatorRemoved op s t) (ha : u.areas = t.areas)
    (hr : u.records = t.records) (hc : ConsolesKept t u) : OperatorRemoved op s u := by
  obtain ⟨hseat, harea, hrec⟩ := h
  refine ⟨fun c n hs => (hc.seatOp c n).trans (hseat c n hs), fun a hlt => ?_, fun g hg => hrec g (hr ▸ hg)⟩
  rw [area_congr ha]
  exact harea a hlt

end

end Sys2Proof.Machine

namespace Sys2Proof.Machine

/-! ## A WRITE to ROSTER (R91) -/

/-- A state that the last WRITE has made, its request closed and its MREP sent. -/
def State.closedWith (s : State) (e : OwnEntry) : State := ({ s with request := none } : State).sendEntry .plant e

section
variable {s t : State} {e : OwnEntry}

theorem closedWith_frame (s : State) (e : OwnEntry) : s.closedWith e = { s with
    request := none, plant := (s.closedWith e).plant, latched := (s.closedWith e).latched
    statSeq := (s.closedWith e).statSeq, statSent := (s.closedWith e).statSent } := by
  have hconsole : (s.closedWith e).console = s.console := sendEntry_plant_console ..
  refine (sendEntry_frame ..).trans ?_
  rw [show (({ s with request := none } : State).sendEntry .plant e).console = s.console from hconsole]
  rfl

theorem closedWith_plant (s : State) (e : OwnEntry) : (s.closedWith e).plant = s.plant.joinOwn e :=
  sendEntry_plant_plant ..

theorem authorityEventFrame_closedWith (h : SessionFrame s t) (e : OwnEntry) :
    AuthorityEventFrame { s with request := none } (t.closedWith e) := by
  unfold AuthorityEventFrame SessionFrame at *
  rw [closedWith_frame, h]

end

theorem rehornOperator_frame (op : Nat) (s : State) :
    rehornOperator op s = { s with consoles := (rehornOperator op s).consoles } := by
  unfold rehornOperator
  split
  · exact hornStep2_frame ..
  · rfl

theorem rehornOperator_consolesKept (op : Nat) (s : State) : ConsolesKept s (rehornOperator op s) := by
  unfold rehornOperator
  split
  · exact hornStep2_consolesKept _ _
  · exact .refl s

section
variable {o new : Operator} {s : State}

/-- The horn is evaluated after the removal, if there is one, and reaches neither authority nor records. -/
theorem afterRoster_rehorned (o new : Operator) (s : State) :
    let u := if (o.enabled && !new.enabled) || o.id != new.id then removeOperator o.id s else s
    afterRoster (some o) new s = { u with consoles := (afterRoster (some o) new s).consoles }
      ∧ ConsolesKept u (afterRoster (some o) new s) := by
  dsimp only
  unfold afterRoster
  dsimp only
  split
  · exact ⟨rehornOperator_frame .., rehornOperator_consolesKept _ _⟩
  · exact ⟨rfl, .refl _⟩

theorem removes_iff : ((o.enabled && !new.enabled) || o.id != new.id) = true ↔
    o.id ≠ new.id ∨ (o.enabled = true ∧ new.enabled = false) := by
  simp [or_comm]

theorem afterRoster_removed (h : o.id ≠ new.id ∨ (o.enabled = true ∧ new.enabled = false))
    (hr : risingKeys s.consoles = true) : OperatorRemoved o.id s (afterRoster (some o) new s) := by
  obtain ⟨hframe, hkept⟩ := afterRoster_rehorned o new s
  rw [if_pos (removes_iff.2 h)] at hframe hkept
  exact (removeOperator_removed hr).mono (by rw [hframe]) (by rw [hframe]) hkept

theorem afterRoster_kept (h : ¬ (o.id ≠ new.id ∨ (o.enabled = true ∧ new.enabled = false))) :
    afterRoster (some o) new s = { s with consoles := (afterRoster (some o) new s).consoles }
      ∧ ConsolesKept s (afterRoster (some o) new s) := by
  have hall := afterRoster_rehorned o new s
  rw [if_neg (fun hn => h (removes_iff.1 hn))] at hall
  exact hall

theorem afterRoster_frame (o new : Operator) (s : State) : SessionFrame s (afterRoster (some o) new s) := by
  obtain ⟨hframe, -⟩ := afterRoster_rehorned o new s
  refine SessionFrame.trans ?_ (.of_consoles hframe)
  split
  · exact removeOperator_frame ..
  · rfl

end

/-- The MREP of a roster WRITE is formed with the part's address, which no roster WRITE moves. -/
theorem lastMrep_of_roster {s t : State} {l : List (Nat × Operator)} (h : SessionFrame (s.setRoster l) t) (r : Request)
    (req : Request) : lastMrep r (written req false t) = mrepTo s r (r.results ++ [⟨0x90#8, [0x00#8]⟩]) := by
  unfold lastMrep written
  dsimp only
  rw [h]
  rfl

section
variable {s : State} {r : Request} {d : List Byte} {items : List Item} {i : Nat}
  (hl : lastWrite s r .roster d = true) (hstore : s.store = none) (hi : field2 d 0 = i) (hlt : i < 128)
  (hitems : checkedItems .roster (d.drop 3) = some items)
include hl hstore hi hlt hitems

theorem exec_writeRoster_written {t : State} {l : List (Nat × Operator)} (h : SessionFrame (s.setRoster l) t)
    (hop : writeOperator { r with todo := [] } i ((field1 d 2).testBit 0) items s = written { r with todo := [] } false t) :
    exec .writeRoster s = .next (t.closedWith (mrepTo s r (r.results ++ [⟨0x90#8, [0x00#8]⟩]))) := by
  have hnone : t.store = none := by rw [h]; exact hstore
  rw [exec_writeRoster hl hstore hi hlt hitems hop rfl rfl hnone, lastMrep_of_roster h]
  rfl

theorem exec_writeRoster_refused (hop : writeOperator { r with todo := [] } i ((field1 d 2).testBit 0) items s
      = refuse { r with todo := [] } s .badRequest) :
    exec .writeRoster s = .next (({ s with request := none } : State).sendEntry .plant
      (mrepTo s r (r.results ++ [⟨0x90#8, [0x02#8]⟩]))) :=
  exec_writeRoster hl hstore hi hlt hitems hop rfl rfl hstore

end

section
variable {s : State} {req : Request} {i : Nat} {force : Bool} {items : List Item}

theorem writeOperator_of_bad (h : operatorWritten ((lookup s.tables.roster i).getD (omittedOperator i)) items = none) :
    writeOperator req i force items s = refuse req s .badRequest := by
  unfold writeOperator
  rw [if_pos]
  rw [h]
  rfl

theorem writeOperator_of_removal {o : Operator} (ho : lookup s.tables.roster i = some o)
    (hw : operatorWritten o items ≠ none) (h0 : itemBytes items 0 ≠ none) : writeOperator req i force items s =
      written req false (removeOperator o.id (s.setRoster (removeAt s.tables.roster i))) := by
  unfold writeOperator
  rw [ho]
  dsimp only [Option.getD_some]
  rw [if_neg (by simpa using hw), if_pos (by simpa [Option.isSome_iff_ne_none] using h0)]

theorem writeOperator_of_entry {new : Operator}
    (hw : operatorWritten ((lookup s.tables.roster i).getD (omittedOperator i)) items = some new)
    (h0 : itemBytes items 0 = none) : writeOperator req i force items s =
      if badOperatorId s i new.id then refuse req s .badRequest
      else written req false
        (afterRoster (lookup s.tables.roster i) new (s.setRoster (insertAt s.tables.roster i new))) := by
  unfold writeOperator
  dsimp only
  rw [hw, h0, if_neg (by simp), if_neg (by simp)]

end

theorem badOperatorId_of_taken {s : State} {i id : Nat}
    (h : id = 0 ∨ id = 65535 ∨ ∃ e ∈ s.tables.roster, e.1 ≠ i ∧ e.2.id = id) : badOperatorId s i id = true := by
  unfold badOperatorId
  simp only [Bool.or_eq_true, beq_iff_eq, List.any_eq_true, Bool.and_eq_true, bne_iff_ne]
  rcases h with h | h | h
  · exact .inl (.inl h)
  · exact .inl (.inr h)
  · exact .inr h

/-! ### The clauses of a roster WRITE -/

section
variable {s : State} {r : Request} {d : List Byte} {items : List Item} {i : Nat}
  (hl : lastWrite s r .roster d = true) (hstore : s.store = none) (hi : field2 d 0 = i) (hlt : i < 128)
  (hitems : checkedItems .roster (d.drop 3) = some items)
include hl hstore hi hlt hitems

/-- The entry is written over the old one. -/
theorem writeRoster_over {o new : Operator} (ho : lookup s.tables.roster i = some o) (h0 : itemBytes items 0 = none)
    (hw : operatorWritten o items = some new) (hid : badOperatorId s i new.id = false) :
    let removed := o.id ≠ new.id ∨ (o.enabled = true ∧ new.enabled = false)
    ∃ t, exec .writeRoster s = .next t
      ∧ (∀ j, lookup t.tables.roster j = if j = i then some new else lookup s.tables.roster j)
      ∧ t.tables = { s.tables with roster := t.tables.roster }
      ∧ (¬ removed → t.areas = s.areas ∧ t.records = s.records ∧ ConsolesKept s t ∧ t.retained = s.retained)
      ∧ (removed → risingKeys s.consoles = true → OperatorRemoved o.id s t)
      ∧ t.plant = s.plant.joinOwn (mrepTo s r (r.results ++ [⟨0x90#8, [0x00#8]⟩]))
      ∧ AuthorityEventFrame { s with request := none, tables := t.tables } t := by
  have hop : writeOperator { r with todo := [] } i ((field1 d 2).testBit 0) items s = written { r with todo := [] } false
      (afterRoster (some o) new (s.setRoster (insertAt s.tables.roster i new))) := by
    rw [writeOperator_of_entry (by rw [ho]; exact hw) h0, hid, ho]
    rfl
  have hsession := afterRoster_frame o new (s.setRoster (insertAt s.tables.roster i new))
  have hauth := authorityEventFrame_closedWith hsession (mrepTo s r (r.results ++ [⟨0x90#8, [0x00#8]⟩]))
  have htables : ((afterRoster (some o) new (s.setRoster (insertAt s.tables.roster i new))).closedWith
      (mrepTo s r (r.results ++ [⟨0x90#8, [0x00#8]⟩]))).tables =
        { s.tables with roster := insertAt s.tables.roster i new } := by rw [hauth]; rfl
  have hclosed := closedWith_frame (afterRoster (some o) new (s.setRoster (insertAt s.tables.roster i new)))
    (mrepTo s r (r.results ++ [⟨0x90#8, [0x00#8]⟩]))
  refine ⟨_, exec_writeRoster_written hl hstore hi hlt hitems hsession hop, fun j => ?_, ?_, fun hkeep => ?_,
    fun hrem hr => ?_, ?_, ?_⟩
  · rw [htables]
    exact lookup_insertAt ..
  · rw [htables]
  · obtain ⟨hframe, hkept⟩ := afterRoster_kept (s := s.setRoster (insertAt s.tables.roster i new)) hkeep
    rw [hclosed, hframe]
    exact ⟨rfl, rfl, hkept, rfl⟩
  · refine (afterRoster_removed (s := s.setRoster (insertAt s.tables.roster i new)) hrem hr).mono ?_ ?_ (.of_eq ?_)
    all_goals rw [hclosed]
  · rw [closedWith_plant, hsession]
    rfl
  · rw [htables]
    exact hauth

/-- The entry is removed. -/
theorem writeRoster_removal {o : Operator} (ho : lookup s.tables.roster i = some o) (h0 : itemBytes items 0 ≠ none)
    (hw : operatorWritten o items ≠ none) (hr : risingKeys s.consoles = true) :
    ∃ t, exec .writeRoster s = .next t
      ∧ (∀ j, lookup t.tables.roster j = if j = i then none else lookup s.tables.roster j)
      ∧ OperatorRemoved o.id s t
      ∧ t.plant = s.plant.joinOwn (mrepTo s r (r.results ++ [⟨0x90#8, [0x00#8]⟩]))
      ∧ AuthorityEventFrame { s with request := none, tables := t.tables } t := by
  have hsession := removeOperator_frame o.id (s.setRoster (removeAt s.tables.roster i))
  have hauth := authorityEventFrame_closedWith hsession (mrepTo s r (r.results ++ [⟨0x90#8, [0x00#8]⟩]))
  have htables : ((removeOperator o.id (s.setRoster (removeAt s.tables.roster i))).closedWith
      (mrepTo s r (r.results ++ [⟨0x90#8, [0x00#8]⟩]))).tables =
        { s.tables with roster := removeAt s.tables.roster i } := by rw [hauth]; rfl
  have hclosed := closedWith_frame (removeOperator o.id (s.setRoster (removeAt s.tables.roster i)))
    (mrepTo s r (r.results ++ [⟨0x90#8, [0x00#8]⟩]))
  refine ⟨_, exec_writeRoster_written hl hstore hi hlt hitems hsession (writeOperator_of_removal ho hw h0), fun j => ?_,
    ?_, ?_, ?_⟩
  · rw [htables]
    exact lookup_removeAt ..
  · refine (removeOperator_removed (s := s.setRoster (removeAt s.tables.roster i)) hr).mono ?_ ?_ (.of_eq ?_)
    all_goals rw [hclosed]
  · rw [closedWith_plant, hsession]
    rfl
  · rw [htables]
    exact hauth

/-- What is refused, and a new entry. -/
theorem writeRoster_refusals :
    let closed : State := { s with request := none }
    let result (x : Result) : OwnEntry := mrepTo s r (r.results ++ [⟨0x90#8, b1 x.code⟩])
    let old := (lookup s.tables.roster i).getD (omittedOperator i)
    (operatorWritten old items = none → exec .writeRoster s = .next (closed.sendEntry .plant (result .badRequest)))
    ∧ (∀ new, operatorWritten old items = some new → itemBytes items 0 = none →
      (new.id = 0 ∨ new.id = 65535 ∨ (∃ e ∈ s.tables.roster, e.1 ≠ i ∧ e.2.id = new.id) →
        exec .writeRoster s = .next (closed.sendEntry .plant (result .badRequest)))
      ∧ (lookup s.tables.roster i = none → badOperatorId s i new.id = false → exec .writeRoster s
        = .next (({ closed with tables :=
            { s.tables with roster := insertAt s.tables.roster i new } } : State).sendEntry .plant (result .ok)))) := by
  refine ⟨fun h => exec_writeRoster_refused hl hstore hi hlt hitems (writeOperator_of_bad h), fun new hw h0 =>
    ⟨fun hid => exec_writeRoster_refused hl hstore hi hlt hitems ?_, fun hfree hid => ?_⟩⟩
  · rw [writeOperator_of_entry hw h0, badOperatorId_of_taken hid]
    rfl
  · refine exec_writeRoster_written hl hstore hi hlt hitems (l := insertAt s.tables.roster i new) (t := s.setRoster _) rfl ?_
    rw [writeOperator_of_entry hw h0, hid, hfree]
    rfl

end

end Sys2Proof.Machine

namespace Sys2Proof.Machine

/-! ## STATIONS: the entry a WRITE leaves (R181, R184, R185) -/

theorem code_of_stationKindOf {v : Nat} {x : StationKind} (h : stationKindOf v = some x) : x.code = v := by
  unfold stationKindOf at h
  split at h <;> cases h <;> rfl

theorem code_of_sideOf {v : Nat} {x : PortId} (h : sideOf v = some x) : sideCode x = v := by
  unfold sideOf at h
  split at h <;> cases h <;> rfl

theorem code_of_priorityOf {v : Nat} {x : Priority} (h : priorityOf v = some x) : x.code = v := by
  unfold priorityOf at h
  split at h <;> cases h <;> rfl

/-- The entry of a WRITE with these values, of a kind that is a CONSOLE's or another's (R185). -/
def stationOf (old : Option Station) (items : List Item) (address : Nat) (kind : StationKind) (horn : Priority) : Station :=
  if kind = .console then
    { address := address, kind := kind, side := stationSide old items, classes := offeredClasses old items
      features := offeredFeatures old items, hornLevel := horn }
  else
    { address := address, kind := kind, side := if kind = .self then none else stationSide old items
      classes := { view := true }, features := {}, hornLevel := .low }

section
variable {old : Option Station} {items : List Item} {w : Station}

theorem stationWritten_eq_some : stationWritten old items = some w ↔
    ∃ address kind horn, stationAddress old items = some address ∧ stationKind old items = some kind
      ∧ optItem items 6 ((old.map Station.hornLevel).getD Priority.low) priorityOf = some horn
      ∧ badSide items = false ∧ (kind ≠ .self → (stationSide old items).isSome = true)
      ∧ stationOf old items address kind horn = w := by
  have hunfold : stationWritten old items = (stationAddress old items).bind fun address =>
      (stationKind old items).bind fun kind =>
        (optItem items 6 ((old.map Station.hornLevel).getD Priority.low) priorityOf).bind fun horn =>
          if badSide items || (kind != StationKind.self && (stationSide old items).isNone) then none
          else some (stationOf old items address kind horn) := by
    unfold stationWritten stationOf
    dsimp only
    simp only [apply_ite some]
  rw [hunfold]
  simp only [Option.bind_eq_some_iff, Option.ite_none_left_eq_some, Option.some.injEq, exists_and_left]
  simp [and_assoc, Option.isSome_iff_ne_none]

theorem stationOf_address (address : Nat) (kind : StationKind) (horn : Priority) :
    (stationOf old items address kind horn).address = address := by
  unfold stationOf
  split <;> rfl

theorem stationOf_kind (address : Nat) (kind : StationKind) (horn : Priority) :
    (stationOf old items address kind horn).kind = kind := by
  unfold stationOf
  split <;> rfl

theorem stationOf_side (address : Nat) (kind : StationKind) (horn : Priority) :
    (stationOf old items address kind horn).side = if kind = .self then none else stationSide old items := by
  unfold stationOf
  split
  · next h => rw [h, if_neg nofun]
  · rfl

/-- The address a WRITE leaves (R185). -/
theorem stationAddress_eq_some {a : Nat} (h : stationAddress old items = some a) :
    (∀ v, itemValue items 1 = some v → a = v ∧ 1 ≤ v ∧ v ≤ 254)
      ∧ (itemValue items 1 = none → old.map Station.address = some a) := by
  unfold stationAddress at h
  cases hv : itemValue items 1 with
  | none =>
    rw [hv] at h
    exact ⟨nofun, fun _ => h⟩
  | some v =>
    rw [hv] at h
    dsimp only at h
    split at h
    · cases h
    · next hbad =>
      obtain rfl := Option.some.inj h
      refine ⟨fun u hu => ?_, nofun⟩
      obtain rfl := Option.some.inj hu
      exact ⟨rfl, by omega, by omega⟩

theorem stationKind_eq_some {k : StationKind} (h : stationKind old items = some k) :
    (∀ v, itemValue items 2 = some v → k.code = v) ∧ (itemValue items 2 = none → old.map Station.kind = some k) := by
  unfold stationKind at h
  cases hv : itemValue items 2 with
  | none =>
    rw [hv] at h
    exact ⟨nofun, fun _ => h⟩
  | some v =>
    rw [hv] at h
    exact ⟨fun u hu => Option.some.inj hu ▸ code_of_stationKindOf h, nofun⟩

theorem stationSide_eq_some {p : PortId} (h : stationSide old items = some p) :
    (∀ v, itemValue items 3 = some v → sideCode p = v) ∧ (itemValue items 3 = none → old.bind Station.side = some p) := by
  unfold stationSide at h
  cases hv : itemValue items 3 with
  | none =>
    rw [hv] at h
    exact ⟨nofun, fun _ => h⟩
  | some v =>
    rw [hv] at h
    exact ⟨fun u hu => Option.some.inj hu ▸ code_of_sideOf h, nofun⟩

theorem hornItem_eq_some {d x : Priority} (h : optItem items 6 d priorityOf = some x) :
    (∀ v, itemValue items 6 = some v → x.code = v) ∧ (itemValue items 6 = none → x = d) := by
  unfold optItem at h
  cases hv : itemValue items 6 with
  | none =>
    rw [hv] at h
    exact ⟨nofun, fun _ => (Option.some.inj h).symm⟩
  | some v =>
    rw [hv] at h
    exact ⟨fun u hu => Option.some.inj hu ▸ code_of_priorityOf h, nofun⟩

theorem offeredClasses_eq (old : Option Station) (items : List Item) : offeredClasses old items =
    ((itemValue items 4).map classesOf).getD ((old.map Station.classes).getD { view := true }) := by
  unfold offeredClasses
  split
  · next h => rw [h]; rfl
  · next h => rw [h]; rfl

theorem offeredFeatures_eq (old : Option Station) (items : List Item) : offeredFeatures old items =
    ((itemValue items 5).map featuresOf).getD ((old.map Station.features).getD {}) := by
  unfold offeredFeatures
  split
  · next h => rw [h]; rfl
  · next h => rw [h]; rfl

theorem stationWritten_fields (h : stationWritten old items = some w) :
    (∀ v, itemValue items 1 = some v → w.address = v ∧ 1 ≤ v ∧ v ≤ 254)
    ∧ (itemValue items 1 = none → old.map Station.address = some w.address)
    ∧ (∀ v, itemValue items 2 = some v → w.kind.code = v)
    ∧ (itemValue items 2 = none → old.map Station.kind = some w.kind)
    ∧ (w.kind = .self → w.side = none)
    ∧ (w.kind ≠ .self → ∃ side, w.side = some side ∧ (∀ v, itemValue items 3 = some v → sideCode side = v)
        ∧ (itemValue items 3 = none → old.bind Station.side = some side))
    ∧ (w.kind = .console →
        w.classes = ((itemValue items 4).map classesOf).getD ((old.map Station.classes).getD { view := true })
        ∧ w.features = ((itemValue items 5).map featuresOf).getD ((old.map Station.features).getD {})
        ∧ (∀ v, itemValue items 6 = some v → w.hornLevel.code = v)
        ∧ (itemValue items 6 = none → w.hornLevel = (old.map Station.hornLevel).getD .low))
    ∧ (w.kind ≠ .console → w.classes = { view := true } ∧ w.features = {} ∧ w.hornLevel = .low) := by
  obtain ⟨address, kind, horn, haddress, hkind, hhorn, -, hside, rfl⟩ := stationWritten_eq_some.1 h
  rw [stationOf_address, stationOf_kind, stationOf_side]
  obtain ⟨haddr1, haddr2⟩ := stationAddress_eq_some haddress
  obtain ⟨hkind1, hkind2⟩ := stationKind_eq_some hkind
  refine ⟨haddr1, haddr2, hkind1, hkind2, fun hk => if_pos hk, fun hk => ?_, fun hk => ?_, fun hk => ?_⟩
  · obtain ⟨p, hp⟩ := Option.isSome_iff_exists.1 (hside hk)
    obtain ⟨hp1, hp2⟩ := stationSide_eq_some hp
    exact ⟨p, (if_neg hk).trans hp, hp1, hp2⟩
  · obtain ⟨hhorn1, hhorn2⟩ := hornItem_eq_some hhorn
    unfold stationOf
    rw [if_pos hk]
    exact ⟨offeredClasses_eq old items, offeredFeatures_eq old items, hhorn1, hhorn2⟩
  · unfold stationOf
    rw [if_neg hk]
    exact ⟨rfl, rfl, rfl⟩

/-! ### What refuses a WRITE whatever else it carries -/

theorem badStationItems_of_count {n v : Nat} (hn : n = 7 ∨ n = 8) (hv : itemValue items n = some v) (h : v ≠ 0) :
    badStationItems items = true := by
  have hcounts : countsNonzero items [7, 8] = true := by
    rcases hn with rfl | rfl <;> simp [countsNonzero, hv, h]
  simp [badStationItems, hcounts]

theorem badStationItems_of_address {v : Nat} (hv : itemValue items 1 = some v) (h : v = 0 ∨ v = 255) :
    badStationItems items = true := by
  have haddress : ((itemValue items 1).any fun v => v == 0 || 255 ≤ v) = true := by
    rcases h with rfl | rfl <;> simp [hv]
  unfold badStationItems
  rw [haddress]
  simp

theorem badStationItems_of_kind {v : Nat} (hv : itemValue items 2 = some v) (h : stationKindOf v = none) :
    badStationItems items = true := by
  simp [badStationItems, hv, h]

theorem badStationItems_of_side {v : Nat} (hv : itemValue items 3 = some v) (h : sideOf v = none) :
    badStationItems items = true := by
  simp [badStationItems, badSide, hv, h]

/-- An entry that a WRITE leaves carries no such value, its counts apart. -/
theorem badStationItems_of_written (h : stationWritten old items = some w) (hc : countsNonzero items [7, 8] = false) :
    badStationItems items = false := by
  obtain ⟨address, kind, horn, haddress, hkind, hhorn, hside, -⟩ := stationWritten_eq_some.1 h
  have haddr : ((itemValue items 1).any fun v => v == 0 || 255 ≤ v) = false := by
    cases hv : itemValue items 1 with
    | none => rfl
    | some v =>
      obtain ⟨-, hlow, hhigh⟩ := (stationAddress_eq_some haddress).1 v hv
      simp
      omega
  have hkinds : ((itemValue items 2).any fun v => (stationKindOf v).isNone) = false := by
    unfold stationKind at hkind
    cases hv : itemValue items 2 with
    | none => rfl
    | some v =>
      rw [hv] at hkind
      simp [show stationKindOf v = some kind from hkind]
  have hhorns : ((itemValue items 6).any fun v => (priorityOf v).isNone) = false := by
    unfold optItem at hhorn
    cases hv : itemValue items 6 with
    | none => rfl
    | some v =>
      rw [hv] at hhorn
      simp [show priorityOf v = some horn from hhorn]
  unfold badStationItems
  rw [hc, haddr, hkinds, hside, hhorns]
  rfl

end

/-! ### What a WRITE to STATIONS answers -/

section
variable {s : State} {req : Request} {i : Nat} {force : Bool} {items : List Item}

theorem writeStation_of_bad (h : badStationItems items = true) :
    writeStation req i force items s = refuse req s .badRequest := by
  unfold writeStation
  dsimp only
  rw [if_pos h]

theorem writeStation_of_unwritten (h0 : itemBytes items 0 = none)
    (hw : stationWritten (lookup s.tables.stations i) items = none) :
    writeStation req i force items s = refuse req s .badRequest := by
  unfold writeStation
  dsimp only
  rw [h0, if_neg (show ¬ (none : Option (List Byte)).isSome = true from nofun), hw]
  exact ite_self _

theorem writeStation_of_removal (h0 : itemBytes items 0 ≠ none) (hbad : badStationItems items = false) :
    writeStation req i force items s =
      if stationsRefused s.tables.stations (removeAt s.tables.stations i) then refuse req s .badRequest
      else written req false (changeStation i none s) := by
  unfold writeStation
  dsimp only
  rw [if_neg (ne_true_of_eq_false hbad), if_pos (by simpa [Option.isSome_iff_ne_none] using h0)]

theorem writeStation_of_entry {new : Station} (h0 : itemBytes items 0 = none) (hbad : badStationItems items = false)
    (hw : stationWritten (lookup s.tables.stations i) items = some new) : writeStation req i force items s =
      if stationsRefused s.tables.stations (insertAt s.tables.stations i new) then refuse req s .badRequest
      else written req false (clearGateCounts new items (changeStation i (some new) s)) := by
  unfold writeStation
  dsimp only
  rw [if_neg (ne_true_of_eq_false hbad), h0, if_neg (show ¬ (none : Option (List Byte)).isSome = true from nofun), hw]

end

section
variable {s : State} {r : Request} {d : List Byte} {items : List Item} {i : Nat}
  (hl : lastWrite s r .stations d = true) (hstore : s.store = none) (hi : field2 d 0 = i) (hlt : i < 96)
  (hitems : checkedItems .stations (d.drop 3) = some items)
include hl hstore hi hlt hitems

theorem exec_writeStations_refused (hop : writeStation { r with todo := [] } i ((field1 d 2).testBit 0) items s
      = refuse { r with todo := [] } s .badRequest) :
    exec .writeStations s = .next (({ s with request := none } : State).sendEntry .plant
      (mrepTo s r (r.results ++ [⟨0x90#8, [0x02#8]⟩]))) :=
  exec_writeStations hl hstore hi hlt hitems hop rfl rfl hstore

theorem exec_writeStations_written {t : State} (ht : t.store = none)
    (hop : writeStation { r with todo := [] } i ((field1 d 2).testBit 0) items s = written { r with todo := [] } false t) :
    exec .writeStations s = .next (t.closedWith (lastMrep r (written { r with todo := [] } false t))) :=
  exec_writeStations hl hstore hi hlt hitems hop rfl rfl ht

theorem writeStations_refusals :
    let table := s.tables.stations
    let refused : Prop := exec .writeStations s = .next (({ s with request := none } : State).sendEntry .plant
      (mrepTo s r (r.results ++ [⟨0x90#8, [0x02#8]⟩])))
    ((∃ n v, (n = 7 ∨ n = 8) ∧ itemValue items n = some v ∧ v ≠ 0) → refused)
    ∧ ((∃ v, itemValue items 1 = some v ∧ (v = 0 ∨ v = 255)) → refused)
    ∧ ((∃ v, itemValue items 2 = some v ∧ stationKindOf v = none) → refused)
    ∧ ((∃ v, itemValue items 3 = some v ∧ sideOf v = none) → refused)
    ∧ (itemBytes items 0 = none → stationWritten (lookup table i) items = none → refused)
    ∧ (itemBytes items 0 ≠ none → stationsRefused table (removeAt table i) = true → refused)
    ∧ (∀ new, itemBytes items 0 = none → stationWritten (lookup table i) items = some new →
        stationsRefused table (insertAt table i new) = true → refused) := by
  have hrefused := exec_writeStations_refused hl hstore hi hlt hitems
  have hbad (h : badStationItems items = true) := hrefused (writeStation_of_bad h)
  refine ⟨fun ⟨n, v, hn, hv, h⟩ => hbad (badStationItems_of_count hn hv h),
    fun ⟨v, hv, h⟩ => hbad (badStationItems_of_address hv h), fun ⟨v, hv, h⟩ => hbad (badStationItems_of_kind hv h),
    fun ⟨v, hv, h⟩ => hbad (badStationItems_of_side hv h), fun h0 hw => hrefused (writeStation_of_unwritten h0 hw),
    fun h0 hr => ?_, fun new h0 hw hr => ?_⟩
  · cases hb : badStationItems items with
    | true => exact hbad hb
    | false => exact hrefused (by rw [writeStation_of_removal h0 hb, if_pos hr])
  · cases hb : badStationItems items with
    | true => exact hbad hb
    | false => exact hrefused (by rw [writeStation_of_entry h0 hb hw, if_pos hr])

end

end Sys2Proof.Machine

namespace Sys2Proof.Machine

/-! ## The areas held from a lost seat (R85, R108) -/

section
variable (s : State) (h : Holder)

/-- The area as GRACE finds it, where `h` holds it. -/
def Area.graced (r : Area) (h : Holder) (ticks : Nat) : Area :=
  if r.authority = .held ∧ r.holder = some h then { r with authority := .grace, graceLeft := ticks } else r

theorem areaParams_enterGrace (a b : Nat) : (s.enterGrace a).areaParams b = s.areaParams b := by
  unfold State.areaParams
  rw [(enterGrace_authorityStep s a).frame]

theorem area_foldl_graceSeat {l : List Nat} (hl : l.Nodup) (b : Nat) :
    (l.foldl (fun acc a => if (acc.area a).authority == .held && (acc.area a).holder == some h then acc.enterGrace a
      else acc) s).area b = if b ∈ l then (s.area b).graced h (s.areaParams b).grace else s.area b := by
  induction l generalizing s with
  | nil => rfl
  | cons a l ih =>
    obtain ⟨ha, hl'⟩ := List.nodup_cons.1 hl
    rw [List.foldl_cons]
    split
    · next hheld =>
      have hcond : (s.area a).authority = .held ∧ (s.area a).holder = some h := by simpa using hheld
      rw [ih _ hl', area_enterGrace, areaParams_enterGrace]
      by_cases hb : b = a
      · subst hb
        simp only [ha, if_false, List.mem_cons_self, if_true]
        exact (if_pos hcond).symm
      · simp [hb]
    · next hheld =>
      have hcond : ¬ ((s.area a).authority = .held ∧ (s.area a).holder = some h) := by simpa using hheld
      rw [ih _ hl']
      by_cases hb : b = a
      · subst hb
        simp only [ha, if_false, List.mem_cons_self, if_true]
        exact (if_neg hcond).symm
      · simp [hb]

theorem area_graceSeat {b : Nat} (hb : b < 16) :
    (s.graceSeat h).area b = (s.area b).graced h (s.areaParams b).grace :=
  (area_foldl_graceSeat s h List.nodup_range b).trans (if_pos (List.mem_range.2 hb))

end

/-- The area after the loss of the seat. -/
theorem endSession_removed_area {a n op : Nat} {s : State} (hop : (lookup s.consoles a).bind (·.seatOp n) = some op)
    {b : Nat} (hb : b < 16) : { (endSession a n .removed s).area b with openRecord := (s.area b).openRecord } =
      (s.area b).graced ⟨op, a, n⟩ (s.areaParams b).grace := by
  have hgrace := area_graceSeat (s.modConsole a (Console.vacated n)) ⟨op, a, n⟩ hb
  have hparams : (s.modConsole a (Console.vacated n)).areaParams b = s.areaParams b := by
    unfold State.areaParams
    rw [modConsole_frame]
  rw [area_congr (modConsole_areas ..), hparams] at hgrace
  have hopen : ((s.area b).graced ⟨op, a, n⟩ (s.areaParams b).grace).openRecord = (s.area b).openRecord := by
    unfold Area.graced
    split <;> rfl
  have hclosed := abortIncoming_recordsClosed ((s.modConsole a (Console.vacated n)).graceSeat ⟨op, a, n⟩) op b
  rw [hgrace, hopen] at hclosed
  rw [endSession_of_seated hop, area_congr (hornStep2_areas ..)]
  exact hclosed

/-- Authority, holder and grace of an area. -/
def Area.hold (r : Area) : Authority × Option Holder × Nat := (r.authority, r.holder, r.graceLeft)

theorem endSession_removed_hold (a n : Nat) (s : State) {b : Nat} (hb : b < 16) :
    ((endSession a n .removed s).area b).hold =
      match (lookup s.consoles a).bind (·.seatOp n) with
      | some op => ((s.area b).graced ⟨op, a, n⟩ (s.areaParams b).grace).hold
      | none => (s.area b).hold := by
  cases hop : (lookup s.consoles a).bind (·.seatOp n) with
  | none => rw [endSession_of_empty hop]
  | some op =>
    have hhold := congrArg Area.hold (endSession_removed_area hop hb)
    exact hhold

theorem endSession_areaParams (a n : Nat) (cause : EndCause) (s : State) (b : Nat) :
    (endSession a n cause s).areaParams b = s.areaParams b := by
  unfold State.areaParams
  rw [endSession_frame]

/-- The other seat stays as it is. -/
theorem endSession_seatOp_of_ne {a n m : Nat} (hm : m ≠ n) (cause : EndCause) (s : State) :
    (lookup (endSession a n cause s).consoles a).bind (·.seatOp m) = (lookup s.consoles a).bind (·.seatOp m) := by
  cases hop : (lookup s.consoles a).bind (·.seatOp n) with
  | none => rw [endSession_of_empty hop]
  | some op =>
    rw [(endSession_authorityStep hop cause).consoles.seatOp, lookup_modConsole, if_pos rfl, Option.bind_map]
    refine congrArg (Option.bind _) (funext fun c => ?_)
    exact (vacated_seatOp n c m).trans (if_neg hm)

theorem graced_of_holds {r : Area} {h : Holder} {ticks : Nat} (ha : r.authority = .held) (hh : r.holder = some h) :
    (r.graced h ticks).hold = (.grace, some h, ticks) := by
  unfold Area.graced
  rw [if_pos ⟨ha, hh⟩]
  exact Prod.ext rfl (Prod.ext hh rfl)

theorem graced_of_other {r : Area} {h : Holder} {ticks : Nat} (hn : ¬ (r.authority = .held ∧ r.holder = some h)) :
    (r.graced h ticks).hold = r.hold := by
  unfold Area.graced
  rw [if_neg hn]

/-- A console's detach leaves the areas held from either seat in GRACE, seat 1 before seat 2. -/
theorem detachConsole_seatsInGrace {a : Nat} {c : Console} {s : State} (hc : lookup s.consoles a = some c)
    (hatt : c.attached = true) : SeatsInGrace a c s (detachConsole .removed a s) := by
  intro b h hb hheld hholder hconsole hseat hop
  have hdetach : (detachConsole .removed a s).area b =
      (endSession a 2 .removed (endSession a 1 .removed s)).area b := by
    unfold detachConsole
    rw [hc]
    dsimp only
    rw [if_pos hatt]
    exact area_congr (modConsole_areas ..) b
  have hlook (n : Nat) : (lookup s.consoles a).bind (·.seatOp n) = c.seatOp n := by rw [hc]; rfl
  have hfirst := endSession_removed_hold a 1 s hb
  have hsecond := endSession_removed_hold a 2 (endSession a 1 .removed s) hb
  rw [endSession_seatOp_of_ne (show (2 : Nat) ≠ 1 by decide), endSession_areaParams, hlook] at hsecond
  rw [hlook] at hfirst
  have hend : ((endSession a 2 .removed (endSession a 1 .removed s)).area b).hold =
      (.grace, some h, (s.areaParams b).grace) := by
    obtain ⟨op, console, seat⟩ := h
    dsimp only at hconsole hseat hop
    obtain rfl : a = console := hconsole.symm
    rcases hseat with rfl | rfl
    · rw [hop] at hfirst
      have hgrace := hfirst.trans (graced_of_holds hheld hholder)
      rw [hsecond, ← hgrace]
      split
      · exact graced_of_other fun hn => absurd ((congrArg (·.1) hgrace).symm.trans hn.1) nofun
      · rfl
    · have hsame : ((endSession a 1 .removed s).area b).hold = (s.area b).hold := by
        rw [hfirst]
        split
        · exact graced_of_other fun hn => absurd (hholder.symm.trans hn.2) (by simp)
        · rfl
      rw [hop] at hsecond
      exact hsecond.trans (graced_of_holds ((congrArg (·.1) hsame).trans hheld) ((congrArg (·.2.1) hsame).trans hholder))
  rw [hdetach]
  exact ⟨congrArg (·.1) hend, congrArg (·.2.1) hend, congrArg (·.2.2) hend⟩

end Sys2Proof.Machine

namespace Sys2Proof.Machine

/-! ## A station entry that changes or leaves (R41, R89, R146, R184) -/

/-- What a change of a station entry may reach. -/
abbrev StationFrame (s t : State) : Prop :=
  t = { s with
    slots := t.slots, areas := t.areas, consoles := t.consoles, controllers := t.controllers
    commands := t.commands, records := t.records, retained := t.retained, time := t.time, owed := t.owed
    plant := t.plant, console := t.console, latched := t.latched, statSeq := t.statSeq, request := t.request
    statSent := t.statSent }

theorem StationFrame.trans {s t u : State} (h : StationFrame s t) (k : StationFrame t u) : StationFrame s u := by
  unfold StationFrame at h k ⊢
  rw [k, h]

theorem StationFrame.of_session {s t : State} (h : SessionFrame s t) : StationFrame s t := by
  unfold StationFrame
  rw [h]

theorem becomeStale_stationFrame (a : Nat) (s : State) : StationFrame s (becomeStale a s) := by
  unfold StationFrame becomeStale
  rw [handOn_frame, staleEv_frame]

theorem modController_stationFrame (s : State) (a : Nat) (f : Controller → Controller) :
    StationFrame s (s.modController a f) := by
  unfold StationFrame
  rw [modController_frame]

/-- A controller of whose hold alone is lifted. -/
theorem clearFaultLatch_frame (a : Nat) (s : State) : clearFaultLatch a s = { s with
    controllers := (clearFaultLatch a s).controllers, consoles := (clearFaultLatch a s).consoles } := by
  unfold clearFaultLatch State.notifyAll
  rw [notifyEach_frame, modController_frame]

/-- A controller that leaves: STALE where it was LIVE, its resynchronisation abandoned where not. -/
def quietController (a : Nat) (c : Controller) (s : State) : State :=
  if c.live then becomeStale a s else s.modController a Controller.abandon

/-- The same with its hold cleared. -/
def releaseController (a : Nat) (c : Controller) (s : State) : State :=
  if c.faultHeld then clearFaultLatch a (quietController a c s) else quietController a c s

theorem quietController_stationFrame (a : Nat) (c : Controller) (s : State) : StationFrame s (quietController a c s) := by
  unfold quietController
  split
  · exact becomeStale_stationFrame ..
  · exact modController_stationFrame ..

theorem releaseController_frame (a : Nat) (c : Controller) (s : State) : releaseController a c s =
    { quietController a c s with
      controllers := (releaseController a c s).controllers, consoles := (releaseController a c s).consoles } := by
  unfold releaseController
  split
  · exact clearFaultLatch_frame ..
  · rfl

section
variable {a : Nat} {s : State}

theorem dropController_of_some {c : Controller} (h : lookup s.controllers a = some c) : dropController a s =
    { releaseController a c s with controllers := removeAt (releaseController a c s).controllers a } := by
  unfold dropController
  rw [h]
  rfl

theorem dropController_of_none (h : lookup s.controllers a = none) : dropController a s = s := by
  unfold dropController
  rw [h]

theorem dropController_stationFrame (a : Nat) (s : State) : StationFrame s (dropController a s) := by
  obtain h | ⟨c, h⟩ := Option.eq_none_or_eq_some (lookup s.controllers a)
  · rw [dropController_of_none h]
  · have hquiet := quietController_stationFrame a c s
    unfold StationFrame at hquiet ⊢
    rw [dropController_of_some h, releaseController_frame, hquiet]

theorem lookup_dropController (a : Nat) (s : State) : lookup (dropController a s).controllers a = none := by
  obtain h | ⟨c, h⟩ := Option.eq_none_or_eq_some (lookup s.controllers a)
  · rw [dropController_of_none h]
    exact h
  · rw [dropController_of_some h]
    exact lookup_removeAt_self ..

/-- A LIVE controller that leaves becomes STALE first. -/
theorem dropController_of_live (h : s.controllerLive a = true) :
    (dropController a s).slots = (becomeStale a s).slots ∧ (dropController a s).commands = (becomeStale a s).commands := by
  unfold State.controllerLive at h
  obtain hn | ⟨c, hc⟩ := Option.eq_none_or_eq_some (lookup s.controllers a)
  · rw [hn] at h
    exact absurd h nofun
  · rw [hc] at h
    have hquiet : quietController a c s = becomeStale a s := if_pos h
    rw [dropController_of_some hc, releaseController_frame, hquiet]
    exact ⟨rfl, rfl⟩

theorem dropConsole_eq (a : Nat) (s : State) : dropConsole a s = { detachConsole .removed a s with
    consoles := removeAt (detachConsole .removed a s).consoles a } := rfl

theorem dropConsole_frame (a : Nat) (s : State) : SessionFrame s (dropConsole a s) := by
  have h := detachConsole_frame .removed a s
  unfold SessionFrame at h ⊢
  rw [dropConsole_eq, h]

theorem lookup_dropConsole (a : Nat) (s : State) : lookup (dropConsole a s).consoles a = none := lookup_removeAt_self ..

end

/-! ### The change, step by step -/

/-- The entry that stands at the index as it leaves what it configured. -/
def leaveStation (old new : Option Station) (s : State) : State := leaveConsole old new (leaveController old new s)

section
variable (old new : Option Station) (s : State)

theorem leaveController_frame : StationFrame s (leaveController old new s) := by
  unfold leaveController
  split
  · split
    · rfl
    · exact dropController_stationFrame ..
  · rfl

theorem leaveConsole_frame : SessionFrame s (leaveConsole old new s) := by
  unfold leaveConsole
  split
  · split
    · rfl
    · exact dropConsole_frame ..
  · rfl

theorem leaveStation_frame : StationFrame s (leaveStation old new s) :=
  (leaveController_frame old new s).trans (.of_session (leaveConsole_frame ..))

theorem joinController_frame : joinController old new s = { s with controllers := (joinController old new s).controllers } := by
  unfold joinController
  split
  · split <;> rfl
  · rfl

theorem joinConsole_frame : joinConsole old new s = { s with consoles := (joinConsole old new s).consoles } := by
  unfold joinConsole
  split
  · split
    · split
      · rfl
      · exact hornStep2_frame ..
    · rfl
  · rfl

/-- What a change of the entry leaves beside the stations, the controllers and the consoles was left by the old entry. -/
theorem changeStation_frame (i : Nat) : changeStation i new s =
    { leaveStation (lookup s.tables.stations i) new s with
      tables := { s.tables with stations := changedStations i new s.tables.stations }
      controllers := (changeStation i new s).controllers, consoles := (changeStation i new s).consoles } := by
  have htables : (leaveStation (lookup s.tables.stations i) new s).tables = s.tables := by rw [leaveStation_frame]
  rw [changeStation_eq]
  dsimp only
  rw [joinConsole_frame, joinController_frame]
  unfold State.withStations
  rw [show (leaveConsole (lookup s.tables.stations i) new (leaveController (lookup s.tables.stations i) new s)).tables
    = s.tables from htables]
  rfl

theorem lookup_joinController (a : Nat) : lookup (joinController old new s).controllers a =
    if controllerAddress new = some a ∧ controllerAddress old ≠ some a then some {} else lookup s.controllers a := by
  unfold joinController
  cases hn : controllerAddress new with
  | none => simp
  | some b =>
    dsimp only
    by_cases ho : controllerAddress old = some b
    · rw [if_pos ho, if_neg]
      rintro ⟨hb, hne⟩
      exact hne (ho.trans hb)
    · rw [if_neg ho, lookup_insertAt]
      by_cases hab : a = b
      · subst hab
        simp [ho]
      · rw [if_neg hab, if_neg fun h => hab (Option.some.inj h.1).symm]

/-- A console that joins is DETACHED; where the entry keeps none, no other console moves. -/
theorem lookup_joinConsole_of_ne (h : ∀ b, consoleAddress new = some b → consoleAddress old ≠ some b) (a : Nat) :
    lookup (joinConsole old new s).consoles a =
      if consoleAddress new = some a then some {} else lookup s.consoles a := by
  unfold joinConsole
  cases hn : consoleAddress new with
  | none => simp
  | some b =>
    dsimp only
    rw [if_neg (h b hn), lookup_insertAt]
    by_cases hab : a = b
    · simp [hab]
    · rw [if_neg hab, if_neg fun he => hab (Option.some.inj he).symm]

/-- A console that the entry keeps is what it was, its horn and notices apart. -/
theorem joinConsole_consolesKept (h : consoleAddress old = consoleAddress new) : ConsolesKept s (joinConsole old new s) := by
  unfold joinConsole
  split
  · next b hn =>
    rw [if_pos (h.trans hn)]
    split
    · exact .refl s
    · exact hornStep2_consolesKept _ _
  · exact .refl s

end

theorem controllerAddress_eq_some {st : Station} {a : Nat} :
    controllerAddress (some st) = some a ↔ st.kind = .controller ∧ st.side = some .plant ∧ a = st.address := by
  unfold controllerAddress Station.isController
  simp only [Option.ite_none_right_eq_some, Bool.and_eq_true, beq_iff_eq, Option.some.injEq, and_assoc]
  rw [eq_comm (a := a)]

theorem consoleAddress_eq_some {st : Station} {a : Nat} :
    consoleAddress (some st) = some a ↔ st.kind = .console ∧ st.side = some .console ∧ a = st.address := by
  unfold consoleAddress Station.isConsole
  simp only [Option.ite_none_right_eq_some, Bool.and_eq_true, beq_iff_eq, Option.some.injEq, and_assoc]
  rw [eq_comm (a := a)]

/-- No entry configures both. -/
theorem consoleAddress_of_controller {st : Station} {a : Nat} (h : controllerAddress (some st) = some a) :
    consoleAddress (some st) = none := by
  rw [Option.eq_none_iff_forall_ne_some]
  intro b hb
  have hk := (controllerAddress_eq_some.1 h).1.symm.trans (consoleAddress_eq_some.1 hb).1
  exact absurd hk nofun

theorem controllerAddress_of_console {st : Station} {a : Nat} (h : consoleAddress (some st) = some a) :
    controllerAddress (some st) = none := by
  rw [Option.eq_none_iff_forall_ne_some]
  intro b hb
  have hk := (controllerAddress_eq_some.1 hb).1.symm.trans (consoleAddress_eq_some.1 h).1
  exact absurd hk nofun

section
variable {st : Station} {new : Option Station} {s : State} {i a : Nat}

theorem leaveController_of_ne (ha : controllerAddress (some st) = some a) (hn : controllerAddress new ≠ some a) :
    leaveController (some st) new s = dropController a s := by
  unfold leaveController
  rw [ha]
  dsimp only
  rw [if_neg hn]

theorem leaveConsole_of_ne (ha : consoleAddress (some st) = some a) (hn : consoleAddress new ≠ some a) :
    leaveConsole (some st) new s = dropConsole a s := by
  unfold leaveConsole
  rw [ha]
  dsimp only
  rw [if_neg hn]

theorem leaveController_of_kept {old : Option Station}
    (h : controllerAddress old = none ∨ controllerAddress old = controllerAddress new) : leaveController old new s = s := by
  unfold leaveController
  split
  · next b hb =>
    refine if_pos ?_
    rcases h with h | h
    · rw [hb] at h
      cases h
    · exact h.symm.trans hb
  · rfl

theorem leaveConsole_of_kept {old : Option Station}
    (h : consoleAddress old = none ∨ consoleAddress old = consoleAddress new) : leaveConsole old new s = s := by
  unfold leaveConsole
  split
  · next b hb =>
    refine if_pos ?_
    rcases h with h | h
    · rw [hb] at h
      cases h
    · exact h.symm.trans hb
  · rfl

theorem leaveStation_of_controller (ha : controllerAddress (some st) = some a) (hn : controllerAddress new ≠ some a) :
    leaveStation (some st) new s = dropController a s := by
  unfold leaveStation
  rw [leaveController_of_ne ha hn, leaveConsole_of_kept (.inl (consoleAddress_of_controller ha))]

theorem leaveStation_of_console (ha : consoleAddress (some st) = some a) (hn : consoleAddress new ≠ some a) :
    leaveStation (some st) new s = dropConsole a s := by
  unfold leaveStation
  rw [leaveController_of_kept (.inl (controllerAddress_of_console ha)), leaveConsole_of_ne ha hn]

/-- The controllers after the change, where the entry's old one has left or stayed. -/
theorem lookup_changeStation_controllers (new : Option Station) (s : State) (i a : Nat) :
    lookup (changeStation i new s).controllers a =
      if controllerAddress new = some a ∧ controllerAddress (lookup s.tables.stations i) ≠ some a then some {}
      else lookup (leaveController (lookup s.tables.stations i) new s).controllers a := by
  have hleave : (leaveStation (lookup s.tables.stations i) new s).controllers
      = (leaveController (lookup s.tables.stations i) new s).controllers := by
    unfold leaveStation
    rw [leaveConsole_frame]
  rw [changeStation_eq, ← hleave]
  dsimp only
  rw [joinConsole_frame]
  exact lookup_joinController ..

/-- The state in which the new entry's console joins. -/
def placedStation (i : Nat) (new : Option Station) (s : State) : State :=
  let t := leaveStation (lookup s.tables.stations i) new s
  joinController (lookup s.tables.stations i) new (t.withStations (changedStations i new t.tables.stations))

theorem changeStation_placed (new : Option Station) (s : State) (i : Nat) :
    changeStation i new s = joinConsole (lookup s.tables.stations i) new (placedStation i new s) := rfl

theorem placedStation_consoles (new : Option Station) (s : State) (i : Nat) :
    (placedStation i new s).consoles = (leaveStation (lookup s.tables.stations i) new s).consoles := by
  unfold placedStation
  dsimp only
  rw [joinController_frame]
  rfl

/-- The entry's controller has left. -/
theorem controllerLeft_changeStation (hst : lookup s.tables.stations i = some st)
    (hne : controllerAddress (some st) ≠ controllerAddress new) : ControllerLeft st s (changeStation i new s) := by
  intro a ha
  have hn : controllerAddress new ≠ some a := fun h => hne (ha.trans h.symm)
  refine ⟨?_, fun hlive => ?_⟩
  · rw [lookup_changeStation_controllers, if_neg (fun h => hn h.1), hst, leaveController_of_ne ha hn]
    exact lookup_dropController a s
  · obtain ⟨hslots, hcommands⟩ := dropController_of_live hlive
    rw [changeStation_frame, hst, leaveStation_of_controller ha hn, hslots, hcommands]
    exact ⟨fun c hc => (becomeStale_commands a s hc).2, fun j sl hj hctl => becomeStale_slots a s hj hctl⟩

/-- The entry's console has left. -/
theorem consoleLeft_changeStation (hst : lookup s.tables.stations i = some st)
    (hne : consoleAddress (some st) ≠ consoleAddress new) : ConsoleLeft st s (changeStation i new s) := by
  intro a c ha hc
  have hn : consoleAddress new ≠ some a := fun h => hne (ha.trans h.symm)
  refine ⟨?_, fun hatt => ?_⟩
  · rw [changeStation_placed, hst, lookup_joinConsole_of_ne _ _ _ fun b hb ho => hne (ho.trans hb.symm), if_neg hn, placedStation_consoles, hst,
      leaveStation_of_console ha hn]
    exact lookup_dropConsole a s
  · have hareas : (changeStation i new s).areas = (detachConsole .removed a s).areas := by
      rw [changeStation_frame, hst, leaveStation_of_console ha hn]
      rfl
    intro b h hb hheld hholder hcon hseat hop
    rw [area_congr hareas]
    exact detachConsole_seatsInGrace hc hatt b h hb hheld hholder hcon hseat hop

end

end Sys2Proof.Machine

namespace Sys2Proof.Machine

/-! ## A WRITE to STATIONS (R185) -/

/-- A controller whose counts a WRITE has cleared (R146). -/
def Controller.cleared (items : List Item) (c : Controller) : Controller :=
  { c with
    slow := if itemValue items 7 = none then c.slow else 0
    late := if itemValue items 8 = none then c.late else 0 }

theorem cleared_new (items : List Item) : ({} : Controller).cleared items = {} := by
  unfold Controller.cleared
  rw [ite_self, ite_self]

theorem clearGateCounts_frame (new : Station) (items : List Item) (s : State) :
    clearGateCounts new items s = { s with controllers := (clearGateCounts new items s).controllers } := by
  unfold clearGateCounts
  split
  · exact modController_frame ..
  · rfl

theorem lookup_clearGateCounts (new : Station) (items : List Item) (s : State) (a : Nat) :
    lookup (clearGateCounts new items s).controllers a =
      if controllerAddress (some new) = some a then (lookup s.controllers a).map (Controller.cleared items)
      else lookup s.controllers a := by
  have hcleared (v : Option Nat) (n : Nat) : (if v.isSome then 0 else n) = if v = none then n else 0 := by
    cases v <;> rfl
  unfold clearGateCounts
  simp only [hcleared]
  cases hc : new.isController with
  | false =>
    have hnone : controllerAddress (some new) = none := by simp [controllerAddress, hc]
    rw [hnone, if_neg nofun]
    rfl
  | true =>
    have hsome : controllerAddress (some new) = some new.address := by simp [controllerAddress, hc]
    rw [hsome, if_pos rfl, lookup_modController]
    by_cases ha : a = new.address
    · rw [if_pos ha, if_pos (by rw [ha]), ha]
      rfl
    · rw [if_neg ha, if_neg fun h => ha (Option.some.inj h).symm]

theorem ControllerLeft.mono {st : Station} {s t u : State} (h : ControllerLeft st s t)
    (hc : ∀ a, lookup t.controllers a = none → lookup u.controllers a = none) (hs : u.slots = t.slots)
    (hm : u.commands = t.commands) : ControllerLeft st s u := fun a ha => by
  obtain ⟨hnone, hlive⟩ := h a ha
  rw [hs, hm]
  exact ⟨hc a hnone, hlive⟩

theorem ConsoleLeft.mono {st : Station} {s t u : State} (h : ConsoleLeft st s t) (hc : u.consoles = t.consoles)
    (ha : u.areas = t.areas) : ConsoleLeft st s u := fun a c haddress hlook => by
  obtain ⟨hnone, hatt⟩ := h a c haddress hlook
  rw [hc]
  refine ⟨hnone, fun hattached b g hb hheld hholder hcon hseat hop => ?_⟩
  rw [area_congr ha]
  exact hatt hattached b g hb hheld hholder hcon hseat hop

theorem ControllerLeft.closedWith {st : Station} {s t : State} (h : ControllerLeft st s t) (e : OwnEntry) :
    ControllerLeft st s (t.closedWith e) := by
  refine h.mono (fun a ha => ?_) ?_ ?_
  all_goals rw [closedWith_frame]
  exact ha

theorem ConsoleLeft.closedWith {st : Station} {s t : State} (h : ConsoleLeft st s t) (e : OwnEntry) :
    ConsoleLeft st s (t.closedWith e) := by
  refine h.mono ?_ ?_
  all_goals rw [closedWith_frame]

/-- What no change of a station entry reaches, its request closed. -/
theorem closedWith_stationKept {s t : State} (h : StationFrame { s with tables := t.tables } t) (e : OwnEntry) :
    (t.closedWith e).memory = s.memory ∧ (t.closedWith e).dyn = s.dyn ∧ (t.closedWith e).queue = s.queue
      ∧ (t.closedWith e).shelf = s.shelf ∧ (t.closedWith e).request = none ∧ (t.closedWith e).store = s.store
      ∧ (t.closedWith e).pending = s.pending := by
  rw [closedWith_frame, h]
  exact ⟨rfl, rfl, rfl, rfl, rfl, rfl, rfl⟩

theorem changeStation_stationFrame (i : Nat) (new : Option Station) (s : State) :
    StationFrame { s with tables := (changeStation i new s).tables } (changeStation i new s) := by
  have hleave := leaveStation_frame (lookup s.tables.stations i) new s
  unfold StationFrame at hleave ⊢
  rw [changeStation_frame, hleave]

theorem lookup_changeStation_stations (i : Nat) (new : Option Station) (s : State) (j : Nat) :
    lookup (changeStation i new s).tables.stations j = if j = i then new else lookup s.tables.stations j := by
  rw [changeStation_frame]
  cases new with
  | none => exact lookup_removeAt ..
  | some st => exact lookup_insertAt ..

/-- The state a WRITE of an entry leaves before its MREP. -/
def stationPlaced (i : Nat) (new : Station) (items : List Item) (s : State) : State :=
  clearGateCounts new items (changeStation i (some new) s)

theorem stationPlaced_frame (i : Nat) (new : Station) (items : List Item) (s : State) :
    stationPlaced i new items s =
      { changeStation i (some new) s with controllers := (stationPlaced i new items s).controllers } :=
  clearGateCounts_frame ..

theorem stationPlaced_stationFrame (i : Nat) (new : Station) (items : List Item) (s : State) :
    StationFrame { s with tables := (stationPlaced i new items s).tables } (stationPlaced i new items s) := by
  have hchange := changeStation_stationFrame i (some new) s
  unfold StationFrame at hchange ⊢
  rw [stationPlaced_frame, hchange]

theorem changeStation_store (i : Nat) (new : Option Station) (s : State) : (changeStation i new s).store = s.store := by
  rw [changeStation_stationFrame]

theorem stationPlaced_store (i : Nat) (new : Station) (items : List Item) (s : State) :
    (stationPlaced i new items s).store = s.store := by
  rw [stationPlaced_stationFrame]

section
variable {s : State} {r : Request} {d : List Byte} {items : List Item} {i : Nat}
  (hl : lastWrite s r .stations d = true) (hstore : s.store = none) (hi : field2 d 0 = i) (hlt : i < 96)
  (hitems : checkedItems .stations (d.drop 3) = some items)
include hl hstore hi hlt hitems

/-- The entry is removed. -/
theorem writeStations_removal {st : Station} (hst : lookup s.tables.stations i = some st) (h0 : itemBytes items 0 ≠ none)
    (hbad : badStationItems items = false)
    (href : stationsRefused s.tables.stations (removeAt s.tables.stations i) = false) :
    ∃ t, exec .writeStations s = .next t
      ∧ (∀ j, lookup t.tables.stations j = if j = i then none else lookup s.tables.stations j)
      ∧ StationLeft st s t
      ∧ t.memory = s.memory ∧ t.dyn = s.dyn ∧ t.queue = s.queue ∧ t.shelf = s.shelf ∧ t.request = none
      ∧ t.store = s.store ∧ t.pending = s.pending := by
  have hop : writeStation { r with todo := [] } i ((field1 d 2).testBit 0) items s =
      written { r with todo := [] } false (changeStation i none s) := by
    rw [writeStation_of_removal h0 hbad, href]
    rfl
  refine ⟨_, exec_writeStations_written hl hstore hi hlt hitems ((changeStation_store ..).trans hstore) hop, fun j => ?_,
    ⟨?_, ?_⟩, closedWith_stationKept (changeStation_stationFrame i none s) _⟩
  · rw [closedWith_frame]
    exact lookup_changeStation_stations ..
  · intro a ha
    have hne : controllerAddress (some st) ≠ controllerAddress none := by rw [ha]; exact nofun
    exact (controllerLeft_changeStation hst hne).closedWith _ a ha
  · intro a c ha
    have hne : consoleAddress (some st) ≠ consoleAddress none := by rw [ha]; exact nofun
    exact (consoleLeft_changeStation hst hne).closedWith _ a c ha

/-- A new entry at a free index. -/
theorem writeStations_free {new : Station} (hfree : lookup s.tables.stations i = none) (h0 : itemBytes items 0 = none)
    (hcounts : countsNonzero items [7, 8] = false) (hw : stationWritten none items = some new)
    (href : stationsRefused s.tables.stations (insertAt s.tables.stations i new) = false) :
    ∃ t, exec .writeStations s = .next t
      ∧ (∀ j, lookup t.tables.stations j = if j = i then some new else lookup s.tables.stations j)
      ∧ t.tables = { s.tables with stations := t.tables.stations }
      ∧ (∀ a, lookup t.controllers a =
          if new.kind = .controller ∧ new.side = some .plant ∧ a = new.address then some {}
          else lookup s.controllers a)
      ∧ (∀ a, lookup t.consoles a =
          if new.kind = .console ∧ new.side = some .console ∧ a = new.address then some {}
          else lookup s.consoles a)
      ∧ t = { s with
          request := none, tables := t.tables, controllers := t.controllers, consoles := t.consoles
          plant := t.plant, latched := t.latched, statSeq := t.statSeq, statSent := t.statSent } := by
  have hbad := badStationItems_of_written hw hcounts
  have hop : writeStation { r with todo := [] } i ((field1 d 2).testBit 0) items s =
      written { r with todo := [] } false (stationPlaced i new items s) := by
    rw [writeStation_of_entry h0 hbad (by rw [hfree]; exact hw), href]
    rfl
  have hleave : leaveStation none (some new) s = s := rfl
  have hplaced : stationPlaced i new items s = { s with
      tables := { s.tables with stations := insertAt s.tables.stations i new }
      controllers := (stationPlaced i new items s).controllers, consoles := (stationPlaced i new items s).consoles } := by
    rw [stationPlaced_frame, changeStation_frame, hfree, hleave]
    rfl
  refine ⟨_, exec_writeStations_written hl hstore hi hlt hitems ((stationPlaced_store ..).trans hstore) hop, fun j => ?_, ?_,
    fun a => ?_, fun a => ?_, ?_⟩
  · rw [closedWith_frame, hplaced]
    exact lookup_insertAt ..
  · rw [closedWith_frame, hplaced]
  · rw [closedWith_frame]
    refine (lookup_clearGateCounts ..).trans ?_
    rw [lookup_changeStation_controllers, hfree]
    refine Eq.trans ?_ (if_congr controllerAddress_eq_some rfl rfl)
    by_cases ha : controllerAddress (some new) = some a
    · rw [if_pos ha, if_pos ⟨ha, nofun⟩, if_pos ha]
      exact congrArg some (cleared_new items)
    · rw [if_neg ha, if_neg fun h => ha h.1, if_neg ha]
      rfl
  · rw [closedWith_frame, stationPlaced_frame, changeStation_placed, hfree]
    refine Eq.trans ?_ (if_congr consoleAddress_eq_some rfl rfl)
    refine (lookup_joinConsole_of_ne none (some new) _ (fun b _ => nofun) a).trans ?_
    rw [placedStation_consoles, hfree, hleave]
  · rw [closedWith_frame, hplaced]

/-- The entry is written over the old one. -/
theorem writeStations_over {st new : Station} (hst : lookup s.tables.stations i = some st) (h0 : itemBytes items 0 = none)
    (hcounts : countsNonzero items [7, 8] = false) (hw : stationWritten (some st) items = some new)
    (href : stationsRefused s.tables.stations (insertAt s.tables.stations i new) = false) :
    ∃ t, exec .writeStations s = .next t
      ∧ (∀ j, lookup t.tables.stations j = if j = i then some new else lookup s.tables.stations j)
      ∧ (controllerAddress (some st) = none ∨ controllerAddress (some st) = controllerAddress (some new) →
          t.slots = s.slots ∧ t.commands = s.commands
          ∧ (consoleAddress (some st) = none ∨ consoleAddress (some st) = consoleAddress (some new) →
              t.areas = s.areas ∧ t.records = s.records))
      ∧ (∀ a, controllerAddress (some st) = some a → controllerAddress (some new) = some a →
          lookup t.controllers a = (lookup s.controllers a).map fun c => { c with
            slow := if itemValue items 7 = none then c.slow else 0
            late := if itemValue items 8 = none then c.late else 0 })
      ∧ (∀ a, controllerAddress (some new) = some a → controllerAddress (some st) ≠ some a →
          lookup t.controllers a = some {})
      ∧ (controllerAddress (some st) ≠ controllerAddress (some new) → ControllerLeft st s t)
      ∧ (∀ a, consoleAddress (some st) = some a → consoleAddress (some new) = some a →
          (lookup t.consoles a).map Console.bare = (lookup s.consoles a).map Console.bare)
      ∧ (∀ a, consoleAddress (some new) = some a → consoleAddress (some st) ≠ some a → lookup t.consoles a = some {})
      ∧ (consoleAddress (some st) ≠ consoleAddress (some new) → ConsoleLeft st s t)
      ∧ t.memory = s.memory ∧ t.dyn = s.dyn ∧ t.queue = s.queue ∧ t.shelf = s.shelf ∧ t.request = none
      ∧ t.store = s.store ∧ t.pending = s.pending := by
  have hop : writeStation { r with todo := [] } i ((field1 d 2).testBit 0) items s =
      written { r with todo := [] } false (stationPlaced i new items s) := by
    rw [writeStation_of_entry h0 (badStationItems_of_written hw hcounts) (by rw [hst]; exact hw), href]
    rfl
  refine ⟨_, exec_writeStations_written hl hstore hi hlt hitems ((stationPlaced_store ..).trans hstore) hop, fun j => ?_,
    fun hctl => ?_, fun a ha hn => ?_, fun a hn ha => ?_, fun hne => ?_, fun a ha hn => ?_, fun a hn ha => ?_,
    fun hne => ?_, closedWith_stationKept (stationPlaced_stationFrame i new items s) _⟩
  · rw [closedWith_frame, stationPlaced_frame]
    exact lookup_changeStation_stations ..
  · have hleave : leaveController (some st) (some new) s = s := leaveController_of_kept hctl
    rw [closedWith_frame, stationPlaced_frame, changeStation_frame, hst]
    unfold leaveStation
    rw [hleave]
    refine ⟨by rw [leaveConsole_frame], by rw [leaveConsole_frame], fun hcon => ?_⟩
    rw [leaveConsole_of_kept hcon]
    exact ⟨rfl, rfl⟩
  · rw [closedWith_frame]
    refine (lookup_clearGateCounts ..).trans ?_
    rw [lookup_changeStation_controllers, hst, if_pos hn, if_neg fun h => h.2 ha,
      leaveController_of_kept (.inr (ha.trans hn.symm))]
    rfl
  · rw [closedWith_frame]
    refine (lookup_clearGateCounts ..).trans ?_
    rw [lookup_changeStation_controllers, hst, if_pos hn, if_pos ⟨hn, ha⟩]
    exact congrArg some (cleared_new items)
  · have hleft := controllerLeft_changeStation hst hne
    refine (hleft.mono (u := stationPlaced i new items s) (fun a ha => ?_) ?_ ?_).closedWith _
    · refine (lookup_clearGateCounts ..).trans ?_
      rw [ha]
      exact ite_self _
    · rw [stationPlaced_frame]
    · rw [stationPlaced_frame]
  · have hsame : consoleAddress (some st) = consoleAddress (some new) := ha.trans hn.symm
    have hkept := joinConsole_consolesKept (some st) (some new) (placedStation i (some new) s) hsame a
    rw [closedWith_frame, stationPlaced_frame, changeStation_placed, hst]
    refine hkept.trans ?_
    rw [placedStation_consoles, hst]
    unfold leaveStation
    rw [leaveController_of_kept (.inl (controllerAddress_of_console ha)), leaveConsole_of_kept (.inr hsame)]
  · rw [closedWith_frame, stationPlaced_frame, changeStation_placed, hst]
    refine (lookup_joinConsole_of_ne _ _ _ (fun b hb ho => ?_) a).trans (if_pos hn)
    exact ha (ho.trans (hb.symm.trans hn))
  · refine ((consoleLeft_changeStation hst hne).mono (u := stationPlaced i new items s) ?_ ?_).closedWith _
    · rw [stationPlaced_frame]
    · rw [stationPlaced_frame]

end

/-- Settles O54: a WRITE is the MREQ's last record, so its outcome is the entry's own change with the MREP behind it; a
roster change removes an operator's authority, a station change lets the old entry leave before the new one joins. -/
theorem rosterAndStationWritesAct : Obligations.RosterAndStationWritesAct := by
  refine ⟨?_, ?_, ?_, fun old items => ⟨fun w => operatorWritten_fields, operatorWritten_eq_none⟩, ?_, ?_, ?_, ?_,
    fun old items w => stationWritten_fields⟩
  · intro r d i items o new s hl hstore hi hlt hitems ho h0 hw hid
    exact writeRoster_over hl hstore hi hlt hitems ho h0 hw hid
  · intro r d i items o s hl hstore hi hlt hitems ho h0 hw hr
    exact writeRoster_removal hl hstore hi hlt hitems ho h0 hw hr
  · intro r d i items s hl hstore hi hlt hitems
    exact writeRoster_refusals hl hstore hi hlt hitems
  · intro r d i items s hl hstore hi hlt hitems
    exact writeStations_refusals hl hstore hi hlt hitems
  · intro r d i items new s hl hstore hi hlt hitems hfree h0 hcounts hw href
    exact writeStations_free hl hstore hi hlt hitems hfree h0 hcounts hw href
  · intro r d i items st s hl hstore hi hlt hitems hst h0 hbad href
    exact writeStations_removal hl hstore hi hlt hitems hst h0 hbad href
  · intro r d i items st new s hl hstore hi hlt hitems hst h0 hcounts hw href
    exact writeStations_over hl hstore hi hlt hitems hst h0 hcounts hw href

end Sys2Proof.Machine

namespace Sys2Proof.Machine

/-! ## What a report reaches beside the slots and the queue (R10 to R12, R17 to R19) -/

/-- Nothing but the alarm table, the areas, the high mark and what an AREP EVICTED and its flag send has changed; no load
and no flood state moves. -/
structure TableStep (s t : State) : Prop where
  frame : t = { s with
    slots := t.slots, queue := t.queue, areas := t.areas, arepSeq := t.arepSeq, time := t.time, plant := t.plant
    latched := t.latched, statSeq := t.statSeq, statSent := t.statSent }
  area : ∀ a, (t.area a).load = (s.area a).load ∧ (t.area a).flood = (s.area a).flood

theorem TableStep.refl (s : State) : TableStep s s := ⟨rfl, fun _ => ⟨rfl, rfl⟩⟩

theorem TableStep.trans {s t u : State} (h : TableStep s t) (k : TableStep t u) : TableStep s u where
  frame := by rw [k.frame, h.frame]
  area a := ⟨(k.area a).1.trans (h.area a).1, (k.area a).2.trans (h.area a).2⟩

theorem TableStep.tables {s t : State} (h : TableStep s t) : t.tables = s.tables := by rw [h.frame]

theorem TableStep.pointAreas {s t : State} (h : TableStep s t) : t.pointAreas = s.pointAreas := by
  unfold State.pointAreas; rw [h.tables]

/-- The points' dynamic state is neither read nor written. -/
theorem TableStep.withDyn {s t : State} (h : TableStep s t) (d : List (Nat × PointDyn)) :
    TableStep { s with dyn := d } { t with dyn := d } where
  frame := by conv_lhs => rw [h.frame]
  area := h.area

theorem setSlot_tableStep (s : State) (i : Nat) (x : Slot) : TableStep s (s.setSlot i x) :=
  ⟨rfl, fun _ => ⟨rfl, rfl⟩⟩

theorem freeSlot_tableStep (s : State) (i : Nat) : TableStep s (s.freeSlot i) :=
  ⟨rfl, fun _ => ⟨rfl, rfl⟩⟩

theorem marked_tableStep (s : State) : TableStep s s.marked := ⟨rfl, fun _ => ⟨rfl, rfl⟩⟩

theorem queue_tableStep (s : State) (l : List QEntry) : TableStep s { s with queue := l } :=
  ⟨rfl, fun _ => ⟨rfl, rfl⟩⟩

theorem report_tableStep (s : State) (r : Report) : TableStep s (s.report r) := by
  have hc : (s.report r).console = s.console := send_plant_console ..
  refine ⟨?_, fun a => ?_⟩
  · conv_lhs => rw [report_frame, hc]
    rw [report_time, State.report_slots, State.report_queue, State.report_areas, report_arepSeq]
    rfl
  · rw [area_congr (State.report_areas ..)]
    exact ⟨rfl, rfl⟩

theorem latch_tableStep (s : State) (f : StatusFlag) : TableStep s (s.latch f) := by
  refine ⟨?_, fun a => ?_⟩
  · rw [latch_frame]
  · rw [area_congr (State.latch_areas ..)]
    exact ⟨rfl, rfl⟩

theorem modArea_tableStep (s : State) (a : Nat) {f : Area → Area} (hl : ∀ r, (f r).load = r.load)
    (hf : ∀ r, (f r).flood = r.flood) : TableStep s (s.modArea a f) := by
  refine ⟨rfl, fun b => ?_⟩
  rw [area_modArea]
  split
  · next hb => subst hb; exact ⟨hl _, hf _⟩
  · exact ⟨rfl, rfl⟩

/-- An event at the alarm table goes on by a `TableStep`, and its slot changes name areas of points. -/
structure ReportStep (e e' : Ev) : Prop where
  table : TableStep e.s e'.s
  names : (∀ c ∈ e.changes, c.area ∈ e.s.pointAreas) → ∀ c ∈ e'.changes, c.area ∈ e.s.pointAreas

theorem ReportStep.refl (e : Ev) : ReportStep e e := ⟨.refl _, id⟩

theorem ReportStep.trans {e f g : Ev} (h : ReportStep e f) (k : ReportStep f g) : ReportStep e g := by
  refine ⟨h.table.trans k.table, fun hn => ?_⟩
  have hk := k.names
  rw [h.table.pointAreas] at hk
  exact hk (h.names hn)

theorem ReportStep.of_state {e : Ev} {t : State} (h : TableStep e.s t) : ReportStep e { e with s := t } := ⟨h, id⟩

theorem ReportStep.of_change {e e' : Ev} {c : SlotChange} {p : Nat} (h : TableStep e.s e'.s)
    (he : e'.changes = e.changes ++ [c]) (hc : c.area = (e.s.pointDef p).area) : ReportStep e e' := by
  refine ⟨h, fun hn x hx => ?_⟩
  rw [he] at hx
  rcases List.mem_append.1 hx with hx | hx
  · exact hn x hx
  · rw [List.mem_singleton.1 hx, hc]
    exact pointArea_mem ..

theorem ReportStep.push {e : Ev} {t : State} {c : SlotChange} {p : Nat} (h : TableStep e.s t)
    (hc : c.area = (e.s.pointDef p).area) : ReportStep e (e.push t c) := .of_change h rfl hc

theorem admitHead_reportStep (i : Nat) (e : Ev) : ReportStep e (admitHead i e) := by
  unfold admitHead
  split
  · exact .refl e
  · next q rest _ =>
    exact .push (p := q.point) (((marked_tableStep _).trans (queue_tableStep ..)).trans (setSlot_tableStep ..)) rfl

theorem freeAndAdmit_reportStep (i : Nat) (sl : Slot) (k : ChangeKind) (o : Origin) (e : Ev) :
    ReportStep e (freeAndAdmit i sl k o e) :=
  (ReportStep.push (p := sl.point) (freeSlot_tableStep ..) rfl).trans (admitHead_reportStep ..)

theorem moveSlot_reportStep (i : Nat) (sl new : Slot) (k : ChangeKind) (o : Option Origin) (e : Ev) :
    ReportStep e (moveSlot i sl new k o e) := .push (p := sl.point) (setSlot_tableStep ..) rfl

theorem evict_tableStep (v : Nat × Slot) (o : Origin) (e : Ev) : TableStep e.s (evict v o e).s := by
  rw [evict_s]
  refine .trans (.trans ?_ (modArea_tableStep _ _ ?_ ?_)) (latch_tableStep _ _)
  · exact (freeSlot_tableStep ..).trans (report_tableStep ..)
  · exact fun _ => rfl
  · exact fun _ => rfl

theorem evict_reportStep (v : Nat × Slot) (o : Origin) (e : Ev) : ReportStep e (evict v o e) :=
  .of_change (p := v.2.point) (evict_tableStep v o e) rfl rfl

theorem onsetInto_reportStep (i p : Nat) (o : Origin) (e : Ev) : ReportStep e (onsetInto i p o e) :=
  .push (p := p) ((marked_tableStep _).trans (setSlot_tableStep ..)) rfl

theorem joinQueue_reportStep (p : Nat) (o : Origin) (e : Ev) : ReportStep e (joinQueue p o e) := by
  unfold joinQueue
  dsimp only
  split
  · exact .push (p := p) ((marked_tableStep _).trans (queue_tableStep ..)) rfl
  · exact .of_state (modArea_tableStep _ _ (fun _ => rfl) fun _ => rfl)

theorem allocate_reportStep (p : Nat) (o : Origin) (e : Ev) : ReportStep e (allocate p o e) := by
  unfold allocate
  split
  · exact onsetInto_reportStep ..
  · split
    · exact (evict_reportStep ..).trans (onsetInto_reportStep ..)
    · exact joinQueue_reportStep ..

theorem reportSlot_reportStep (i : Nat) (sl : Slot) (active : Bool) (o : Origin) (e : Ev) :
    ReportStep e (reportSlot i sl active o e) := by
  have hm (new : Slot) (k : ChangeKind) : ReportStep e (moveSlot i sl new k (some o) { e with s := e.s.marked }) :=
    (ReportStep.of_state (marked_tableStep _)).trans (moveSlot_reportStep ..)
  unfold reportSlot
  dsimp only
  split
  · exact hm ..
  · exact .refl e
  · exact .refl e
  · exact freeAndAdmit_reportStep ..
  · exact hm ..
  · exact freeAndAdmit_reportStep ..
  · exact hm ..

theorem reportQueued_reportStep (q : QEntry) (active : Bool) (o : Origin) (e : Ev) :
    ReportStep e (reportQueued q active o e) := by
  unfold reportQueued
  dsimp only
  split
  · exact .push (p := q.point) (queue_tableStep ..) rfl
  · exact .refl e
  · exact .push (p := q.point) (queue_tableStep ..) rfl
  · exact .push (p := q.point) (queue_tableStep ..) rfl
  · exact .refl e

theorem applyReport_reportStep (p : Nat) (active : Bool) (o : Origin) (e : Ev) :
    ReportStep e (applyReport p active o e) := by
  unfold applyReport
  split
  · exact reportSlot_reportStep ..
  · split
    · exact reportQueued_reportStep ..
    · split
      · exact allocate_reportStep ..
      · exact .refl e

/-! ## The points of a snapshot, one after another (R38) -/

/-- One point of a snapshot in the stage of condition `c`. -/
def snapshotPoint (c : Condition) (e : Ev) (p : Nat) : Ev :=
  applyReport p (c == .active) .snapshot { e with s := e.s.setDyn p { e.s.dynOf p with cond := c } }

theorem snapshotAbsent_eq : snapshotAbsent = snapshotPoint .normal := rfl
theorem snapshotPresent_eq : snapshotPresent = snapshotPoint .active := rfl

/-- A `ReportStep`, the points' dynamic state apart. -/
def SnapStep (e e' : Ev) : Prop := ReportStep { e with s := { e.s with dyn := e'.s.dyn } } e'

theorem SnapStep.refl (e : Ev) : SnapStep e e := ReportStep.refl e

theorem SnapStep.trans {e f g : Ev} (h : SnapStep e f) (k : SnapStep f g) : SnapStep e g := by
  have hp : f.s.pointAreas = e.s.pointAreas := h.table.pointAreas
  have hk : (∀ c ∈ f.changes, c.area ∈ f.s.pointAreas) → ∀ c ∈ g.changes, c.area ∈ f.s.pointAreas := k.names
  rw [hp] at hk
  exact ⟨(h.table.withDyn g.s.dyn).trans k.table, fun hn => hk (h.names hn)⟩

theorem SnapStep.foldl {α : Type} {f : Ev → α → Ev} (h : ∀ e a, SnapStep e (f e a)) (l : List α) (e : Ev) :
    SnapStep e (l.foldl f e) := by
  induction l generalizing e with
  | nil => exact .refl e
  | cons a l ih => exact (h e a).trans (ih _)

theorem ReportStep.dyn {e e' : Ev} (h : ReportStep e e') : e'.s.dyn = e.s.dyn := by rw [h.table.frame]

theorem snapshotPoint_dyn (c : Condition) (e : Ev) (p : Nat) :
    (snapshotPoint c e p).s.dyn = (e.s.setDyn p { e.s.dynOf p with cond := c }).dyn :=
  (applyReport_reportStep p (c == .active) .snapshot _).dyn

theorem snapshotPoint_snapStep (c : Condition) (e : Ev) (p : Nat) : SnapStep e (snapshotPoint c e p) := by
  unfold SnapStep
  rw [snapshotPoint_dyn]
  exact applyReport_reportStep p (c == .active) .snapshot { e with s := e.s.setDyn p { e.s.dynOf p with cond := c } }

theorem snapshotPoint_dynOf (c : Condition) (e : Ev) (p q : Nat) :
    (snapshotPoint c e p).s.dynOf q = if q = p then { e.s.dynOf q with cond := c } else e.s.dynOf q := by
  rw [dynOf_congr (snapshotPoint_dyn c e p)]
  refine (getD_writeAt ..).trans ?_
  split
  · next h => rw [h]
  · rfl

/-- Each point of the list has the condition of the stage (R38). -/
theorem foldl_snapshotPoint_dynOf (c : Condition) (l : List Nat) (e : Ev) (q : Nat) :
    (l.foldl (snapshotPoint c) e).s.dynOf q = if q ∈ l then { e.s.dynOf q with cond := c } else e.s.dynOf q := by
  induction l generalizing e with
  | nil => rfl
  | cons p l ih =>
    rw [List.foldl_cons, ih, snapshotPoint_dynOf]
    by_cases hp : q = p <;> simp [hp]

end Sys2Proof.Machine

namespace Sys2Proof.Machine

/-! ## The slot of a point, its overlays apart -/

/-- The slot of a point but for its overlays. -/
def State.bareOf (s : State) (q : Nat) : Option Slot := (s.slotOf q).map fun e => e.2.bare

theorem bareOf_of_slotOf {s : State} {q i : Nat} {x : Slot} (h : s.slotOf q = some (i, x)) :
    s.bareOf q = some x.bare := by
  unfold State.bareOf; rw [h]; rfl

theorem bareOf_eq_none {s : State} {q : Nat} : s.bareOf q = none ↔ s.slotOf q = none := Option.map_eq_none_iff

theorem bareOf_congr {s t : State} {q : Nat} (h : t.slotOf q = s.slotOf q) : t.bareOf q = s.bareOf q := by
  unfold State.bareOf; rw [h]

/-- What a report of condition `c` makes of the slot of point `q`, its overlays apart, in an event of state `b`: by the
table of its class, an onset where there is none (R10 to R12, R17). -/
def reportedBare (b : State) (c : Condition) (q : Nat) : Option Slot → Option Slot
  | some sl => slotAfterReport (b.pointDef q).latch c b.stamp sl
  | none => if c = .active then some (onsetSlot b q).bare else none

theorem slotAfterReport_bare (k : LatchClass) (c : Condition) (now : Stamp) (sl : Slot) :
    (slotAfterReport k c now sl).map Slot.bare = slotAfterReport k c now sl.bare := by
  unfold slotAfterReport
  rw [Option.map_map]
  exact Option.map_congr fun r _ => apply_ite Slot.bare ..

/-- A report repeated moves nothing. -/
theorem reportTable_again {k : LatchClass} {c : Condition} {st st' : AlarmState} {adv : Bool}
    (h : reportTable k c st = some (st', adv)) : reportTable k c st' = some (st', false) := by
  cases c with
  | active => cases k <;> cases st <;> cases h <;> rfl
  | normal => cases k <;> cases st <;> cases h <;> rfl

theorem slotAfterReport_again {k : LatchClass} {c : Condition} {now : Stamp} {sl z : Slot}
    (h : slotAfterReport k c now sl = some z) : slotAfterReport k c now z = some z := by
  unfold slotAfterReport at h
  obtain ⟨⟨st, adv⟩, hr, hz⟩ := Option.map_eq_some_iff.1 h
  have hst : z.state = st := by
    rw [← hz]
    split
    · next he => exact (congrArg Prod.fst he).symm
    · rfl
  unfold slotAfterReport
  rw [hst, reportTable_again hr, Option.map_some, if_pos rfl]

/-- An ACTIVE report frees no slot. -/
theorem slotAfterReport_active (k : LatchClass) (now : Stamp) (sl : Slot) :
    slotAfterReport k .active now sl ≠ none := by
  unfold slotAfterReport
  rw [Ne, Option.map_eq_none_iff]
  cases k <;> cases sl.state <;> exact Option.some_ne_none _

theorem reportedBare_again (b : State) (c : Condition) (q : Nat) (o : Option Slot) :
    reportedBare b c q (reportedBare b c q o) = reportedBare b c q o := by
  cases o with
  | some sl =>
    cases h : slotAfterReport (b.pointDef q).latch c b.stamp sl with
    | some z => simpa only [reportedBare, h] using slotAfterReport_again h
    | none =>
      cases c with
      | active => exact absurd h (slotAfterReport_active _ _ _)
      | normal => simp [reportedBare, h]
  | none =>
    cases c with
    | normal => rfl
    | active => simp [reportedBare, slotAfterReport, reportTable, onsetSlot, freshSlot, Slot.bare]

/-! ## Slots by index in a sound table (R7) -/

theorem slotOf_eq_some {s : State} (h : s.AlarmTableSound) {q i : Nat} {x : Slot} :
    s.slotOf q = some (i, x) ↔ lookup s.slots i = some x ∧ x.point = q := by
  constructor
  · intro hs
    obtain ⟨hm, hp⟩ := mem_of_slotOf hs
    obtain ⟨hk, -⟩ := h
    exact ⟨lookup_of_mem hk hm, hp⟩
  · rintro ⟨hl, rfl⟩
    exact slotOf_of_mem h (mem_of_lookup hl)

/-- A slot of point `p` that changes leaves the slots of the other points as they are. -/
theorem slotOf_of_others {s t : State} {i p q : Nat} (hs : s.AlarmTableSound) (ht : t.AlarmTableSound)
    (ho : OtherSlotsKept i s t) (hsi : ∀ x, lookup s.slots i = some x → x.point = p)
    (hti : ∀ x, lookup t.slots i = some x → x.point = p) (hq : q ≠ p) : t.slotOf q = s.slotOf q := by
  refine Option.ext fun ⟨j, y⟩ => ?_
  rw [slotOf_eq_some ht, slotOf_eq_some hs]
  by_cases hj : j = i
  · subst hj
    exact ⟨fun ⟨hl, hp⟩ => absurd (hp.symm.trans (hti y hl)) hq,
      fun ⟨hl, hp⟩ => absurd (hp.symm.trans (hsi y hl)) hq⟩
  · rw [ho j hj]

/-- No more slots than points that have one. -/
theorem slots_length_le {t : State} (ht : t.AlarmTableSound) {l : List Nat} (h : ∀ q, t.bareOf q ≠ none → q ∈ l) :
    t.slots.length ≤ l.length := by
  have hn : (t.slots.map fun e => e.2.point).Nodup := by
    obtain ⟨-, -, hn, -⟩ := ht
    exact (List.nodup_append.1 hn).1
  rw [← List.length_map (as := t.slots) fun e => e.2.point]
  refine (hn.subperm fun q hq => ?_).length_le
  obtain ⟨⟨i, x⟩, hm, rfl⟩ := List.mem_map.1 hq
  exact h _ (by rw [bareOf_of_slotOf (slotOf_of_mem ht hm)]; exact Option.some_ne_none _)

theorem mem_points_of_bareOf {s : State} {q : Nat} (h : s.bareOf q ≠ none) : q ∈ s.slots.map fun e => e.2.point := by
  rw [Ne, bareOf_eq_none] at h
  obtain ⟨⟨i, x⟩, hx⟩ := Option.ne_none_iff_exists'.1 h
  obtain ⟨hm, hp⟩ := mem_of_slotOf hx
  exact List.mem_map.2 ⟨(i, x), hm, hp⟩

/-- A table below 1024 slots has a free one. -/
theorem lowestFree_of_length {s : State} (h : s.slots.length < 1024) : ∃ i, s.lowestFree = some i := by
  refine Option.ne_none_iff_exists'.1 fun hn => ?_
  unfold State.lowestFree at hn
  rw [List.find?_eq_none] at hn
  have hsub : List.range Config.slotCount ⊆ keys s.slots := fun i hi => by
    have hl := hn i hi
    rw [Option.isNone_iff_eq_none] at hl
    obtain ⟨x, hx⟩ := Option.ne_none_iff_exists'.1 hl
    exact mem_keys_of_lookup hx
  have hlen := (List.nodup_range.subperm hsub).length_le
  rw [List.length_range, keys, List.length_map] at hlen
  exact absurd (show 1024 ≤ s.slots.length from hlen) (Nat.not_le.2 h)

end Sys2Proof.Machine

namespace Sys2Proof.Machine

/-! ## A report's origin, and what was handed on before it -/

theorem admitHead_s (i : Nat) (e : Ev) : (admitHead i e).s = (admitHead i { s := e.s }).s := by
  unfold admitHead
  dsimp only
  split <;> rfl

theorem freeAndAdmit_s (i : Nat) (sl : Slot) (k : ChangeKind) (o : Origin) (e : Ev) :
    (freeAndAdmit i sl k o e).s = (freeAndAdmit i sl k .report { s := e.s }).s :=
  (admitHead_s ..).trans (admitHead_s i (Ev.push { s := e.s } (e.s.freeSlot i) _)).symm

theorem joinQueue_s (p : Nat) (o : Origin) (e : Ev) : (joinQueue p o e).s = (joinQueue p .report { s := e.s }).s := by
  unfold joinQueue
  dsimp only
  split <;> rfl

theorem onsetInto_s (i p : Nat) (o : Origin) {e e' : Ev} (h : e.s = e'.s) :
    (onsetInto i p o e).s = (onsetInto i p .report e').s := by
  unfold onsetInto Ev.push
  rw [h]

theorem allocate_s (p : Nat) (o : Origin) (e : Ev) : (allocate p o e).s = (allocate p .report { s := e.s }).s := by
  unfold allocate
  dsimp only
  split
  · exact onsetInto_s _ _ _ rfl
  · split
    · next v _ => exact onsetInto_s v.1 p o ((evict_s ..).trans (evict_s v .report { s := e.s }).symm)
    · exact joinQueue_s ..

theorem reportSlot_s (i : Nat) (sl : Slot) (active : Bool) (o : Origin) (e : Ev) :
    (reportSlot i sl active o e).s = (reportSlot i sl active .report { s := e.s }).s := by
  unfold reportSlot
  dsimp only
  split
  · rfl
  · rfl
  · rfl
  · exact freeAndAdmit_s ..
  · rfl
  · exact freeAndAdmit_s ..
  · rfl

theorem reportQueued_s (q : QEntry) (active : Bool) (o : Origin) (e : Ev) :
    (reportQueued q active o e).s = (reportQueued q active .report { s := e.s }).s := by
  unfold reportQueued
  dsimp only
  split <;> rfl

/-- The state that a report leaves depends neither on its origin nor on the slot changes before it. -/
theorem applyReport_s (p : Nat) (active : Bool) (o : Origin) (e : Ev) :
    (applyReport p active o e).s = (applyReport p active .report { s := e.s }).s := by
  unfold applyReport
  dsimp only
  split
  · exact reportSlot_s ..
  · split
    · exact reportQueued_s ..
    · split
      · exact allocate_s ..
      · rfl

/-! ## One point of a snapshot where nobody is queued and the table has room (R38) -/

/-- An event of state `b` in progress: the table is sound with room for `n` slots, nobody is queued, and the stamp is that
of the event. -/
structure Roomy (b : State) (n : Nat) (u : State) : Prop where
  table : u.AlarmTableSound
  queue : u.queue = []
  time : u.time = b.time ∨ u.time = b.marked.time
  tables : u.tables = b.tables
  room : u.slots.length + n ≤ 1024

theorem Roomy.pointDef {b u : State} {n : Nat} (h : Roomy b n u) (p : Nat) : u.pointDef p = b.pointDef p :=
  pointDef_congr (congrArg Tables.points h.tables) p

theorem Roomy.stamp {b u : State} {n : Nat} (h : Roomy b n u) (hb : b.time.Sound) : u.stamp = b.stamp := by
  rcases h.time with ht | ht
  · exact stamp_congr ht
  · exact (stamp_congr ht).trans (stamp_marked hb)

/-- The event goes on with its clock as it was, or marked. -/
theorem Roomy.time_next {b u t : State} {n : Nat} (h : Roomy b n u) (hb : b.time.Sound)
    (ht : t.time = u.time ∨ t.time = u.marked.time) : t.time = b.time ∨ t.time = b.marked.time := by
  rcases ht with ht | ht
  · rw [ht]
    exact h.time
  · refine .inr (ht.trans ?_)
    rw [State.marked_time, State.marked_time, h.stamp hb]
    rcases h.time with hu | hu <;> rw [hu]
    rfl

/-- A point that has a slot in both keeps its index. -/
def IndexKept (s t : State) : Prop := ∀ q i j x y, s.slotOf q = some (i, x) → t.slotOf q = some (j, y) → j = i

/-- A slot with SUPPRESSED had it before, for the same point. -/
def SuppressedKept (s t : State) : Prop := ∀ j y, lookup t.slots j = some y → y.suppressed = true →
  ∃ x, lookup s.slots j = some x ∧ x.point = y.point ∧ x.suppressed = true

theorem SuppressedKept.trans {s t u : State} (h : SuppressedKept s t) (k : SuppressedKept t u) : SuppressedKept s u := by
  intro j z hz hs
  obtain ⟨y, hy, hp, hs⟩ := k j z hz hs
  obtain ⟨x, hx, hp', hs⟩ := h j y hy hs
  exact ⟨x, hx, hp'.trans hp, hs⟩

theorem IndexKept.trans {s t u : State} (h : IndexKept s t) (k : IndexKept t u)
    (hn : ∀ q, s.bareOf q ≠ none → t.bareOf q = none → u.bareOf q = none) : IndexKept s u := by
  intro q i j x z hx hz
  cases ht : t.slotOf q with
  | some w => exact (k q w.1 j w.2 z ht hz).trans (h q i w.1 x w.2 hx ht)
  | none =>
    have hu := hn q (by rw [bareOf_of_slotOf hx]; exact Option.some_ne_none _) (bareOf_eq_none.2 ht)
    rw [bareOf_of_slotOf hz] at hu
    exact absurd hu (Option.some_ne_none _)

/-- The points of `l` have been reported in condition `c`, in an event of state `b`. -/
structure Reported (b : State) (c : Condition) (l : List Nat) (u t : State) : Prop where
  bare : ∀ q, t.bareOf q = if q ∈ l then reportedBare b c q (u.bareOf q) else u.bareOf q
  index : IndexKept u t
  suppressed : SuppressedKept u t

theorem Reported.refl (b : State) (c : Condition) (u : State) : Reported b c [] u u where
  bare _ := rfl
  index q i j x y hx hy := by rw [hx] at hy; cases hy; rfl
  suppressed _ y hy hs := ⟨y, hy, rfl, hs⟩

/-- Slot `i`, of point `p` or free, becomes `o`. -/
structure SlotMoved (i p : Nat) (u t : State) (o : Option Slot) : Prop where
  others : OtherSlotsKept i u t
  before : ∀ x, lookup u.slots i = some x → x.point = p
  found : ∀ j x, u.slotOf p = some (j, x) → j = i
  after : lookup t.slots i = o
  point : ∀ x, o = some x → x.point = p

section
variable {i p : Nat} {u t : State} {o : Option Slot} (hu : u.AlarmTableSound) (ht : t.AlarmTableSound)
  (h : SlotMoved i p u t o)
include hu ht h

theorem SlotMoved.slotOf : t.slotOf p = o.map fun x => (i, x) := by
  cases ho : o with
  | some w => exact (slotOf_eq_some ht).2 ⟨h.after.trans ho, h.point w ho⟩
  | none =>
    refine Option.eq_none_iff_forall_ne_some.2 fun ⟨j, y⟩ hs => ?_
    obtain ⟨hl, hp⟩ := (slotOf_eq_some ht).1 hs
    have hj : j ≠ i := by
      rintro rfl
      rw [h.after, ho] at hl
      cases hl
    rw [h.others j hj] at hl
    exact hj (h.found j y ((slotOf_eq_some hu).2 ⟨hl, hp⟩))

theorem SlotMoved.slotOf_of_ne {q : Nat} (hq : q ≠ p) : t.slotOf q = u.slotOf q :=
  slotOf_of_others hu ht h.others h.before (fun x hx => h.point x (h.after.symm.trans hx)) hq

theorem SlotMoved.reported {b : State} {c : Condition} (ho : o.map Slot.bare = reportedBare b c p (u.bareOf p))
    (hs : ∀ w, o = some w → w.suppressed = true →
      ∃ x, lookup u.slots i = some x ∧ x.point = p ∧ x.suppressed = true) : Reported b c [p] u t where
  bare q := by
    by_cases hq : q = p
    · subst hq
      rw [if_pos (List.mem_singleton_self q), ← ho, State.bareOf, h.slotOf hu ht, Option.map_map]
      rfl
    · rw [if_neg (by simpa using hq), bareOf_congr (h.slotOf_of_ne hu ht hq)]
  index q j k x y hx hy := by
    by_cases hq : q = p
    · subst hq
      rw [h.slotOf hu ht] at hy
      obtain ⟨w, -, hw⟩ := Option.map_eq_some_iff.1 hy
      rw [h.found j x hx]
      exact (congrArg Prod.fst hw).symm
    · rw [h.slotOf_of_ne hu ht hq, hx] at hy
      cases hy
      rfl
  suppressed j y hy hsup := by
    by_cases hj : j = i
    · subst hj
      obtain ⟨x, hx, hp, hsx⟩ := hs y (h.after.symm.trans hy) hsup
      exact ⟨x, hx, hp.trans (h.point y (h.after.symm.trans hy)).symm, hsx⟩
    · rw [h.others j hj] at hy
      exact ⟨y, hy, rfl, hsup⟩

end

/-- SUPPRESSED after a report was there before it. -/
theorem suppressed_of_resuppressed {u : State} {c : Condition} {sl z : Slot} (hz : z.suppressed = sl.suppressed)
    (h : (resuppressed u c sl z).suppressed = true) : sl.suppressed = true := by
  rw [resuppressed_suppressed] at h
  split at h
  · exact keptSuppressed_imp h
  · exact hz ▸ h

theorem Applied.time {u : State} {p i : Nat} {c : Condition} {sl : Slot} {e : Ev} (h : Applied u p c i sl e) :
    e.s.time = u.time ∨ e.s.time = u.marked.time := by
  cases h with
  | stays => exact .inl rfl
  | moves => exact .inr rfl
  | frees => exact .inl rfl

/-- The slots a point of the stage may take. -/
def stageRoom (c : Condition) : Nat := if c = .active then 1 else 0

/-- What a report leaves of the room. -/
theorem Reported.room {b : State} {c : Condition} {p n : Nat} {u t : State} (h : Reported b c [p] u t)
    (ht : t.AlarmTableSound) (hr : u.slots.length + (n + stageRoom c) ≤ 1024) : t.slots.length + n ≤ 1024 := by
  have hle : t.slots.length ≤ (u.slots.map (fun e => e.2.point) ++ if c = .active then [p] else []).length := by
    refine slots_length_le ht fun q hq => ?_
    rw [h.bare q] at hq
    by_cases hu : u.bareOf q = none
    · have hqp : q = p := by
        by_contra hqp
        rw [if_neg (by simpa using hqp)] at hq
        exact hq hu
      subst hqp
      cases c with
      | active => exact List.mem_append_right _ (List.mem_singleton_self q)
      | normal => simp [hu, reportedBare] at hq
    · exact List.mem_append_left _ (mem_points_of_bareOf hu)
  unfold stageRoom at hr
  cases c <;> simp at hle hr <;> omega

section
variable {b u : State} {c : Condition} {n p : Nat}

/-- A point in a slot is reported. -/
theorem applyReport_reported_of_slot {i : Nat} {sl : Slot} (hb : b.time.Sound) (h : Roomy b n u)
    (hs : u.slotOf p = some (i, sl))
    (ht : (applyReport p (c == .active) .report { s := u }).s.AlarmTableSound) :
    Reported b c [p] u (applyReport p (c == .active) .report { s := u }).s
      ∧ ((applyReport p (c == .active) .report { s := u }).s.time = u.time
        ∨ (applyReport p (c == .active) .report { s := u }).s.time = u.marked.time)
      ∧ (applyReport p (c == .active) .report { s := u }).s.queue = [] := by
  obtain ⟨hm, hp⟩ := mem_of_slotOf hs
  obtain ⟨hk, -, hn, hl, -⟩ := h.table
  have hlatch : (u.pointDef p).latch = .tracking → sl.state ≠ .returnedUnack := fun h => hl _ hm (by rwa [hp])
  have ha := applyReport_applied (c := c) hs h.queue hlatch
  obtain ⟨x, hto⟩ := ha.appliedTo ⟨hk, (List.nodup_append.1 hn).1⟩ hm hp
  have hlook : lookup u.slots i = some sl := lookup_of_mem hk hm
  have hfound : ∀ j x, u.slotOf p = some (j, x) → j = i := fun j x hj => by rw [hs] at hj; cases hj; rfl
  have hbefore : ∀ x, lookup u.slots i = some x → x.point = p := fun x hx => by rw [hlook] at hx; cases hx; exact hp
  have hbare : reportedBare b c p (u.bareOf p) =
      (slotAfterReport (u.pointDef p).latch c u.stamp sl).map Slot.bare := by
    rw [bareOf_of_slotOf hs, slotAfterReport_bare, h.pointDef, h.stamp hb]
    rfl
  refine ⟨?_, ha.time, by rw [hto.frame]; exact h.queue⟩
  cases hz : slotAfterReport (u.pointDef p).latch c u.stamp sl with
  | none =>
    obtain ⟨-, hfree⟩ := hto.freed hz
    refine SlotMoved.reported h.table ht ⟨hto.others, hbefore, hfound, hfree, nofun⟩ ?_ nofun
    rw [hbare, hz]
  | some z =>
    obtain ⟨hslot, hw⟩ := hto.kept z hz
    obtain ⟨hzp, -, -, hzs, -⟩ := slotAfterReport_kept hz
    rw [heldSlot_false] at hw
    refine SlotMoved.reported h.table ht ⟨hto.others, hbefore, hfound, hw, ?_⟩ ?_ ?_
    · rintro w ⟨⟩
      exact (resuppressed_point ..).trans (hzp.trans hp)
    · rw [hbare, hz]
      exact congrArg some (resuppressed_bare ..)
    · rintro w ⟨⟩ hsup
      exact ⟨sl, hlook, hp, suppressed_of_resuppressed hzs hsup⟩

/-- An onset takes a free slot. -/
theorem applyReport_reported_of_none (hb : b.time.Sound) (h : Roomy b (n + 1) u) (hs : u.slotOf p = none)
    (ht : (applyReport p true .report { s := u }).s.AlarmTableSound) :
    Reported b .active [p] u (applyReport p true .report { s := u }).s
      ∧ (applyReport p true .report { s := u }).s.time = u.marked.time
      ∧ (applyReport p true .report { s := u }).s.queue = [] := by
  have hroom := h.room
  obtain ⟨i, hi⟩ := lowestFree_of_length (s := u) (by omega)
  obtain ⟨-, hfree⟩ := lowestFree_eq_some hi
  have hq : u.queued p = false := by
    unfold State.queued
    rw [h.queue]
    rfl
  have he := applyReport_of_free hs hq hi
  rw [he] at ht ⊢
  refine ⟨SlotMoved.reported (i := i) (o := some (onsetSlot u p)) h.table ht ⟨fun j hj => lookup_insertAt_of_ne _ hj _,
    ?_, ?_, lookup_insertAt_self .., ?_⟩ ?_ ?_, rfl, h.queue⟩
  · intro x hx
    rw [hfree] at hx
    cases hx
  · intro j x hj
    rw [hs] at hj
    cases hj
  · rintro x ⟨⟩
    rfl
  · rw [bareOf_eq_none.2 hs]
    change some (onsetSlot u p).bare = some (onsetSlot b p).bare
    unfold onsetSlot
    rw [h.stamp hb]
    rfl
  · rintro w ⟨⟩ hsup
    cases hsup

theorem applyReport_of_absent (hs : u.slotOf p = none) (hq : u.queue = []) (o : Origin) :
    applyReport p false o { s := u } = { s := u } := by
  unfold applyReport
  rw [hs]
  dsimp only
  rw [hq]
  rfl

/-- A report leaves an event with room in order. -/
theorem applyReport_roomy (hb : b.time.Sound) (h : Roomy b (n + stageRoom c) u) (p : Nat) :
    Reported b c [p] u (applyReport p (c == .active) .report { s := u }).s
      ∧ Roomy b n (applyReport p (c == .active) .report { s := u }).s := by
  have ht := (applyReport_evolves (ok := fun _ _ => True) (fun _ _ _ => trivial) p (c == .active) .report
    { s := u }).table h.table
  have htab := (applyReport_reportStep p (c == .active) .report { s := u }).table.tables
  have hall : Reported b c [p] u (applyReport p (c == .active) .report { s := u }).s
      ∧ ((applyReport p (c == .active) .report { s := u }).s.time = u.time
        ∨ (applyReport p (c == .active) .report { s := u }).s.time = u.marked.time)
      ∧ (applyReport p (c == .active) .report { s := u }).s.queue = [] := by
    cases hs : u.slotOf p with
    | some x => exact applyReport_reported_of_slot (i := x.1) (sl := x.2) hb h hs ht
    | none =>
      cases c with
      | active =>
        obtain ⟨hr, htime, hq⟩ := applyReport_reported_of_none hb h hs ht
        exact ⟨hr, .inr htime, hq⟩
      | normal =>
        have he : (applyReport p (Condition.normal == .active) .report { s := u }).s = u :=
          congrArg Ev.s (applyReport_of_absent hs h.queue .report)
        rw [he]
        refine ⟨⟨fun q => ?_, (Reported.refl b .normal u).index, (Reported.refl b .normal u).suppressed⟩,
          .inl rfl, h.queue⟩
        split
        · next hq =>
          rw [List.mem_singleton.1 hq, bareOf_eq_none.2 hs]
          rfl
        · rfl
  obtain ⟨hr, htime, hq⟩ := hall
  exact ⟨hr, ht, hq, h.time_next hb htime, htab.trans h.tables, hr.room ht h.room⟩

theorem snapshotPoint_roomy (hb : b.time.Sound) {e : Ev} (h : Roomy b (n + stageRoom c) e.s) (p : Nat) :
    Reported b c [p] e.s (snapshotPoint c e p).s ∧ Roomy b n (snapshotPoint c e p).s := by
  have hs : (snapshotPoint c e p).s = (applyReport p (c == .active) .report
      { s := e.s.setDyn p { e.s.dynOf p with cond := c } }).s := applyReport_s ..
  have hd : Roomy b (n + stageRoom c) (e.s.setDyn p { e.s.dynOf p with cond := c }) :=
    ⟨h.table, h.queue, h.time, h.tables, h.room⟩
  obtain ⟨hr, hroomy⟩ := applyReport_roomy hb hd p
  rw [← hs] at hr hroomy
  exact ⟨⟨hr.bare, hr.index, hr.suppressed⟩, hroomy⟩

/-- In one stage a point with a slot that loses it takes none again. -/
theorem reportedBare_none_again {q : Nat} {o : Option Slot} (ho : o ≠ none) (h : reportedBare b c q o = none) :
    c = .normal := by
  cases c with
  | normal => rfl
  | active =>
    obtain ⟨sl, rfl⟩ := Option.ne_none_iff_exists'.1 ho
    exact absurd h (slotAfterReport_active _ _ _)

theorem Reported.cons {l : List Nat} {t v : State} (h : Reported b c [p] u t) (k : Reported b c l t v) :
    Reported b c (p :: l) u v := by
  refine ⟨fun q => ?_, h.index.trans k.index fun q hu ht => ?_, h.suppressed.trans k.suppressed⟩
  · rw [k.bare, h.bare]
    by_cases hq : q = p
    · subst hq
      simp only [List.mem_cons_self, if_true, reportedBare_again, ite_self]
    · rw [if_neg (show q ∉ [p] by simpa using hq)]
      simp only [List.mem_cons, hq, false_or]
  · rw [k.bare, ht]
    rw [h.bare] at ht
    split at ht
    · cases reportedBare_none_again hu ht
      exact ite_self none
    · exact absurd ht hu

/-- A stage of a snapshot leaves an event with room in order, each of its points reported. -/
theorem foldl_snapshotPoint_roomy (hb : b.time.Sound) (l : List Nat) {e : Ev}
    (h : Roomy b (n + l.length * stageRoom c) e.s) :
    Reported b c l e.s (l.foldl (snapshotPoint c) e).s ∧ Roomy b n (l.foldl (snapshotPoint c) e).s := by
  induction l generalizing e with
  | nil => exact ⟨.refl b c e.s, by simpa using h⟩
  | cons p l ih =>
    rw [List.length_cons, Nat.succ_mul, ← Nat.add_assoc] at h
    obtain ⟨hr, hroomy⟩ := snapshotPoint_roomy hb h p
    obtain ⟨hl, hroomy⟩ := ih hroomy
    exact ⟨hr.cons hl, hroomy⟩

end

end Sys2Proof.Machine

namespace Sys2Proof.Machine

/-! ## STALE is cleared from the slots of the controller's points (R38) -/

/-- The slots of the points of controller `a` that carry STALE in state `s`. -/
def carriesStale (a : Nat) (s : State) (x : Nat × Slot) : Bool := (s.pointDef x.2.point).controller == a && x.2.stale

/-- A slot without STALE. -/
def Slot.withoutStale (sl : Slot) : Slot := { sl with stale := false }

/-- One slot without STALE, with an OVERLAY change where the event has not changed it (R14, R38). -/
def unstaleSlot (e : Ev) (x : Nat × Slot) : Ev :=
  if e.changes.any fun c => c.slot == some x.1 && c.point == x.2.point then
    { e with s := e.s.setSlot x.1 x.2.withoutStale }
  else moveSlot x.1 x.2 x.2.withoutStale .overlay (some .snapshot) e

theorem clearStale_foldl (a : Nat) (e : Ev) :
    clearStale a e = (e.s.slots.filter (carriesStale a e.s)).foldl unstaleSlot e := rfl

theorem unstaleSlot_s (e : Ev) (x : Nat × Slot) : (unstaleSlot e x).s = e.s.setSlot x.1 x.2.withoutStale := by
  unfold unstaleSlot
  split <;> rfl

theorem unstaleSlot_reportStep (e : Ev) (x : Nat × Slot) : ReportStep e (unstaleSlot e x) := by
  unfold unstaleSlot
  split
  · exact .of_state (setSlot_tableStep ..)
  · exact moveSlot_reportStep ..

theorem ReportStep.foldl {α : Type} {f : Ev → α → Ev} (h : ∀ e a, ReportStep e (f e a)) (l : List α) (e : Ev) :
    ReportStep e (l.foldl f e) := by
  induction l generalizing e with
  | nil => exact .refl e
  | cons a l ih => exact (h e a).trans (ih _)

theorem clearStale_reportStep (a : Nat) (e : Ev) : ReportStep e (clearStale a e) :=
  .foldl unstaleSlot_reportStep _ e

theorem clearStale_tableStep (a : Nat) (u : State) (l : List SlotChange) :
    TableStep u (clearStale a { s := u, changes := l }).s := (clearStale_reportStep a { s := u, changes := l }).table

theorem foldl_unstaleSlot_slots (l : List (Nat × Slot)) (e : Ev) :
    (l.foldl unstaleSlot e).s.slots = rewriteSlots Slot.withoutStale l e.s.slots := by
  induction l generalizing e with
  | nil => rfl
  | cons x l ih => rw [List.foldl_cons, ih, unstaleSlot_s]; rfl

theorem clearStale_slots (a : Nat) (e : Ev) : (clearStale a e).s.slots =
    rewriteSlots Slot.withoutStale (e.s.slots.filter (carriesStale a e.s)) e.s.slots := foldl_unstaleSlot_slots ..

theorem clearStale_queue (a : Nat) (e : Ev) : (clearStale a e).s.queue = e.s.queue := by
  rw [clearStale_foldl]
  refine List.foldlRecOn (motive := fun e' : Ev => e'.s.queue = e.s.queue) _ _ rfl fun e' he x _ => ?_
  rw [unstaleSlot_s]
  exact he

/-- No slot of the controller's points carries STALE. -/
theorem clearStale_stale {a i : Nat} {e : Ev} {y : Slot} (h : lookup (clearStale a e).s.slots i = some y)
    (hc : (e.s.pointDef y.point).controller = a) : y.stale = false := by
  rw [clearStale_slots] at h
  rcases lookup_rewriteSlots h with ⟨x, -, rfl⟩ | ⟨hl, hn⟩
  · rfl
  · refine Bool.eq_false_iff.2 fun hs => hn y (List.mem_filter.2 ⟨mem_of_lookup hl, ?_⟩)
    simp [carriesStale, hc, hs]

/-- A slot after the clearing is the one before it, STALE apart. -/
theorem lookup_clearStale {a i : Nat} {e : Ev} {y : Slot} (hk : risingKeys e.s.slots = true)
    (h : lookup (clearStale a e).s.slots i = some y) :
    ∃ x, lookup e.s.slots i = some x ∧ (y = x.withoutStale ∨ y = x) := by
  rw [clearStale_slots] at h
  rcases lookup_rewriteSlots h with ⟨x, hx, hy⟩ | ⟨hl, -⟩
  · exact ⟨x, lookup_of_mem hk (List.mem_filter.1 hx).1, .inl hy⟩
  · exact ⟨y, hl, .inr rfl⟩

theorem lookup_rewriteSlots_isSome (f : Slot → Slot) (l t : List (Nat × Slot)) {i : Nat}
    (h : (lookup t i).isSome = true) : (lookup (rewriteSlots f l t) i).isSome = true := by
  unfold rewriteSlots
  induction l generalizing t with
  | nil => exact h
  | cons x l ih =>
    refine ih _ ?_
    rw [lookup_insertAt]
    split
    · rfl
    · exact h

/-- Where the table is sound the clearing moves no slot but for its overlays. -/
theorem clearStale_reported {a : Nat} {e : Ev} (h : e.s.AlarmTableSound) (b : State) (c : Condition) :
    Reported b c [] e.s (clearStale a e).s := by
  have ht : (clearStale a e).s.AlarmTableSound := (clearStale_evolves (ok := fun _ _ => True) a e).table h
  have hk : risingKeys e.s.slots = true := by
    obtain ⟨hk, -⟩ := h
    exact hk
  have hback {q i : Nat} {y : Slot} (hy : (clearStale a e).s.slotOf q = some (i, y)) :
      ∃ x, e.s.slotOf q = some (i, x) ∧ y.bare = x.bare := by
    obtain ⟨hl, hp⟩ := (slotOf_eq_some ht).1 hy
    obtain ⟨x, hx, rfl | rfl⟩ := lookup_clearStale hk hl
    · exact ⟨x, (slotOf_eq_some h).2 ⟨hx, hp⟩, rfl⟩
    · exact ⟨y, (slotOf_eq_some h).2 ⟨hx, hp⟩, rfl⟩
  refine ⟨fun q => ?_, fun q i j x y hx hy => ?_, fun j y hy hs => ?_⟩
  · rw [if_neg List.not_mem_nil]
    cases hy : (clearStale a e).s.slotOf q with
    | some y =>
      obtain ⟨x, hx, hb⟩ := hback (i := y.1) (y := y.2) hy
      rw [bareOf_of_slotOf hx, ← hb]
      exact bareOf_of_slotOf hy
    | none =>
      refine (bareOf_eq_none.2 hy).trans (bareOf_eq_none.2 ?_).symm
      refine Option.eq_none_iff_forall_ne_some.2 fun ⟨i, x⟩ hx => ?_
      obtain ⟨hl, hp⟩ := (slotOf_eq_some h).1 hx
      have hsome := lookup_rewriteSlots_isSome Slot.withoutStale (e.s.slots.filter (carriesStale a e.s)) e.s.slots
        (i := i) (by rw [hl]; rfl)
      rw [← clearStale_slots] at hsome
      obtain ⟨y, hy'⟩ := Option.isSome_iff_exists.1 hsome
      have hpy : y.point = q := by
        obtain ⟨x', hx', rfl | rfl⟩ := lookup_clearStale hk hy'
        · rw [hl] at hx'; cases hx'; exact hp
        · rw [hl] at hx'; cases hx'; exact hp
      rw [(slotOf_eq_some ht).2 ⟨hy', hpy⟩] at hy
      cases hy
  · obtain ⟨x', hx', -⟩ := hback hy
    rw [hx] at hx'
    cases hx'
    rfl
  · obtain ⟨x, hx, rfl | rfl⟩ := lookup_clearStale hk hy
    · exact ⟨x, hx, rfl, hs⟩
    · exact ⟨y, hx, rfl, hs⟩

/-! ## A snapshot as one event (R38, R39) -/

/-- The points of controller `a` outside the set `l`. -/
def absentPoints (a : Nat) (l : List Nat) (s : State) : List Nat := (s.pointsOf a).filter fun p => !l.contains p

theorem mem_absentPoints {a q : Nat} {l : List Nat} {s : State} :
    q ∈ absentPoints a l s ↔ q ∈ s.pointsOf a ∧ q ∉ l := by
  simp [absentPoints]

/-- The first two stages of a snapshot of controller `a` with the set `l`. -/
def snapshotStages (a : Nat) (l : List Nat) (s : State) : Ev :=
  l.foldl (snapshotPoint .active) ((absentPoints a l s).foldl (snapshotPoint .normal) { s := s })

/-- A controller that a snapshot returns to LIVE (R39). -/
def Controller.rebuilt (k : Controller) : Controller :=
  { k with live := true, silence := 0, phase := .idle, sent := 0, wait := 0, snapSet := [], snapFailed := false
           beenLive := true }

/-- All three stages of a snapshot, the controller LIVE. -/
def snapshotTable (a : Nat) (l : List Nat) (s : State) : Ev :=
  clearStale a { snapshotStages a l s with s := (snapshotStages a l s).s.modController a Controller.rebuilt }

/-- The event of a snapshot, handed on with the notice to every ATTACHED console. -/
def snapshotEv (a : Nat) (l : List Nat) (s : State) : Ev :=
  { snapshotTable a l s with s := (snapshotTable a l s).s.notifyAll (.stale a false) }

theorem applySnapshot_eq {a : Nat} {c : Controller} {s : State} (h : lookup s.controllers a = some c) :
    applySnapshot a s = handOn s.beginEvent (snapshotEv a c.snapSet s.beginEvent) [] := by
  have hl : lookup s.beginEvent.controllers a = some c := h
  unfold applySnapshot
  dsimp only
  rw [hl]
  rfl

/-- The stages of a snapshot reach the alarm table, the points' dynamic state and the controllers alone. -/
theorem TableStep.withControllers {s u w : State} {k : List (Nat × Controller)} (h : TableStep { s with dyn := u.dyn } u)
    (h' : TableStep { u with controllers := k } w) : w = { s with
      dyn := u.dyn, slots := w.slots, queue := w.queue, areas := w.areas, controllers := k, arepSeq := w.arepSeq
      time := w.time, plant := w.plant, latched := w.latched, statSeq := w.statSeq, statSent := w.statSent } := by
  rw [h'.frame, h.frame]

section
variable (a : Nat) (l : List Nat) (s : State)

theorem snapshotStages_snapStep : SnapStep { s := s } (snapshotStages a l s) :=
  (SnapStep.foldl (snapshotPoint_snapStep .normal) _ _).trans (.foldl (snapshotPoint_snapStep .active) _ _)

theorem snapshotStages_dynOf (q : Nat) : (snapshotStages a l s).s.dynOf q =
    if q ∈ l then { s.dynOf q with cond := .active }
    else if q ∈ s.pointsOf a then { s.dynOf q with cond := .normal } else s.dynOf q := by
  unfold snapshotStages
  rw [foldl_snapshotPoint_dynOf, foldl_snapshotPoint_dynOf]
  simp only [mem_absentPoints]
  by_cases hl : q ∈ l
  · rw [if_pos hl, if_pos hl, if_neg fun h => h.2 hl]
  · rw [if_neg hl, if_neg hl]
    simp only [hl, not_false_eq_true, and_true]

theorem snapshotStages_modController (f : Controller → Controller) :
    (snapshotStages a l s).s.modController a f = { (snapshotStages a l s).s with
      controllers := (s.modController a f).controllers } := by
  have hs : (snapshotStages a l s).s.controllers = s.controllers := by rw [(snapshotStages_snapStep a l s).table.frame]
  unfold State.modController
  rw [hs]
  cases hc : lookup s.controllers a with
  | none => dsimp only; rw [← hs]
  | some k => rfl

/-- The stages in the order of R38 after the first two: the controller, then its points' slots. -/
theorem snapshotTable_eq : snapshotTable a l s = clearStale a { snapshotStages a l s with
    s := { (snapshotStages a l s).s with controllers := (s.modController a Controller.rebuilt).controllers } } := by
  unfold snapshotTable
  rw [snapshotStages_modController]

theorem snapshotTable_step : TableStep
    { (snapshotStages a l s).s with controllers := (s.modController a Controller.rebuilt).controllers }
    (snapshotTable a l s).s := by
  rw [snapshotTable_eq]
  exact clearStale_tableStep ..

theorem snapshotTable_frame : (snapshotTable a l s).s = { s with
    dyn := (snapshotStages a l s).s.dyn, slots := (snapshotTable a l s).s.slots, queue := (snapshotTable a l s).s.queue
    areas := (snapshotTable a l s).s.areas, controllers := (s.modController a Controller.rebuilt).controllers
    arepSeq := (snapshotTable a l s).s.arepSeq, time := (snapshotTable a l s).s.time
    plant := (snapshotTable a l s).s.plant, latched := (snapshotTable a l s).s.latched
    statSeq := (snapshotTable a l s).s.statSeq, statSent := (snapshotTable a l s).s.statSent } :=
  (snapshotStages_snapStep a l s).table.withControllers (snapshotTable_step a l s)

theorem snapshotTable_area (b : Nat) : ((snapshotTable a l s).s.area b).load = (s.area b).load
    ∧ ((snapshotTable a l s).s.area b).flood = (s.area b).flood := by
  obtain ⟨hl, hf⟩ := (snapshotStages_snapStep a l s).table.area b
  obtain ⟨hl', hf'⟩ := (snapshotTable_step a l s).area b
  exact ⟨hl'.trans hl, hf'.trans hf⟩

theorem snapshotTable_stale {i : Nat} {y : Slot} (h : lookup (snapshotTable a l s).s.slots i = some y)
    (hc : (s.pointDef y.point).controller = a) : y.stale = false := by
  refine clearStale_stale h ?_
  rwa [pointDef_congr]
  rw [State.modController_tables, (snapshotStages_snapStep a l s).table.tables]

/-- The slot changes of a snapshot are of points. -/
theorem snapshotTable_names : ∀ c ∈ (snapshotTable a l s).changes, c.area ∈ s.pointAreas := by
  have h1 := (snapshotStages_snapStep a l s).names fun _ hc => absurd hc List.not_mem_nil
  have h2 := (clearStale_reportStep a { snapshotStages a l s with
    s := (snapshotStages a l s).s.modController a Controller.rebuilt }).names
  have hp : ((snapshotStages a l s).s.modController a Controller.rebuilt).pointAreas = s.pointAreas := by
    unfold State.pointAreas
    rw [State.modController_tables, (snapshotStages_snapStep a l s).table.tables]
  dsimp only at h2
  rw [hp] at h2
  exact h2 h1

end

/-! ## The slots after a snapshot (R38) -/

/-- The slots of the points of controller `a` outside the set `l` have moved as by a NORMAL report, then those of the set
as by an ACTIVE one. -/
structure SlotsRebuilt (a : Nat) (l : List Nat) (s t : State) : Prop where
  bare : ∀ q, t.bareOf q =
    if q ∈ l then reportedBare s .active q (s.bareOf q)
    else if q ∈ s.pointsOf a then reportedBare s .normal q (s.bareOf q) else s.bareOf q
  index : IndexKept s t
  suppressed : SuppressedKept s t
  queue : t.queue = []

theorem snapshotTable_reported {a : Nat} {l : List Nat} {s : State} (h : (snapshotStages a l s).s.AlarmTableSound) :
    Reported s .normal [] (snapshotStages a l s).s (snapshotTable a l s).s := by
  have hr := clearStale_reported (a := a) (e := { snapshotStages a l s with
    s := { (snapshotStages a l s).s with controllers := (s.modController a Controller.rebuilt).controllers } }) h s .normal
  rw [snapshotTable_eq]
  exact ⟨hr.bare, hr.index, hr.suppressed⟩

theorem snapshotTable_rebuilt {a : Nat} {l : List Nat} {s : State} (hs : s.time.Sound) (h : Roomy s l.length s) :
    SlotsRebuilt a l s (snapshotTable a l s).s := by
  obtain ⟨hn, hroom⟩ := foldl_snapshotPoint_roomy (c := .normal) hs (absentPoints a l s) (n := l.length)
    (e := { s := s }) (by simpa [stageRoom] using h)
  obtain ⟨ha, hroom⟩ := foldl_snapshotPoint_roomy (c := .active) hs l (n := 0)
    (e := (absentPoints a l s).foldl (snapshotPoint .normal) { s := s }) (by simpa [stageRoom] using hroom)
  change Reported s .active l _ (snapshotStages a l s).s at ha
  change Roomy s 0 (snapshotStages a l s).s at hroom
  have hc := snapshotTable_reported hroom.table
  have hstages (q : Nat) : (snapshotStages a l s).s.bareOf q =
      if q ∈ l then reportedBare s .active q (s.bareOf q)
      else if q ∈ s.pointsOf a then reportedBare s .normal q (s.bareOf q) else s.bareOf q := by
    rw [ha.bare, hn.bare]
    simp only [mem_absentPoints]
    by_cases hq : q ∈ l <;> simp [hq]
  refine ⟨fun q => (hc.bare q).trans (hstages q), ?_, (hn.suppressed.trans ha.suppressed).trans hc.suppressed, ?_⟩
  · refine (hn.index.trans ha.index fun q hq hnone => ?_).trans hc.index fun q _ hnone => (hc.bare q).trans hnone
    have hmem : q ∉ l := by
      intro hl
      rw [hn.bare, if_neg fun h => (mem_absentPoints.1 h).2 hl] at hnone
      exact hq hnone
    rw [ha.bare, if_neg hmem]
    exact hnone
  · rw [snapshotTable_eq, clearStale_queue]
    exact hroom.queue

end Sys2Proof.Machine

namespace Sys2Proof.Machine

/-! ## What a snapshot leaves (R38, R39) -/

/-- The snapshot of controller `a`, of state `c`, has been applied. -/
structure SnapshotApplied (a : Nat) (c : Controller) (s t : State) : Prop where
  controller : lookup t.controllers a = some c.rebuilt
  dyn : ∀ q, t.dynOf q = if q ∈ c.snapSet then { s.dynOf q with cond := .active }
    else if q ∈ s.pointsOf a then { s.dynOf q with cond := .normal } else s.dynOf q
  area : ∀ b, (t.area b).load = (s.area b).load ∧ (t.area b).flood = (s.area b).flood
  stale : ∀ i sl, lookup t.slots i = some sl → (s.pointDef sl.point).controller = a → sl.stale = false
  slots : s.time.Sound → Roomy s c.snapSet.length s → SlotsRebuilt a c.snapSet s t
  told : Told (.stale a false) (fun _ => True) s t
  consoles : ConsolesKept s t
  tables : t.tables = s.tables
  memory : t.memory = s.memory
  retained : t.retained = s.retained
  shelf : t.shelf = s.shelf
  commands : t.commands = s.commands
  console : t.console = s.console

theorem SlotsRebuilt.congr {a : Nat} {l : List Nat} {s t u : State} (h : SlotsRebuilt a l s t) (hs : u.slots = t.slots)
    (hq : u.queue = t.queue) : SlotsRebuilt a l s u := by
  refine ⟨fun q => ?_, fun q i j x y hx hy => ?_, ?_, hq.trans h.queue⟩
  · rw [bareOf_congr (slotOf_congr hs q)]
    exact h.bare q
  · rw [slotOf_congr hs] at hy
    exact h.index q i j x y hx hy
  · unfold SuppressedKept
    rw [hs]
    exact h.suppressed

section
variable (a : Nat) (l : List Nat) (s : State)

/-- The event of a snapshot is its table, and the notice of the consoles. -/
theorem snapshotEv_frame : (snapshotEv a l s).s =
    { (snapshotTable a l s).s with consoles := (snapshotEv a l s).s.consoles } := by
  unfold snapshotEv State.notifyAll
  rw [notifyEach_frame]

/-- What the event of a snapshot hands on reaches the areas' generations, the records and the consoles. -/
theorem handOn_snapshotEv_frame (b : State) : handOn b (snapshotEv a l s) [] = { (snapshotTable a l s).s with
    areas := (handOn b (snapshotEv a l s) []).areas, records := (handOn b (snapshotEv a l s) []).records
    consoles := (handOn b (snapshotEv a l s) []).consoles, request := (handOn b (snapshotEv a l s) []).request } := by
  conv_lhs => rw [handOn_frame, snapshotEv_frame]

variable {a l s}

theorem applySnapshot_applied {c : Controller} (hc : lookup s.controllers a = some c) (hr : s.request = none) :
    SnapshotApplied a c s (applySnapshot a s) := by
  rw [applySnapshot_eq hc]
  have hf := handOn_snapshotEv_frame a c.snapSet s.beginEvent s.beginEvent
  have htf := snapshotTable_frame a c.snapSet s.beginEvent
  have hcon : (snapshotTable a c.snapSet s.beginEvent).s.consoles = s.consoles := by rw [htf]; rfl
  have hev : (snapshotEv a c.snapSet s.beginEvent).s.consoles = (s.notifyAll (.stale a false)).consoles :=
    notifyAll_consoles_congr hcon _
  have hrec : (snapshotEv a c.snapSet s.beginEvent).s.records = s.records := by rw [snapshotEv_frame, htf]; rfl
  have hreq : (snapshotEv a c.snapSet s.beginEvent).s.request = none := by rw [snapshotEv_frame, htf]; exact hr
  have harea := handOn_areasKept (b := s.beginEvent) (xs := []) hreq
  have htold : Told (.stale a false) (fun _ => True) s (handOn s.beginEvent (snapshotEv a c.snapSet s.beginEvent) []) :=
    told_of_handOn rfl hev hrec (snapshotTable_names a c.snapSet s.beginEvent) _ _
  have hkept : ConsolesKept s (handOn s.beginEvent (snapshotEv a c.snapSet s.beginEvent) []) :=
    ((notifyAll_consolesKept s _).trans (.of_eq hev)).trans (handOn_consolesKept _ _ _)
  have hea (b : Nat) : (snapshotEv a c.snapSet s.beginEvent).s.area b = (snapshotTable a c.snapSet s.beginEvent).s.area b :=
    area_congr (by rw [snapshotEv_frame]) b
  generalize handOn s.beginEvent (snapshotEv a c.snapSet s.beginEvent) [] = t at *
  have hslots : t.slots = (snapshotTable a c.snapSet s.beginEvent).s.slots := by rw [hf]
  constructor
  case controller =>
    have hk : t.controllers = (s.beginEvent.modController a Controller.rebuilt).controllers := by rw [hf, htf]
    rw [hk, lookup_modController, if_pos rfl, State.beginEvent_controllers, hc]
    rfl
  case dyn =>
    intro q
    have hd : t.dyn = (snapshotStages a c.snapSet s.beginEvent).s.dyn := by rw [hf, htf]
    rw [dynOf_congr hd]
    exact snapshotStages_dynOf a c.snapSet s.beginEvent q
  case area =>
    intro b
    obtain ⟨hl, hfl⟩ := snapshotTable_area a c.snapSet s.beginEvent b
    have hk := harea b
    rw [hea] at hk
    rw [← hk] at hl hfl
    exact ⟨hl, hfl⟩
  case stale =>
    intro i sl hl hca
    rw [hslots] at hl
    exact snapshotTable_stale a c.snapSet s.beginEvent hl hca
  case slots =>
    intro hs hroom
    have hb : Roomy s.beginEvent c.snapSet.length s.beginEvent :=
      ⟨hroom.table, hroom.queue, .inl rfl, rfl, hroom.room⟩
    have h := (snapshotTable_rebuilt (a := a) (s := s.beginEvent) hs hb).congr hslots (by rw [hf])
    exact ⟨h.bare, h.index, h.suppressed, h.queue⟩
  case told => exact htold
  case consoles => exact hkept
  case tables => rw [hf, htf]; rfl
  case memory => rw [hf, htf]; rfl
  case retained => rw [hf, htf]; rfl
  case shelf => rw [hf, htf]; rfl
  case commands => rw [hf, htf]; rfl
  case console => rw [hf, htf]; rfl

end

end Sys2Proof.Machine

namespace Sys2Proof.Machine

/-! ## The records of a PSNAP (R36) -/

/-- What a controller's update makes of its entry is all that counts. -/
theorem modController_congr_at {s : State} {a : Nat} {k : Controller} (h : lookup s.controllers a = some k)
    {f g : Controller → Controller} (hfg : f k = g k) : s.modController a f = s.modController a g := by
  unfold State.modController
  rw [h]
  dsimp only
  rw [hfg]

/-- The set of a snapshot after a record with data `d`. -/
def snapAdded (s : State) (a : Nat) (d : List Byte) (l : List Nat) : List Nat :=
  if d.length = 3 ∧ reportable s a (field2 d 1) = true then insertNat (field2 d 1) l else l

theorem reportable_congr {s t : State} (h : t.tables = s.tables) (a p : Nat) : reportable t a p = reportable s a p := by
  unfold reportable
  rw [pointDef_congr (congrArg Tables.points h)]

section
variable {s : State} {a : Nat} {k : Controller} (h : lookup s.controllers a = some k)
include h

theorem addSnapPoint_modController (d : List Byte) (g : Controller → Controller) :
    addSnapPoint a d (s.modController a g) =
      s.modController a fun _ => { g k with snapSet := snapAdded s a d (g k).snapSet } := by
  unfold addSnapPoint snapAdded
  rw [reportable_congr (State.modController_tables ..)]
  split
  · rw [modController_modController]
    exact modController_congr_at h rfl
  · exact modController_congr_at h rfl

theorem snapFirst_modController (g : Controller → Controller) :
    snapFirst a (s.modController a g) =
      s.modController a fun _ => { g k with snapSet := [], phase := .receiving } := by
  unfold snapFirst
  rw [modController_modController]
  exact modController_congr_at h rfl

theorem phaseOf_modController (g : Controller → Controller) : (s.modController a g).phaseOf a = (g k).phase := by
  unfold State.phaseOf
  rw [lookup_modController, if_pos rfl, h]
  rfl

end

/-- One record of a PSNAP acts by its marker. -/
theorem applyPsnap_one {a : Nat} {d : List Byte} (hd : d.length = 1 ∨ d.length = 3) (s : State) :
    (field1 d 0 = 0 → s.phaseOf a = .receiving → applyPsnap a [⟨0x11#8, d⟩] s = addSnapPoint a d s)
    ∧ (field1 d 0 = 0 ∨ field1 d 0 = 2 → s.phaseOf a ≠ .receiving → applyPsnap a [⟨0x11#8, d⟩] s = s)
    ∧ (field1 d 0 = 1 → applyPsnap a [⟨0x11#8, d⟩] s = addSnapPoint a d (snapFirst a s))
    ∧ (field1 d 0 = 2 → s.phaseOf a = .receiving →
        applyPsnap a [⟨0x11#8, d⟩] s = applySnapshot a (addSnapPoint a d s))
    ∧ (field1 d 0 = 3 → applyPsnap a [⟨0x11#8, d⟩] s = applySnapshot a (addSnapPoint a d (snapFirst a s))) := by
  have hlen : ¬ (d.length ≠ 1 ∧ d.length ≠ 3) := by omega
  refine ⟨fun hm hp => ?_, fun hm hp => ?_, fun hm => ?_, fun hm hp => ?_, fun hm => ?_⟩
  · simp [applyPsnap, hlen, hm, hp]
  · rcases hm with hm | hm <;> simp [applyPsnap, hlen, hm, hp]
  · simp [applyPsnap, hlen, hm]
  · simp [applyPsnap, hlen, hm, hp]
  · simp [applyPsnap, hlen, hm]

/-! ## The set of a snapshot (R36) -/

theorem insertNat_length_le (n : Nat) (l : List Nat) : (insertNat n l).length ≤ l.length + 1 := by
  induction l with
  | nil => exact Nat.le_refl _
  | cons m l ih =>
    unfold insertNat
    split
    · exact Nat.le_refl _
    · split
      · exact Nat.le_succ _
      · exact Nat.succ_le_succ ih

theorem reportable_iff {s : State} {a p : Nat} : reportable s a p = true ↔
    p < 8192 ∧ (s.pointDef p).defined = true ∧ (s.pointDef p).controller = a := by
  unfold reportable
  rw [Bool.and_eq_true, Bool.and_eq_true, decide_eq_true_iff, beq_iff_eq, and_assoc]
  rfl

section
variable (s : State) (a : Nat) (d : List Byte) (l : List Nat)

theorem snapAdded_length_le : (snapAdded s a d l).length ≤ l.length + 1 := by
  unfold snapAdded
  split
  · exact insertNat_length_le ..
  · exact Nat.le_succ _

theorem snapAdded_sorted (h : l.Pairwise (· < ·)) : (snapAdded s a d l).Pairwise (· < ·) := by
  unfold snapAdded
  split
  · exact insertNat_sorted h
  · exact h

theorem mem_snapAdded (q : Nat) : q ∈ snapAdded s a d l ↔
    (l.contains q || (d.length == 3 && q == field2 d 1 && decide (field2 d 1 < 8192)
      && (s.pointDef (field2 d 1)).defined && (s.pointDef (field2 d 1)).controller == a)) = true := by
  unfold snapAdded
  simp only [reportable_iff, Bool.or_eq_true, Bool.and_eq_true, List.contains_iff_mem, beq_iff_eq, decide_eq_true_eq]
  split
  · rw [mem_insertNat]
    tauto
  · tauto

end

end Sys2Proof.Machine

namespace Sys2Proof.Machine

/-! ## A PSNAP of one record (R36, R38) -/

theorem SlotsRebuilt.bare_of_some {a q i : Nat} {l : List Nat} {s t : State} {sl : Slot} (h : SlotsRebuilt a l s t)
    (hs : s.slotOf q = some (i, sl)) : t.bareOf q =
      (if q ∈ l then slotAfterReport (s.pointDef q).latch .active s.stamp sl
        else if q ∈ s.pointsOf a then slotAfterReport (s.pointDef q).latch .normal s.stamp sl
        else some sl).map Slot.bare := by
  rw [h.bare, bareOf_of_slotOf hs]
  split
  · exact (slotAfterReport_bare ..).symm
  · split
    · exact (slotAfterReport_bare ..).symm
    · rfl

theorem SlotsRebuilt.bare_of_none {a q : Nat} {l : List Nat} {s t : State} (h : SlotsRebuilt a l s t)
    (hs : s.slotOf q = none) : t.bareOf q = if q ∈ l then some (onsetSlot s q).bare else none := by
  rw [h.bare, bareOf_eq_none.2 hs]
  split
  · rfl
  · exact ite_self none

/-- The controller of an accepted PSNAP is in a resynchronisation, so that hearing it starts none (R34, R36). -/
theorem liveness_of_resyncing {s : State} {a : Nat} {c : Controller} (hc : lookup s.controllers a = some c)
    (hp : c.phase ≠ .idle) : liveness .plant a s = (s.modController a fun k => { k with silence := 0 }, false) := by
  unfold liveness
  dsimp only
  rw [hc]
  simp [hp]

theorem toOwnOrAll_congr {s t : State} (h : t.tables = s.tables) (f : Frame) : toOwnOrAll t f = toOwnOrAll s f := by
  unfold toOwnOrAll toOwn State.ownAddress
  rw [h]

section
variable {s : State} {f : Frame} {c : Controller} (hc : lookup s.controllers f.source.toNat = some c)
  (hp : c.phase ≠ .idle)
include hc hp

theorem heard_of_resyncing (ms : Nat) : s.heard ms .plant f =
    (s.atArrival ms).modController f.source.toNat fun k => { k with silence := 0 } := by
  unfold State.heard
  rw [liveness_of_resyncing (s := s.atArrival ms) hc hp]
  dsimp only
  rw [modController_frame]
  rfl

theorem lookup_heard_of_resyncing (ms : Nat) :
    lookup (s.heard ms .plant f).controllers f.source.toNat = some { c with silence := 0 } := by
  rw [heard_of_resyncing hc hp, lookup_modController, if_pos rfl, State.atArrival_controllers, hc]
  rfl

/-- The records of an accepted PSNAP are taken with the wait restarted (R36). -/
theorem exec_psnap_accepted (ha : arrives .plant s f = true) (ho : toOwnOrAll s f = true) (hl : c.live = false)
    (hn : f.seq.toNat = c.snapNumber) (ms : Nat) :
    exec (.psnap ms f) s = .next (applyPsnap f.source.toNat f.recs
      ((s.heard ms .plant f).modController f.source.toNat fun k => { k with wait := 5 })) := by
  have hacc : snapAccepted { c with silence := 0 } f = true := by simp [snapAccepted, hl, hp, hn]
  have hown : toOwnOrAll (s.heard ms .plant f) f = true := (toOwnOrAll_congr (heard_tables ..) f).trans ho
  refine congrArg Host.Outcome.next ((receive_of_arrives ha ms _).trans ?_)
  rw [lookup_heard_of_resyncing hc hp, liveness_of_resyncing (s := s.atArrival ms) hc hp]
  dsimp only
  rw [hown, hacc]
  rfl

end

/-- A controller in RECEIVING with the set `l`, its wait restarted (R36). -/
def Controller.collecting (c : Controller) (l : List Nat) : Controller :=
  { c with silence := 0, wait := 5, phase := .receiving, snapSet := l }

/-- The state of an event that a telegram begins, its sender's entry moved. -/
def State.arrivedWith (s : State) (ms : Nat) (k : List (Nat × Controller)) : State :=
  { s.atArrival ms with controllers := k }

theorem arrivedWith_sound {s : State} (h : s.time.Sound) (ms : Nat) (k : List (Nat × Controller)) :
    (s.arrivedWith ms k).time.Sound := by
  obtain ⟨h1, h2, h3, h4, h5, h6⟩ := h
  exact ⟨h1, h2, h3, h4, max_le h5 (min_le_right ..), h6⟩

/-- The snapshot of a controller in resynchronisation, with its entry `k` at the last record. -/
theorem applySnapshot_of_resyncing {s : State} {f : Frame} {c : Controller}
    (hc : lookup s.controllers f.source.toNat = some c) (hp : c.phase ≠ .idle) (hr : s.request = none) (ms : Nat)
    (k : Controller) : ∃ l, SnapshotApplied f.source.toNat k (s.arrivedWith ms l)
      (applySnapshot f.source.toNat ((s.heard ms .plant f).modController f.source.toNat fun _ => k)) := by
  have hl : lookup ((s.heard ms .plant f).modController f.source.toNat fun _ => k).controllers f.source.toNat = some k := by
    rw [lookup_modController, if_pos rfl, lookup_heard_of_resyncing hc hp]
    rfl
  have hf : (s.heard ms .plant f).modController f.source.toNat (fun _ => k) =
      s.arrivedWith ms ((s.heard ms .plant f).modController f.source.toNat fun _ => k).controllers := by
    conv_lhs => rw [heard_of_resyncing hc hp, modController_modController, modController_frame]
    rw [heard_of_resyncing hc hp, modController_modController]
    rfl
  refine ⟨((s.heard ms .plant f).modController f.source.toNat fun _ => k).controllers, ?_⟩
  rw [← hf]
  exact applySnapshot_applied hl (by rw [hf]; exact hr)

/-- Settles O26: the record acts by its marker on the controller's entry, and at the last one the snapshot is applied as
one event, whose stages are followed point by point. -/
theorem snapshotRebuildsTheController : Obligations.SnapshotRebuildsTheController := by
  intro ms f d c s ha ho hc hlive hphase hseq hrecs hd me marker p base inSet mine taken
  have hk := lookup_heard_of_resyncing hc hphase ms
  have hexec := exec_psnap_accepted hc hphase ha ho hlive hseq ms
  rw [hrecs] at hexec
  have hph : (taken fun k => { k with wait := 5 }).phaseOf me = c.phase := phaseOf_modController hk _
  obtain ⟨hmore, hskip, hfirst, hlast, hfirstLast⟩ := applyPsnap_one (a := me) hd (taken fun k => { k with wait := 5 })
  have hset (q : Nat) : q ∈ snapAdded (s.heard ms .plant f) me d base ↔ inSet q = true := by
    rw [mem_snapAdded, heard_pointDef]
  have hadd : c.phase = .receiving → ¬ (marker = 1 ∨ marker = 3) →
      addSnapPoint me d (taken fun k => { k with wait := 5 }) = taken fun _ =>
        c.collecting (snapAdded (s.heard ms .plant f) me d base) := by
    intro hr hm
    rw [show base = c.snapSet from if_neg hm]
    unfold Controller.collecting
    rw [← hr]
    exact addSnapPoint_modController hk d _
  have haddFirst : marker = 1 ∨ marker = 3 →
      addSnapPoint me d (snapFirst me (taken fun k => { k with wait := 5 })) = taken fun _ =>
        c.collecting (snapAdded (s.heard ms .plant f) me d base) := by
    intro hm
    rw [show base = [] from if_pos hm, snapFirst_modController hk]
    exact addSnapPoint_modController hk d _
  refine ⟨fun hr hm => ?_, fun hm => ⟨snapAdded (s.heard ms .plant f) me d base, ?_, hset, snapAdded_sorted _ _ _ _⟩,
    fun hm _ => ?_⟩
  · rw [hexec, hskip hm (by rw [hph, hr]; decide)]
  · have htaken : applyPsnap me [⟨0x11#8, d⟩] (taken fun k => { k with wait := 5 }) = taken fun _ =>
        c.collecting (snapAdded (s.heard ms .plant f) me d base) := by
      rcases hm with hm | ⟨hm, hr⟩
      · rw [hfirst hm, haddFirst (.inl hm)]
      · rw [hmore hm (hph.trans hr), hadd hr (by rw [hm]; decide)]
    rw [hexec, htaken]
    exact congrArg Host.Outcome.next (modController_congr_at hk rfl)
  · have hlastRec : applyPsnap me [⟨0x11#8, d⟩] (taken fun k => { k with wait := 5 }) = applySnapshot me (taken fun _ =>
        c.collecting (snapAdded (s.heard ms .plant f) me d base)) := by
      rcases hm with hm | ⟨hm, hr⟩
      · rw [hfirstLast hm, haddFirst (.inr hm)]
      · rw [hlast hm (hph.trans hr), hadd hr (by rw [hm]; decide)]
    rw [hlastRec] at hexec
    obtain ⟨l, happ⟩ := applySnapshot_of_resyncing hc hphase (request_of_arrives ha) ms
      (c.collecting (snapAdded (s.heard ms .plant f) me d base))
    have hmine (q : Nat) : q ∈ s.pointsOf me ↔ mine q = true := List.contains_iff_mem.symm
    refine ⟨_, hexec, happ.controller, fun q => ?_, happ.area, happ.stale, fun hq ht htime hlen => ?_, happ.told, happ.tables,
      happ.memory, happ.retained, happ.shelf, happ.commands, happ.console, happ.consoles⟩
    · exact (happ.dyn q).trans (if_congr (hset q) rfl (if_congr (hmine q) rfl rfl))
    · have hroom := snapAdded_length_le (s.heard ms .plant f) me d base
      have hslots := happ.slots (arrivedWith_sound htime ms l) ⟨ht, hq, .inl rfl, rfl,
        show s.slots.length + (snapAdded (s.heard ms .plant f) me d base).length ≤ 1024 by omega⟩
      refine ⟨fun q => ?_, hslots.index, hslots.suppressed, hslots.queue⟩
      cases hs : s.slotOf q with
      | some x =>
        exact (hslots.bare_of_some (i := x.1) (sl := x.2) hs).trans
          (congrArg (Option.map Slot.bare) (if_congr (hset q) rfl (if_congr (hmine q) rfl rfl)))
      | none => exact (hslots.bare_of_none hs).trans (if_congr (hset q) rfl rfl)

end Sys2Proof.Machine

namespace Sys2Proof.Machine

/-! ## A notice for the consoles of an area (R100) -/

/-- An ATTACHED console with VIEW in the area, with room, holds the notice. -/
theorem notifyArea_holds {s : State} {area a : Nat} {c : Console} (h : risingKeys s.consoles = true) (n : Notice)
    (hc : lookup s.consoles a = some c) (ha : c.attached = true) (hv : viewsArea s area c)
    (hroom : c.notices.length < 32) : HoldsNotice n a (c.notices.length + 1) (s.notifyArea area n) := by
  obtain ⟨hmem, hlen⟩ := take_mem ha hroom n
  refine ⟨notifyEach_rising h n _, c.take n, ?_, hmem, hlen⟩
  rw [State.notifyArea, lookup_notifyEach (l := s.entitled area) (keys_nodup h _), if_pos (mem_entitled hc ha hv), hc]
  rfl

/-- An event that tells the consoles of an area, and then hands on slot changes of points, leaves the notice with each
(R99 to R101). -/
theorem told_of_notifyArea {n : Notice} (hn : n.lasting = true) {s u : State} {area : Nat} {e : Ev}
    (hc : u.consoles = s.consoles) (ht : u.tables = s.tables) (hr : u.records = s.records)
    (he : e.s = u.notifyArea area n) (hnames : ∀ c ∈ e.changes, c.area ∈ s.pointAreas) (b : State)
    (xs : List ShelfEvent) : Told n (viewsArea s area) s (handOn b e xs) := by
  intro hrise a c hl ha hv hroom
  have hview : viewsArea u area c := by
    unfold viewsArea at hv ⊢
    simpa only [hasRight_congr ht] using hv
  have hheld : HoldsNotice n a (c.notices.length + 1) e.s :=
    he ▸ notifyArea_holds (by rwa [hc]) n (by rwa [hc]) ha hview (by omega)
  have hrec : e.s.records = s.records := by rw [he, State.notifyArea_records, hr]
  obtain ⟨-, k, hk, hmem, -⟩ := hheld.handOn hn (namedAreas_length_le hnames) (by rw [hrec]; omega) b xs
  exact ⟨k, hk, hmem⟩

/-! ## The slots that an overlay changes (R14) -/

/-- A table with its picked slots rewritten. -/
theorem lookup_rewriteSlots_filter {q : Slot → Bool} {f : Slot → Slot} {t : List (Nat × Slot)}
    (h : risingKeys t = true) (i : Nat) : lookup (rewriteSlots f (t.filter fun x => q x.2) t) i =
      (lookup t i).map fun sl => if q sl then f sl else sl := by
  have hback {y : Slot} (hy : lookup (rewriteSlots f (t.filter fun x => q x.2) t) i = some y) :
      ∃ sl, lookup t i = some sl ∧ y = if q sl then f sl else sl := by
    rcases lookup_rewriteSlots hy with ⟨x, hx, rfl⟩ | ⟨hl, hn⟩
    · obtain ⟨hm, hq⟩ := List.mem_filter.1 hx
      exact ⟨x, lookup_of_mem h hm, (if_pos hq).symm⟩
    · exact ⟨y, hl, (if_neg fun hq => hn y (List.mem_filter.2 ⟨mem_of_lookup hl, hq⟩)).symm⟩
  cases hl : lookup t i with
  | none =>
    refine Option.eq_none_iff_forall_ne_some.2 fun y hy => ?_
    obtain ⟨sl, hsl, -⟩ := hback hy
    rw [hl] at hsl
    cases hsl
  | some sl =>
    obtain ⟨y, hy⟩ := Option.isSome_iff_exists.1
      (lookup_rewriteSlots_isSome f (t.filter fun x => q x.2) t (i := i) (by rw [hl]; rfl))
    obtain ⟨sl', hsl', rfl⟩ := hback hy
    rw [hl] at hsl'
    cases hsl'
    exact hy

/-! ## FLOOD_EXIT (R47, R48) -/

/-- The slot belongs to a point of the area and carries SUPPRESSED. -/
def State.suppressedIn (s : State) (a : Nat) (sl : Slot) : Bool := (s.pointDef sl.point).area == a && sl.suppressed

/-- A slot without SUPPRESSED (R48). -/
def Slot.unsuppressed (sl : Slot) : Slot := { sl with suppressed := false }

/-- The area with its load decayed (R47). -/
def State.decaying (s : State) (a : Nat) : State := s.modArea a fun r => { r with load := decayed (s.area a).load }

/-- The area with its load decayed, in NORMAL. -/
def State.outOfFlood (s : State) (a : Nat) : State := (s.decaying a).modArea a fun r => { r with flood := false }

/-- The alarm table's part of a flood exit: SUPPRESSED leaves the area's slots (R48). -/
def floodExitEv (a : Nat) (s : State) : Ev :=
  overlayEach (s.suppressedIn a) Slot.unsuppressed { s := s.outOfFlood a }

/-- The event of a flood exit, with its NOTE FLOOD. -/
def floodExitTold (a : Nat) (s : State) : Ev :=
  { floodExitEv a s with s := (floodExitEv a s).s.notifyArea a (.flood a false) }

theorem loadWork_of_ending {a : Nat} {s : State} (h : floodEnds a s = true) :
    loadWork a s = handOn (s.decaying a) (floodExitTold a s) [] := by
  unfold floodEnds at h
  unfold loadWork
  exact if_pos h

theorem area_outOfFlood (a b : Nat) (s : State) : (s.outOfFlood a).area b =
    if b = a then { s.area a with load := decayed (s.area a).load, flood := false } else s.area b := by
  unfold State.outOfFlood State.decaying
  rw [area_modArea, area_modArea_self]
  split
  · rfl
  · next hb => exact area_modArea_of_ne s hb _

theorem floodExitEv_eq (a : Nat) (s : State) : floodExitEv a s =
    { s := { s.outOfFlood a with
        slots := rewriteSlots Slot.unsuppressed (s.slots.filter fun x => s.suppressedIn a x.2) s.slots }
      changes := (s.slots.filter fun x => s.suppressedIn a x.2).map (overlayChange s Slot.unsuppressed) } := by
  unfold floodExitEv
  rw [overlayEach_eq]
  rfl

/-- The slot changes of a flood exit name its area alone, where a slot of it is SUPPRESSED. -/
theorem mem_floodExitEv_areas (a b : Nat) (s : State) : b ∈ (floodExitEv a s).changes.map (·.area) ↔
    b = a ∧ (s.slots.any fun x => s.suppressedIn a x.2) = true := by
  rw [floodExitEv_eq, List.map_map, List.mem_map, List.any_eq_true]
  simp only [List.mem_filter, Function.comp_def]
  have harea {x : Nat × Slot} (h : s.suppressedIn a x.2 = true) :
      (overlayChange s Slot.unsuppressed x).area = a := by
    simp only [State.suppressedIn, Bool.and_eq_true, beq_iff_eq] at h
    exact h.1
  constructor
  · rintro ⟨x, ⟨hx, hq⟩, rfl⟩
    exact ⟨harea hq, x, hx, hq⟩
  · rintro ⟨rfl, x, hx, hq⟩
    exact ⟨x, ⟨hx, hq⟩, harea hq⟩

theorem floodExitEv_names (a : Nat) (s : State) : ∀ c ∈ (floodExitEv a s).changes, c.area ∈ s.pointAreas := by
  intro c hc
  rw [floodExitEv_eq] at hc
  obtain ⟨x, -, rfl⟩ := List.mem_map.1 hc
  exact pointArea_mem s x.2.point

section
variable (a : Nat) (b : State) (s : State)

theorem floodExitTold_areas : (floodExitTold a s).s.areas = (s.outOfFlood a).areas := by
  unfold floodExitTold
  rw [State.notifyArea_areas, floodExitEv_eq]

theorem floodExitTold_request : (floodExitTold a s).s.request = s.request := by
  unfold floodExitTold
  rw [State.notifyArea_request, floodExitEv_eq]
  rfl

theorem floodExitTold_kept : (floodExitTold a s).s.kept = s.kept := by
  unfold floodExitTold
  rw [kept_notifyArea, floodExitEv_eq]
  rfl

theorem floodExit_lookup (h : risingKeys s.slots = true) (i : Nat) :
    lookup (handOn b (floodExitTold a s) []).slots i = (lookup s.slots i).map fun sl =>
      if (s.pointDef sl.point).area = a then { sl with suppressed := false } else sl := by
  rw [handOn_slots, floodExitTold, State.notifyArea_slots, floodExitEv_eq, lookup_rewriteSlots_filter h]
  refine congrArg (Option.map · _) (funext fun sl => ?_)
  unfold State.suppressedIn Slot.unsuppressed
  by_cases ha : (s.pointDef sl.point).area = a
  · cases hs : sl.suppressed with
    | true => simp [ha]
    | false => simp [ha, ← hs]
  · simp [ha]

theorem floodExit_area (h : s.request = none) (x : Nat) : (handOn b (floodExitTold a s) []).area x =
    if x = a then
      { s.area a with
        load := decayed (s.area a).load, flood := false
        generation := if s.slots.any fun e => s.suppressedIn a e.2 then ((s.area a).generation + 1) % 65536
          else (s.area a).generation }
    else s.area x := by
  rw [handOn_area ((floodExitTold_request a s).trans h), area_congr (floodExitTold_areas a s), area_outOfFlood,
    show (floodExitTold a s).changes = (floodExitEv a s).changes from rfl]
  simp only [mem_floodExitEv_areas]
  by_cases hx : x = a
  · subst hx
    cases s.slots.any fun e => s.suppressedIn x e.2 <;> simp
  · simp [hx]

theorem floodExit_plant : (handOn b (floodExitTold a s) []).plant = s.plant := by
  rw [handOn_plant, floodExitTold, State.notifyArea_plant, floodExitEv_eq]
  rfl

theorem floodExit_console : (handOn b (floodExitTold a s) []).console = s.console := by
  rw [handOn_console, floodExitTold, State.notifyArea_console, floodExitEv_eq]
  rfl

theorem floodExit_consolesKept : ConsolesKept s (handOn b (floodExitTold a s) []) := by
  refine ConsolesKept.trans ?_ (handOn_consolesKept b (floodExitTold a s) [])
  exact ConsolesKept.trans (.of_eq (by rw [floodExitEv_eq]; rfl)) (notifyArea_consolesKept (floodExitEv a s).s a _)

theorem floodExit_told : Told (.flood a false) (viewsArea s a) s (handOn b (floodExitTold a s) []) := by
  have hc : (floodExitEv a s).s.consoles = s.consoles := by rw [floodExitEv_eq]; rfl
  have ht : (floodExitEv a s).s.tables = s.tables := by rw [floodExitEv_eq]; rfl
  have hr : (floodExitEv a s).s.records = s.records := by rw [floodExitEv_eq]; rfl
  exact told_of_notifyArea (e := floodExitTold a s) rfl hc ht hr rfl (floodExitEv_names a s) b []

theorem floodExit_kept (h : s.request = none) : (handOn b (floodExitTold a s) []).kept = s.kept := by
  rw [kept_handOn ((floodExitTold_request a s).trans h), floodExitTold_kept]

theorem floodExit_owed : (handOn b (floodExitTold a s) []).owed = s.owed := by
  rw [handOn_owed, floodExitTold, State.notifyArea_owed, floodExitEv_eq]
  rfl

end

/-! ## CHATTER_RELEASE (R52) -/

/-- A slot without CHATTER (R52). -/
def Slot.unchattered (sl : Slot) : Slot := { sl with chatter := false }

/-- The score of the point decayed by one. -/
def State.calming (s : State) (p : Nat) : State := s.setDyn p { s.dynOf p with score := (s.dynOf p).score - 1 }

/-- The score of the point decayed by one, and its hold ended. -/
def State.released (s : State) (p : Nat) : State :=
  (s.calming p).setDyn p { (s.calming p).dynOf p with held := false }

theorem dynOf_released (s : State) (p q : Nat) : (s.released p).dynOf q =
    if q = p then { s.dynOf p with score := (s.dynOf p).score - 1, held := false } else s.dynOf q := by
  unfold State.released State.calming
  simp only [dynOf_setDyn, if_true]
  split <;> rfl

/-- What an AREP CHATTER_RELEASE reports (R64). -/
def releaseReport (s : State) (p : Nat) : Report :=
  { action := .chatterRelease, point := p, area := (s.pointDef p).area, occ := (s.slotOf p).map fun x => x.2.occ }

/-- The alarm table's part of a chatter release. -/
def releaseEv (p : Nat) (s : State) : Ev := clearChatter p { s := s.released p }

/-- The event of a chatter release, with its AREP. -/
def releaseReported (p : Nat) (s : State) : Ev :=
  { releaseEv p s with s := (releaseEv p s).s.report (releaseReport s p) }

theorem chatterWork_of_ending {p : Nat} {s : State} (h : chatterEnds p s = true) :
    chatterWork p s = handOn (s.calming p) (releaseReported p s) [] := by
  unfold chatterEnds at h
  unfold chatterWork
  exact if_pos h

/-- A release changes the state by the point's dynamic state and its slot alone. -/
theorem releaseEv_frame (p : Nat) (s : State) :
    (releaseEv p s).s = { s.released p with slots := (releaseEv p s).s.slots } := by
  unfold releaseEv
  rcases clearChatter_cases p (s.released p) with ⟨i, sl, -, -, he⟩ | ⟨-, he⟩
  · rw [he]
    rfl
  · rw [he]

theorem releaseEv_of_none {p : Nat} {s : State} (h : s.slotOf p = none) : releaseEv p s = { s := s.released p } := by
  have hs : (s.released p).slotOf p = none := h
  unfold releaseEv clearChatter
  rw [hs]

theorem releaseEv_slots_of_slot {p i : Nat} {sl : Slot} {s : State} (h : s.slotOf p = some (i, sl))
    (hk : risingKeys s.slots = true) :
    lookup (releaseEv p s).s.slots i = some sl.unchattered ∧ OtherSlotsKept i s (releaseEv p s).s := by
  have hs : (s.released p).slotOf p = some (i, sl) := h
  obtain ⟨hm, -⟩ := mem_of_slotOf h
  unfold releaseEv
  rcases clearChatter_cases p (s.released p) with ⟨j, x, hx, -, he⟩ | ⟨hx, he⟩
  · rw [hs] at hx
    cases hx
    rw [he]
    exact ⟨lookup_insertAt_self .., fun j hj => lookup_insertAt_of_ne _ hj _⟩
  · have hsl : sl.unchattered = sl := by unfold Slot.unchattered; rw [← hx i sl hs]
    rw [he, hsl]
    exact ⟨lookup_of_mem hk hm, fun _ _ => rfl⟩

/-- The release of a point whose slot carries CHATTER names the point's area. -/
theorem releaseEv_areas {p i : Nat} {sl : Slot} {s : State} (h : s.slotOf p = some (i, sl)) (hc : sl.chatter = true) :
    (releaseEv p s).changes.map (·.area) = [(s.pointDef p).area] := by
  have hs : (s.released p).slotOf p = some (i, sl) := h
  obtain ⟨-, rfl⟩ := mem_of_slotOf h
  unfold releaseEv
  rcases clearChatter_cases sl.point (s.released sl.point) with ⟨j, x, hx, -, he⟩ | ⟨hx, -⟩
  · rw [hs] at hx
    cases hx
    rw [he]
    rfl
  · exact absurd (hc.symm.trans (hx i sl hs)) (by decide)

section
variable (p : Nat) (b : State) (s : State)

theorem chatterRelease_slots : (handOn b (releaseReported p s) []).slots = (releaseEv p s).s.slots := by
  rw [handOn_slots, releaseReported, State.report_slots]

theorem chatterRelease_dyn : (handOn b (releaseReported p s) []).dyn = (s.released p).dyn := by
  rw [handOn_dyn, releaseReported, State.report_dyn, releaseEv_frame]

theorem chatterRelease_dynOf (q : Nat) : (handOn b (releaseReported p s) []).dynOf q =
    if q = p then { s.dynOf p with score := (s.dynOf p).score - 1, held := false } else s.dynOf q := by
  rw [← dynOf_released]
  exact dynOf_congr (chatterRelease_dyn p b s) q

theorem chatterRelease_owed : (handOn b (releaseReported p s) []).owed = s.owed := by
  rw [handOn_owed, releaseReported, State.report_owed, releaseEv_frame]
  rfl

theorem chatterRelease_plant : (handOn b (releaseReported p s) []).plant =
    s.plant.joinOwn (arepAt s s.stamp (releaseReport s p)) := by
  rw [handOn_plant, releaseReported, report_plant, releaseEv_frame]
  rfl

theorem chatterRelease_console : (handOn b (releaseReported p s) []).console = s.console := by
  rw [handOn_console, releaseReported, report_console, releaseEv_frame]
  rfl

theorem chatterRelease_consolesKept : ConsolesKept s (handOn b (releaseReported p s) []) := by
  refine ConsolesKept.trans (.of_eq ?_) (handOn_consolesKept b (releaseReported p s) [])
  rw [releaseReported, State.report_consoles, releaseEv_frame]
  rfl

theorem releaseReported_areas : (releaseReported p s).s.areas = s.areas := by
  rw [releaseReported, State.report_areas, releaseEv_frame]
  rfl

theorem releaseReported_kept : (releaseReported p s).s.kept = (s.released p).kept := by
  rw [releaseReported, kept_report, releaseEv_frame]
  rfl

variable {s} (h : s.request = none)
include h

theorem releaseReported_request : (releaseReported p s).s.request = none := by
  rw [releaseReported, State.report_request, releaseEv_frame]
  exact h

theorem chatterRelease_areasKept : AreasKept s (handOn b (releaseReported p s) []) :=
  (handOn_areasKept (releaseReported_request p h)).congr (releaseReported_areas p s).symm rfl

theorem chatterRelease_oneGeneration {i : Nat} {sl : Slot} (hs : s.slotOf p = some (i, sl)) (hc : sl.chatter = true) :
    OneGeneration (s.pointDef p).area s (handOn b (releaseReported p s) []) := by
  refine (handOn_oneGeneration (releaseReported_request p h) fun c => ?_).congr (releaseReported_areas p s).symm rfl
  rw [show (releaseReported p s).changes = (releaseEv p s).changes from rfl, releaseEv_areas hs hc]
  exact List.mem_singleton

theorem chatterRelease_kept : (handOn b (releaseReported p s) []).kept = (s.released p).kept := by
  rw [kept_handOn (releaseReported_request p h), releaseReported_kept]

end

/-! ## The two commands -/

theorem takeOwed_enter {x : TickItem} {s : State} (hs : s.settled = true) (ho : x ∈ s.owed)
    (he : expires x s.beginEvent = true) : takeOwed x (enter s) = tickWork x ((enter s).dropOwed x) := by
  rw [enter_of_settled hs]
  exact takeOwed_of_expiring ho he

theorem mem_takingOwed {s : State} {x y : TickItem} : y ∈ (s.takingOwed x).owed ↔ y ∈ s.owed ∧ y ≠ x := by
  simp [State.takingOwed]

theorem exec_floodExit {a : Nat} {s : State} (hs : s.settled = true) (ho : TickItem.load a ∈ s.owed)
    (h : floodEnds a s = true) : exec (.floodExit a) s = .next (handOn ((s.takingOwed (.load a)).decaying a)
      (floodExitTold a (s.takingOwed (.load a))) []) := by
  refine congrArg Host.Outcome.next ((takeOwed_enter hs ho h).trans ?_)
  unfold tickWork
  dsimp only
  rw [takingOwed_eq hs]
  exact loadWork_of_ending h

theorem exec_chatterRelease {p : Nat} {s : State} (hs : s.settled = true) (ho : TickItem.chatter p ∈ s.owed)
    (h : chatterEnds p s = true) : exec (.chatterRelease p) s = .next (handOn ((s.takingOwed (.chatter p)).calming p)
      (releaseReported p (s.takingOwed (.chatter p))) []) := by
  refine congrArg Host.Outcome.next ((takeOwed_enter hs ho h).trans ?_)
  unfold tickWork
  dsimp only
  rw [takingOwed_eq hs]
  exact chatterWork_of_ending h

/-- Settles O58: each command takes its owed work as an event of its own, whose slot changes are those of the overlay it
clears. -/
theorem floodAndChatterRelease : Obligations.FloodAndChatterRelease := by
  constructor
  · intro a s hs ho hflood hload hk lifted
    have hends : floodEnds a s = true := by simp [floodEnds, hflood, hload]
    have hr : (s.takingOwed (.load a)).request = none := ((settled_iff s).1 hs).1
    refine ⟨_, exec_floodExit hs ho hends, floodExit_area a _ _ hr, floodExit_lookup a _ (s.takingOwed _) hk,
      floodExit_plant .., floodExit_console .., floodExit_consolesKept a _ (s.takingOwed _),
      floodExit_told a _ (s.takingOwed _), fun x => ?_, alarmEventFrame_iff.2 ?_⟩
    · rw [floodExit_owed]
      exact mem_takingOwed
    · rw [floodExit_owed]
      exact floodExit_kept a _ _ hr
  · intro p s hs ho hheld hscore
    have hends : chatterEnds p s = true := by simp [chatterEnds, hheld, hscore]
    have hr : (s.takingOwed (.chatter p)).request = none := ((settled_iff s).1 hs).1
    refine ⟨_, exec_chatterRelease hs ho hends, chatterRelease_dynOf p _ (s.takingOwed _), fun hn => ?_,
      fun i sl hsl hk => ?_, chatterRelease_plant p _ (s.takingOwed _), chatterRelease_console ..,
      chatterRelease_areasKept p _ hr, chatterRelease_consolesKept p _ (s.takingOwed _), alarmEventFrame_iff.2 ?_⟩
    · rw [chatterRelease_slots, releaseEv_of_none (s := s.takingOwed _) hn]
      rfl
    · obtain ⟨hslot, hothers⟩ := releaseEv_slots_of_slot (s := s.takingOwed (.chatter p)) hsl hk
      refine ⟨?_, fun j hj => ?_, chatterRelease_oneGeneration p _ hr hsl⟩
      · rw [chatterRelease_slots]
        exact hslot
      · rw [chatterRelease_slots]
        exact hothers j hj
    · rw [chatterRelease_dyn, chatterRelease_owed]
      exact chatterRelease_kept p _ hr

end Sys2Proof.Machine

namespace Sys2Proof.Machine

-- The proofs are elaborated one after another: side by side each would hold a thread and its stack.
set_option Elab.async false

/-! ## The canonical form of a state through an operation (R65, R120, R147, R184) -/

/-- Each configuration that is, or may become, the part's own stands by rising keys. -/
def State.ConfigsRise (s : State) : Prop :=
  s.tables.KeysRise ∧ s.memory.copy.KeysRise ∧ ∀ j, s.store = some j → j.copy.KeysRise

/-- Open records with distinct numbers, none of which lists an area twice. -/
def RecordsApart (l : List Handover) : Prop := (l.map fun h => h.number).Nodup ∧ ∀ h ∈ l, h.areas.Nodup

/-- Outstanding commands with distinct tags. -/
def TagsApart (l : List Command) : Prop := (l.map fun c => c.tag).Nodup

/-- Shelf entries of distinct points. -/
def PointsApart (l : List ShelfEntry) : Prop := (l.map fun e => e.point).Nodup

/-- `t` is in canonical form where `s` is, piece by piece. -/
structure Orderly (s t : State) : Prop where
  configs     : s.ConfigsRise → t.ConfigsRise := by simp [State.ConfigsRise]
  dyn         : risingKeys s.dyn = true → risingKeys t.dyn = true := by simp
  slots       : risingKeys s.slots = true → risingKeys t.slots = true := by simp
  areas       : risingKeys s.areas = true → risingKeys t.areas = true := by simp
  consoles    : risingKeys s.consoles = true → risingKeys t.consoles = true := by simp
  controllers : risingKeys s.controllers = true → risingKeys t.controllers = true := by simp
  retained    : risingKeys s.retained.areas = true → risingKeys t.retained.areas = true := by simp
  records     : RecordsApart s.records → RecordsApart t.records := by simp
  commands    : TagsApart s.commands → TagsApart t.commands := by simp
  points      : PointsApart s.shelf → PointsApart t.shelf := by simp
  shelf       : PointsApart s.shelf → s.ShelfOrdered → t.ShelfOrdered := by simp [State.ShelfOrdered]

theorem Orderly.refl (s : State) : Orderly s s where

theorem Orderly.trans {s t u : State} (h : Orderly s t) (k : Orderly t u) : Orderly s u where
  configs := k.configs ∘ h.configs
  dyn := k.dyn ∘ h.dyn
  slots := k.slots ∘ h.slots
  areas := k.areas ∘ h.areas
  consoles := k.consoles ∘ h.consoles
  controllers := k.controllers ∘ h.controllers
  retained := k.retained ∘ h.retained
  records := k.records ∘ h.records
  commands := k.commands ∘ h.commands
  points := k.points ∘ h.points
  shelf hp := k.shelf (h.points hp) ∘ h.shelf hp

theorem Orderly.keysRise {s t : State} (h : Orderly s t) (hs : s.KeysRise) : t.KeysRise := by
  obtain ⟨htables, hmemory, hstore, hdyn, hslots, hareas, hconsoles, hcontrollers, hretained⟩ := hs
  obtain ⟨htables, hmemory, hstore⟩ := h.configs ⟨htables, hmemory, hstore⟩
  exact ⟨htables, hmemory, hstore, h.dyn hdyn, h.slots hslots, h.areas hareas, h.consoles hconsoles,
    h.controllers hcontrollers, h.retained hretained⟩

theorem Orderly.numbersApart {s t : State} (h : Orderly s t) (hs : s.NumbersApart) : t.NumbersApart := by
  obtain ⟨hnumbers, hareas, htags, hpoints⟩ := hs
  obtain ⟨hnumbers, hareas⟩ := h.records ⟨hnumbers, hareas⟩
  exact ⟨hnumbers, hareas, h.commands htags, h.points hpoints⟩

theorem Orderly.foldl {α : Type} {f : State → α → State} (h : ∀ s a, Orderly s (f s a)) (l : List α) (s : State) :
    Orderly s (l.foldl f s) := by
  induction l generalizing s with
  | nil => exact .refl s
  | cons a l ih => exact (h s a).trans (ih _)

theorem Orderly.foldl_ev {α : Type} {f : Ev → α → Ev} (h : ∀ e a, Orderly e.s (f e a).s) (l : List α) (e : Ev) :
    Orderly e.s (l.foldl f e).s := by
  induction l generalizing e with
  | nil => exact .refl e.s
  | cons a l ih => exact (h e a).trans (ih _)

theorem Orderly.ite {s t u : State} {p : Prop} [Decidable p] (h : p → Orderly s t) (k : ¬ p → Orderly s u) :
    Orderly s (if p then t else u) := by
  split
  · exact h ‹_›
  · exact k ‹_›

/-! ### The fields one by one -/

theorem modArea_orderly (s : State) (a : Nat) (f : Area → Area) : Orderly s (s.modArea a f) where
  areas h := risingKeys_writeAt h ..

theorem retainArea_orderly (s : State) (a : Nat) : Orderly s (s.retainArea a) where
  retained h := risingKeys_writeAt h ..

theorem setDyn_orderly (s : State) (p : Nat) (d : PointDyn) : Orderly s (s.setDyn p d) where
  dyn h := risingKeys_writeAt h ..

theorem setSlot_orderly (s : State) (i : Nat) (sl : Slot) : Orderly s (s.setSlot i sl) where
  slots h := risingKeys_insertAt h ..

theorem freeSlot_orderly (s : State) (i : Nat) : Orderly s (s.freeSlot i) where
  slots h := risingKeys_removeAt h ..

theorem modConsole_orderly (s : State) (a : Nat) (f : Console → Console) : Orderly s (s.modConsole a f) where
  consoles h := by
    unfold State.modConsole
    split
    · exact risingKeys_insertAt h ..
    · exact h

theorem modController_orderly (s : State) (a : Nat) (f : Controller → Controller) :
    Orderly s (s.modController a f) where
  controllers h := by
    unfold State.modController
    split
    · exact risingKeys_insertAt h ..
    · exact h

theorem consoles_orderly {s : State} {l : List (Nat × Console)}
    (h : risingKeys s.consoles = true → risingKeys l = true) : Orderly s { s with consoles := l } where
  consoles := h

theorem controllers_orderly {s : State} {l : List (Nat × Controller)}
    (h : risingKeys s.controllers = true → risingKeys l = true) : Orderly s { s with controllers := l } where
  controllers := h

theorem modPort_orderly (s : State) (p : PortId) (f : Port → Port) : Orderly s (s.modPort p f) where
theorem latch_orderly (s : State) (f : StatusFlag) : Orderly s (s.latch f) where
theorem sendEntry_orderly (s : State) (p : PortId) (e : OwnEntry) : Orderly s (s.sendEntry p e) where
theorem send_orderly (s : State) (p : PortId) (t : Telegram) : Orderly s (s.send p t) where
theorem answer_orderly (s : State) (f : Frame) (op : Nat) (r : Result) (d : List Rec) :
    Orderly s (s.answer f op r d) where
theorem report_orderly (s : State) (r : Report) : Orderly s (s.report r) where
theorem marked_orderly (s : State) : Orderly s s.marked where
theorem beginEvent_orderly (s : State) : Orderly s s.beginEvent where
theorem queue_orderly (s : State) (l : List QEntry) : Orderly s { s with queue := l } where
theorem time_orderly (s : State) (b : TimeBase) : Orderly s { s with time := b } where
theorem turn_orderly (s : State) (n : Nat) : Orderly s { s with turn := n } where
theorem request_orderly (s : State) (r : Option Request) : Orderly s { s with request := r } where
theorem heldMreps_orderly (s : State) (l : List Request) : Orderly s { s with heldMreps := l } where
theorem resetWaits_orderly (s : State) (b : Bool) : Orderly s { s with resetWaits := b } where
theorem setLatched_orderly (s : State) (w : Half) : Orderly s { s with latched := w } where
theorem ports_orderly (s : State) (p q : Port) : Orderly s { s with plant := p, console := q } where
theorem freeCount_orderly (s : State) (n : Nat) : Orderly s { s with freeCount := n } where
theorem pending_orderly (s : State) (l : List Instr) : Orderly s { s with pending := l } where

theorem countMalformed_orderly (s : State) (p : PortId) : Orderly s (s.countMalformed p) := modPort_orderly ..
theorem forwardFrom_orderly (s : State) (p : PortId) (t : Telegram) : Orderly s (s.forwardFrom p t) :=
  modPort_orderly ..

/-- Work that is owed no more. -/
theorem owed_orderly {s : State} {l : List TickItem} (h : ∀ x ∈ l, x ∈ s.owed) : Orderly s { s with owed := l } where
  shelf _ hs := ⟨hs.1, fun x hx ho => hs.2 x hx (h _ ho)⟩

theorem dropOwed_orderly (s : State) (x : TickItem) : Orderly s (s.dropOwed x) :=
  owed_orderly fun _ h => (List.mem_filter.1 h).1

theorem relatch_orderly (s : State) : Orderly s s.relatch := by
  have h := Orderly.foldl (f := fun acc f => if acc.condition f then acc.latch f else acc)
    (fun s f => .ite (fun _ => latch_orderly s f) fun _ => .refl s) StatusFlag.all s
  exact h.trans (setLatched_orderly _ _)

/-! ### Consoles and the records told of -/

theorem notify_orderly (s : State) (a : Nat) (n : Notice) : Orderly s (s.notify a n) := modConsole_orderly ..

theorem notifyEach_orderly (s : State) (l : List Nat) (n : Notice) : Orderly s (s.notifyEach l n) :=
  .foldl (fun s a => notify_orderly s a n) l s

theorem notifyAll_orderly (s : State) (n : Notice) : Orderly s (s.notifyAll n) := notifyEach_orderly ..
theorem notifyArea_orderly (s : State) (a : Nat) (n : Notice) : Orderly s (s.notifyArea a n) := notifyEach_orderly ..
theorem noteAuthority_orderly (s : State) (a : Nat) : Orderly s (s.noteAuthority a) := notifyArea_orderly ..
theorem noteHandover_orderly (s : State) (c : Nat) (h : Handover) (st : HandoverState) (r : Option AbortReason) :
    Orderly s (s.noteHandover c h st r) := notify_orderly ..

theorem noteParties_orderly (s : State) (h : Handover) (st : HandoverState) (r : Option AbortReason) :
    Orderly s (s.noteParties h st r) :=
  .ite (fun _ => noteHandover_orderly ..) fun _ => (noteHandover_orderly ..).trans (noteHandover_orderly ..)

theorem setHorn_orderly (s : State) (a : Nat) (h : Horn) : Orderly s (s.setHorn a h) := by
  unfold State.setHorn
  split
  · exact .ite (fun _ => .refl s) fun _ => (modConsole_orderly ..).trans (notify_orderly ..)
  · exact .refl s

theorem hornStep2_orderly (s : State) (a : Nat) : Orderly s (s.hornStep2 a) := by
  unfold State.hornStep2
  split
  · exact .ite (fun _ => setHorn_orderly ..) fun _ => .refl s
  · exact .refl s

theorem hornStep_orderly (b : State) (cs : List SlotChange) (s : State) (a : Nat) : Orderly s (hornStep b cs s a) := by
  unfold hornStep
  split
  · exact .ite (fun _ => setHorn_orderly ..) fun _ => hornStep2_orderly ..
  · exact .refl s

/-! ### The records -/

/-- Records changed one by one, each with its number and its areas as they were. -/
theorem records_orderly {s : State} {f : Handover → Handover} (hn : ∀ h ∈ s.records, (f h).number = h.number)
    (ha : (∀ h ∈ s.records, h.areas.Nodup) → ∀ h ∈ s.records, (f h).areas.Nodup) :
    Orderly s { s with records := s.records.map f } where
  records hs := by
    obtain ⟨hnumbers, hareas⟩ := hs
    constructor
    · rw [List.map_map]
      exact (List.map_congr_left hn).symm ▸ hnumbers
    · exact List.forall_mem_map.2 (ha hareas)

/-- A record put in the place of those of its number, with areas as they were in `s`. -/
theorem Orderly.setRecord {s t : State} {h : Handover} (k : Orderly s t)
    (ha : (∀ g ∈ s.records, g.areas.Nodup) → h.areas.Nodup) : Orderly s (t.setRecord h) := by
  refine ⟨k.configs, k.dyn, k.slots, k.areas, k.consoles, k.controllers, k.retained, fun hs => ?_, k.commands, k.points,
    k.shelf⟩
  have hput := records_orderly (s := t) (f := fun x => if x.number == h.number then h else x)
    (fun g _ => by
      split
      · next he => exact (beq_iff_eq.1 he).symm
      · rfl)
    fun ht g hg => by
      split
      · exact ha hs.2
      · exact ht g hg
  exact hput.records (k.records hs)

/-- A record of the table in the place of itself, its list, state and limits changed. -/
theorem setRecord_orderly_of_mem {s : State} {g h : Handover} (hg : g ∈ s.records) (ha : h.areas = g.areas) :
    Orderly s (s.setRecord h) := (Orderly.refl s).setRecord fun hs => ha ▸ hs g hg

theorem dropRecord_orderly (s : State) (n : Nat) : Orderly s (s.dropRecord n) where
  records hs := by
    obtain ⟨hnumbers, hareas⟩ := hs
    exact ⟨hnumbers.sublist (List.filter_sublist.map _), fun h hh => hareas h (List.mem_filter.1 hh).1⟩
  retained h := h

theorem reviewEvent_areas (s : State) (cs : List SlotChange) (xs : List ShelfEvent) (h : Handover) :
    (reviewEvent s cs xs h).1.areas = h.areas :=
  show (reviewEvent s cs xs h).1.bare.areas = h.areas from (reviewEvent_bare s cs xs h) ▸ rfl

/-- Each record is reviewed as it stood before the event, so the areas it lists are its own. -/
theorem engineEvent_orderly (cs : List SlotChange) (xs : List ShelfEvent) (s : State) :
    Orderly s (engineEvent cs xs s) := by
  rw [engineEvent_eq]
  refine List.foldlRecOn (motive := Orderly s) _ _ (.refl s) fun t ht h hh => ?_
  have hset : Orderly s (t.setRecord (reviewEvent s cs xs h).1) :=
    ht.setRecord fun hs => reviewEvent_areas s cs xs h ▸ hs h hh
  exact .ite (fun _ => hset.trans (noteHandover_orderly ..)) fun _ => hset

theorem advanceGenerations_orderly (l : List Nat) (s : State) : Orderly s (advanceGenerations l s) :=
  (Orderly.foldl (fun s a => modArea_orderly s a _) _ s).trans (request_orderly ..)

theorem queueNewAlarms_orderly (cs : List SlotChange) (s : State) : Orderly s (queueNewAlarms cs s) :=
  .foldl (fun _ _ => .ite (fun _ => .refl _) fun _ => notifyArea_orderly ..) _ s

theorem evaluateHorns_orderly (b : State) (cs : List SlotChange) (s : State) : Orderly s (evaluateHorns b cs s) :=
  .foldl (fun s a => hornStep_orderly b cs s a) _ s

theorem handOn_orderly (b : State) (e : Ev) (xs : List ShelfEvent) : Orderly e.s (handOn b e xs) := by
  have h := (advanceGenerations_orderly (namedAreas e.changes) e.s).trans (engineEvent_orderly e.changes xs _)
  exact .ite (fun _ => h) fun _ => (h.trans (queueNewAlarms_orderly ..)).trans (evaluateHorns_orderly ..)

theorem Orderly.handOn {s : State} {e : Ev} (b : State) (xs : List ShelfEvent) (h : Orderly s e.s) :
    Orderly s (handOn b e xs) := h.trans (handOn_orderly b e xs)

end Sys2Proof.Machine

namespace Sys2Proof.Machine

set_option Elab.async false

/-! ### The alarm table -/

theorem moveSlot_orderly (i : Nat) (sl new : Slot) (k : ChangeKind) (o : Option Origin) (e : Ev) :
    Orderly e.s (moveSlot i sl new k o e).s := setSlot_orderly ..

theorem moveMarked_orderly (i : Nat) (sl new : Slot) (k : ChangeKind) (o : Option Origin) (e : Ev) :
    Orderly e.s (moveSlot i sl new k o { e with s := e.s.marked }).s :=
  (marked_orderly e.s).trans (setSlot_orderly ..)

theorem admitHead_orderly (i : Nat) (e : Ev) : Orderly e.s (admitHead i e).s := by
  unfold admitHead
  split
  · exact .refl e.s
  · exact ((marked_orderly e.s).trans (queue_orderly ..)).trans (setSlot_orderly ..)

theorem freeAndAdmit_orderly (i : Nat) (sl : Slot) (k : ChangeKind) (o : Origin) (e : Ev) :
    Orderly e.s (freeAndAdmit i sl k o e).s :=
  (freeSlot_orderly e.s i).trans (admitHead_orderly i (e.push (e.s.freeSlot i) _))

theorem evict_orderly (v : Nat × Slot) (o : Origin) (e : Ev) : Orderly e.s (evict v o e).s :=
  (((freeSlot_orderly ..).trans (report_orderly ..)).trans (modArea_orderly ..)).trans (latch_orderly ..)

theorem onsetInto_orderly (i p : Nat) (o : Origin) (e : Ev) : Orderly e.s (onsetInto i p o e).s :=
  (marked_orderly e.s).trans (setSlot_orderly ..)

theorem joinQueue_orderly (p : Nat) (o : Origin) (e : Ev) : Orderly e.s (joinQueue p o e).s := by
  unfold joinQueue
  dsimp only
  split
  · exact (marked_orderly e.s).trans (queue_orderly ..)
  · exact modArea_orderly e.s _ fun r => { r with losts := countUp r.losts }

theorem allocate_orderly (p : Nat) (o : Origin) (e : Ev) : Orderly e.s (allocate p o e).s := by
  unfold allocate
  split
  · exact onsetInto_orderly ..
  · split
    · exact (evict_orderly ..).trans (onsetInto_orderly ..)
    · exact joinQueue_orderly ..

theorem reportSlot_orderly (i : Nat) (sl : Slot) (active : Bool) (o : Origin) (e : Ev) :
    Orderly e.s (reportSlot i sl active o e).s := by
  unfold reportSlot
  dsimp only
  split
  · exact moveMarked_orderly ..
  · exact .refl e.s
  · exact .refl e.s
  · exact freeAndAdmit_orderly ..
  · exact moveMarked_orderly ..
  · exact freeAndAdmit_orderly ..
  · exact moveMarked_orderly ..

theorem reportQueued_orderly (q : QEntry) (active : Bool) (o : Origin) (e : Ev) :
    Orderly e.s (reportQueued q active o e).s := by
  unfold reportQueued
  dsimp only
  split
  · exact queue_orderly ..
  · exact .refl e.s
  · exact queue_orderly ..
  · exact queue_orderly ..
  · exact .refl e.s

theorem applyReport_orderly (p : Nat) (active : Bool) (o : Origin) (e : Ev) :
    Orderly e.s (applyReport p active o e).s := by
  unfold applyReport
  split
  · exact reportSlot_orderly ..
  · split
    · exact reportQueued_orderly ..
    · split
      · exact allocate_orderly ..
      · exact .refl e.s

theorem Orderly.applyReport {s t : State} (h : Orderly s t) (p : Nat) (active : Bool) (o : Origin)
    (l : List SlotChange) : Orderly s (applyReport p active o { s := t, changes := l }).s :=
  h.trans (applyReport_orderly p active o { s := t, changes := l })

theorem applyAck_orderly (i : Nat) (sl : Slot) (op : Nat) (e : Ev) : Orderly e.s (applyAck i sl op e).s := by
  unfold applyAck
  split
  · exact moveMarked_orderly ..
  · exact freeAndAdmit_orderly ..
  · exact .refl e.s

theorem reannounce_orderly (p : Nat) (e : Ev) : Orderly e.s (reannounce p e).s := by
  unfold reannounce
  split
  · exact .refl e.s
  · dsimp only
    split
    · exact moveMarked_orderly ..
    · exact moveSlot_orderly ..

theorem discarded_orderly (s : State) (p i : Nat) (sl : Slot) : Orderly s (s.discarded p i sl) :=
  ((freeSlot_orderly ..).trans (report_orderly ..)).trans (modArea_orderly ..)

theorem dequeued_orderly (s : State) (p : Nat) : Orderly s (s.dequeued p) :=
  ((queue_orderly ..).trans (report_orderly ..)).trans (modArea_orderly ..)

theorem discardPoint_orderly (p : Nat) (e : Ev) : Orderly e.s (discardPoint p e).s := by
  cases hp : e.s.slotOf p with
  | some x =>
    rw [discardPoint_of_slot hp]
    exact (discarded_orderly ..).trans (admitHead_orderly _ (e.push _ _))
  | none =>
    cases hq : e.s.queued p with
    | true => rw [discardPoint_of_queued hp hq]; exact dequeued_orderly ..
    | false => rw [discardPoint_of_absent hp hq]; exact .refl e.s

theorem overlayEach_orderly (q : Slot → Bool) (f : Slot → Slot) (e : Ev) : Orderly e.s (overlayEach q f e).s :=
  .foldl_ev (fun _ _ => moveSlot_orderly ..) _ e

theorem clearStale_orderly (a : Nat) (e : Ev) : Orderly e.s (clearStale a e).s := by
  refine .foldl_ev (fun e x => ?_) _ e
  dsimp only
  split
  · exact setSlot_orderly ..
  · exact moveSlot_orderly ..

theorem markHeld_orderly (p : Nat) (e : Ev) : Orderly e.s (markHeld p e).s := by
  unfold markHeld
  split
  · dsimp only
    split
    · exact .refl e.s
    · split
      · exact setSlot_orderly ..
      · exact moveSlot_orderly ..
  · exact .refl e.s

theorem markShelved_orderly (p : Nat) (e : Ev) : Orderly e.s (markShelved p e).s := by
  unfold markShelved
  split
  · split
    · exact .refl e.s
    · exact moveSlot_orderly ..
  · exact .refl e.s

theorem clearChatter_orderly (p : Nat) (e : Ev) : Orderly e.s (clearChatter p e).s := by
  unfold clearChatter
  split
  · split
    · exact setSlot_orderly e.s ..
    · exact .refl e.s
  · exact .refl e.s

/-! ### The load stage -/

theorem enterFlood_orderly (s : State) (a : Nat) : Orderly s (s.enterFlood a) :=
  ((modArea_orderly ..).trans (notifyArea_orderly ..)).trans (latch_orderly ..)

theorem addLoad_orderly (s : State) (a w : Nat) : Orderly s (s.addLoad a w) :=
  (modArea_orderly s a _).trans (.ite (fun _ => enterFlood_orderly ..) fun _ => .refl _)

theorem loadOne_orderly (e : Ev) (c : SlotChange) : Orderly e.s (loadOne e c).s := by
  unfold loadOne
  split
  · refine (addLoad_orderly e.s c.area _).trans (.ite (fun _ => ?_) fun _ => .refl _)
    split
    · exact setSlot_orderly ..
    · exact .refl _
  · exact .refl e.s

theorem loadStage_orderly (e : Ev) : Orderly e.s (loadStage e).s := .foldl_ev loadOne_orderly _ { s := e.s }

theorem Orderly.loadStage {s t : State} (l : List SlotChange) (h : Orderly s t) :
    Orderly s (loadStage { s := t, changes := l }).s := h.trans (loadStage_orderly { s := t, changes := l })

/-! ### Reports, snapshots and STALE -/

theorem reportStages_orderly (p : Nat) (c : Condition) (b : State) : Orderly b (reportStages p c b).s := by
  unfold reportStages
  dsimp only
  generalize reportStage1 (b.pointDef p) (b.dynOf p) c = r
  have h1 : Orderly b (if r.2.2 then (b.setDyn p r.1).report (holdReport p (c == .active) (b.setDyn p r.1))
      else b.setDyn p r.1) :=
    .ite (fun _ => (setDyn_orderly ..).trans (report_orderly ..)) fun _ => setDyn_orderly ..
  have h2 := h1.applyReport p (c == .active) .report []
  cases hr : r.2.2 with
  | true => rw [hr] at h2; exact h2.trans (markHeld_orderly ..)
  | false => rw [hr] at h2; exact h2

theorem reportEvent_orderly (p : Nat) (c : Condition) (s : State) : Orderly s (reportEvent p c s) := by
  rw [reportEvent_eq]
  exact .handOn _ _ (.loadStage _ ((beginEvent_orderly s).trans (reportStages_orderly p c _)))

theorem followReport_orderly (a p : Nat) (c : Condition) (s : State) : Orderly s (followReport a p c s) :=
  modController_orderly ..

theorem applyPrep_orderly (a : Nat) (l : List Rec) (s : State) : Orderly s (applyPrep a l s) := by
  induction l generalizing s with
  | nil => exact .refl s
  | cons r l ih =>
    unfold applyPrep
    refine .ite (fun _ => ih s) fun _ => .ite (fun _ => .refl s) fun _ => ?_
    dsimp only
    split
    · exact .ite (fun _ => ((reportEvent_orderly ..).trans (followReport_orderly ..)).trans (ih _)) fun _ => ih s
    · exact ih s

theorem snapshotAbsent_orderly (e : Ev) (p : Nat) : Orderly e.s (snapshotAbsent e p).s :=
  (setDyn_orderly ..).applyReport ..

theorem snapshotPresent_orderly (e : Ev) (p : Nat) : Orderly e.s (snapshotPresent e p).s :=
  (setDyn_orderly ..).applyReport ..

theorem applySnapshot_orderly (a : Nat) (s : State) : Orderly s (applySnapshot a s) := by
  unfold applySnapshot
  dsimp only
  split
  · exact beginEvent_orderly s
  · next c _ =>
    have h1 (l : List Nat) := Orderly.foldl_ev snapshotAbsent_orderly l { s := s.beginEvent }
    have h2 (e : Ev) := Orderly.foldl_ev snapshotPresent_orderly c.snapSet e
    exact .handOn _ _ ((((((beginEvent_orderly s).trans (h1 _)).trans (h2 _)).trans (modController_orderly ..)).trans
      (clearStale_orderly a { s := _, changes := _ })).trans (notifyAll_orderly ..))

theorem addSnapPoint_orderly (a : Nat) (data : List Byte) (s : State) : Orderly s (addSnapPoint a data s) :=
  .ite (fun _ => modController_orderly ..) fun _ => .refl s

theorem applyPsnap_orderly (a : Nat) (l : List Rec) (s : State) : Orderly s (applyPsnap a l s) := by
  induction l generalizing s with
  | nil => exact .refl s
  | cons r l ih =>
    have hadd (s : State) := addSnapPoint_orderly a r.data s
    have hfirst : Orderly s (addSnapPoint a r.data (snapFirst a s)) := (modController_orderly s a _).trans (hadd _)
    unfold applyPsnap
    refine .ite (fun _ => ih s) fun _ => .ite (fun _ => .refl s) fun _ => ?_
    dsimp only
    split
    · exact (Orderly.ite (fun _ => hadd s) fun _ => .refl s).trans (ih _)
    · exact hfirst.trans (ih _)
    · exact .ite (fun _ => (hadd s).trans (applySnapshot_orderly ..)) fun _ => ih s
    · exact hfirst.trans (applySnapshot_orderly ..)
    · exact ih s

theorem tags_orderly {s : State} {l : List Command} (h : TagsApart s.commands → TagsApart l) :
    Orderly s { s with commands := l } where
  commands := h

theorem endCommand_orderly (r : Result) (detail : List Byte) (s : State) (c : Command) :
    Orderly s (endCommand r detail s c) := by
  have h : Orderly s { s with commands := s.commands.filter fun x => !(x.tag == c.tag) } :=
    tags_orderly fun h => h.sublist (List.filter_sublist.map _)
  exact .ite (fun _ => h.trans (send_orderly ..)) fun _ => h

theorem endCommandsTo_orderly (a : Nat) (s : State) : Orderly s (endCommandsTo a s) :=
  .foldl (endCommand_orderly .linkLost []) _ s

theorem endAtLimit_orderly (s : State) (c : Command) : Orderly s (endAtLimit s c) :=
  ((endCommand_orderly ..).trans (modController_orderly ..)).trans (latch_orderly ..)

theorem staleEv_orderly (a : Nat) (e : Ev) : Orderly e.s (staleEv a e).s :=
  ((((modController_orderly ..).trans (overlayEach_orderly _ _
      { e with s := e.s.modController a Controller.stale })).trans
    (endCommandsTo_orderly ..)).trans (notifyAll_orderly ..)).trans (latch_orderly ..)

theorem becomeStale_orderly (a : Nat) (s : State) : Orderly s (becomeStale a s) :=
  .handOn _ _ (staleEv_orderly a { s := s })

theorem setFaultLatch_orderly (a : Nat) (s : State) : Orderly s (setFaultLatch a s) := by
  unfold setFaultLatch
  split
  · exact .ite (fun _ => .refl s) fun _ =>
      ((modController_orderly ..).trans (notifyAll_orderly ..)).trans (latch_orderly ..)
  · exact .refl s

theorem clearFaultLatch_orderly (a : Nat) (s : State) : Orderly s (clearFaultLatch a s) :=
  (modController_orderly ..).trans (notifyAll_orderly ..)

theorem sendSreq_orderly (a : Nat) (s : State) : Orderly s (sendSreq a s) := by
  unfold sendSreq
  split
  · exact send_orderly ..
  · exact .refl s

theorem startResync_orderly (a : Nat) (s : State) : Orderly s (startResync a s) :=
  (modController_orderly ..).trans (sendSreq_orderly ..)

theorem resyncExpired_orderly (a : Nat) (s : State) : Orderly s (resyncExpired a s) := by
  unfold resyncExpired
  split
  · exact .refl s
  · exact .ite (fun _ => (modController_orderly ..).trans (sendSreq_orderly ..)) fun _ => modController_orderly ..

theorem liveness_orderly (p : PortId) (source : Nat) (s : State) : Orderly s (liveness p source s).1 := by
  cases p with
  | plant =>
    unfold liveness
    dsimp only
    split
    · split
      · exact (modController_orderly ..).trans (startResync_orderly ..)
      · exact modController_orderly ..
    · exact .refl s
  | console => exact modConsole_orderly ..

end Sys2Proof.Machine

namespace Sys2Proof.Machine

-- The proofs are elaborated one after another: side by side each would hold a thread and its stack.
set_option Elab.async false

/-! ## The first free number of a counter (R121, R151) -/

/-- The counter after `n` advances from a number of its range. -/
theorem wrapUpToOne_iterate {m : Nat} (h1 : 1 ≤ m) (h2 : m ≤ 65535) (n : Nat) :
    wrapUpToOne^[n] m = (m - 1 + n) % 65535 + 1 := by
  induction n with
  | zero => rw [Function.iterate_zero_apply]; omega
  | succ n ih =>
    rw [Function.iterate_succ_apply', ih]
    unfold wrapUpToOne
    split <;> omega

/-- A number that the search ends at in spite of being taken is the last of as many that all are. -/
theorem taken_of_nextFree_taken {used : List Nat} {fuel m : Nat} (h : nextFree used fuel m ∈ used) :
    ∀ i ≤ fuel, wrapUpToOne^[i] m ∈ used := by
  induction fuel generalizing m with
  | zero =>
    intro i hi
    obtain rfl := Nat.le_zero.1 hi
    exact h
  | succ fuel ih =>
    unfold nextFree at h
    split at h
    · next hm =>
      intro i hi
      cases i with
      | zero => simpa using hm
      | succ i => exact ih h i (Nat.le_of_succ_le_succ hi)
    · next hm => exact absurd (List.contains_iff_mem.2 h) hm

/-- While fewer numbers are taken than the search may skip, it ends at a free one. -/
theorem nextFree_not_mem {used : List Nat} {fuel : Nat} (n : Nat) (hu : used.length ≤ fuel) (hf : fuel < 65535) :
    nextFree used fuel (wrapUpToOne n) ∉ used := by
  intro h
  have hm : 1 ≤ wrapUpToOne n ∧ wrapUpToOne n ≤ 65535 := by
    unfold wrapUpToOne
    split <;> omega
  generalize wrapUpToOne n = m at h hm
  have htaken := taken_of_nextFree_taken h
  have hnodup : ((List.range (fuel + 1)).map fun i => wrapUpToOne^[i] m).Nodup := by
    refine List.Nodup.map_on (fun i hi j hj he => ?_) List.nodup_range
    rw [wrapUpToOne_iterate hm.1 hm.2, wrapUpToOne_iterate hm.1 hm.2] at he
    rw [List.mem_range] at hi hj
    omega
  have hsub : ((List.range (fuel + 1)).map fun i => wrapUpToOne^[i] m) ⊆ used :=
    List.forall_mem_map.2 fun i hi => htaken i (Nat.le_of_lt_succ (List.mem_range.1 hi))
  have hlen := (hnodup.subperm hsub).length_le
  rw [List.length_map, List.length_range] at hlen
  omega

/-! ## The shelf list (R65) -/

theorem removeShelf_pointsApart {l : List ShelfEntry} (h : PointsApart l) (p : Nat) : PointsApart (removeShelf p l) :=
  h.sublist (List.filter_sublist.map _)

theorem placeShelf_pointsApart {l : List ShelfEntry} (h : PointsApart l) (x : ShelfEntry) :
    PointsApart (placeShelf x (removeShelf x.point l)) := by
  refine (((placeShelf_perm x _).map _).nodup_iff).2 (List.nodup_cons.2 ⟨fun hm => ?_, removeShelf_pointsApart h _⟩)
  obtain ⟨y, hy, hp⟩ := List.mem_map.1 hm
  exact (mem_removeShelf.1 hy).2 hp

theorem placeShelf_sorted {l : List ShelfEntry} (h : l.Pairwise fun x y => x.ticks ≤ y.ticks) (x : ShelfEntry) :
    (placeShelf x l).Pairwise fun x y => x.ticks ≤ y.ticks := by
  rw [placeShelf_eq x h]
  refine List.pairwise_append.2 ⟨h.filter _, List.pairwise_cons.2 ⟨fun y hy => ?_, h.filter _⟩, fun y hy z hz => ?_⟩
  · exact Nat.le_of_lt (by simpa using (List.mem_filter.1 hy).2)
  · have hyx : y.ticks ≤ x.ticks := by simpa using (List.mem_filter.1 hy).2
    rcases List.mem_cons.1 hz with rfl | hz
    · exact hyx
    · exact hyx.trans (Nat.le_of_lt (by simpa using (List.mem_filter.1 hz).2))

/-- An entry placed in the stead of its point's, whose work is owed only where it is about to expire. -/
theorem placeShelf_orderly {s : State} {x : ShelfEntry}
    (hx : s.ShelfOrdered → TickItem.shelf x.point ∈ s.owed → x.ticks ≤ 1) :
    Orderly s { s with shelf := placeShelf x (removeShelf x.point s.shelf) } where
  points h := placeShelf_pointsApart h x
  shelf _ hs := by
    refine ⟨placeShelf_sorted (hs.1.filter _) x, fun y hy ho => ?_⟩
    rcases mem_placeShelf hy with rfl | hy
    · exact hx hs ho
    · exact hs.2 y (mem_removeShelf.1 hy).1 ho

theorem removeShelf_orderly (s : State) (p : Nat) : Orderly s { s with shelf := removeShelf p s.shelf } where
  points h := removeShelf_pointsApart h p
  shelf _ hs := ⟨hs.1.filter _, fun x hx => hs.2 x (mem_removeShelf.1 hx).1⟩

theorem Orderly.report {s t : State} (r : Report) (h : Orderly s t) : Orderly s (t.report r) :=
  h.trans (report_orderly t r)

theorem unshelveEv_orderly (p : Nat) (act : Action) (who : Option Actor) (e : Ev) :
    Orderly e.s (unshelveEv p act who e).1.s :=
  ((((removeShelf_orderly e.s p).trans
      (reannounce_orderly p { s := { e.s with shelf := removeShelf p e.s.shelf } })).trans
    (loadStage_orderly _)).trans (report_orderly ..))

theorem unshelveEvent_orderly (p : Nat) (act : Action) (who : Option Actor) (s : State) :
    Orderly s (unshelveEvent p act who s) := .handOn _ _ (unshelveEv_orderly p act who { s := s })

theorem shelvePoint_orderly (q : Requester) (p granted : Nat) (s : State) : Orderly s (shelvePoint q p granted s) := by
  have hdrop : Orderly s (s.marked.dropOwed (.shelf p)) := (marked_orderly s).trans (dropOwed_orderly ..)
  have hplace := placeShelf_orderly (s := s.marked.dropOwed (.shelf p)) (x := newShelfEntry q p granted s) fun _ ho =>
    absurd (List.mem_filter.1 ho).2 (by simp [newShelfEntry])
  have h : Orderly s
      { s.marked.dropOwed (.shelf p) with shelf := placeShelf (newShelfEntry q p granted s) (removeShelf p s.shelf) } :=
    hdrop.trans hplace
  have hmark := h.trans (markShelved_orderly p { s := { s.marked.dropOwed (.shelf p) with shelf := _ } })
  exact .handOn _ _ (hmark.report (shelveReport q p granted _))

/-! ## Areas, the journal and the records that end -/

theorem writeJournal_orderly (s : State) (e : JournalEntry) : Orderly s (s.writeJournal e) where
  retained h := h

theorem holdArea_orderly (s : State) (a : Nat) (h : Holder) : Orderly s (s.holdArea a h) :=
  ((modArea_orderly ..).trans (retainArea_orderly ..)).trans (noteAuthority_orderly ..)

theorem enterGrace_orderly (s : State) (a : Nat) : Orderly s (s.enterGrace a) :=
  ((modArea_orderly ..).trans (noteAuthority_orderly ..)).trans (dropOwed_orderly ..)

theorem orphanArea_orderly (s : State) (a : Nat) : Orderly s (s.orphanArea a) :=
  (modArea_orderly ..).trans (noteAuthority_orderly ..)

theorem graceSeat_orderly (s : State) (h : Holder) : Orderly s (s.graceSeat h) :=
  .foldl (fun s a => .ite (fun _ => enterGrace_orderly s a) fun _ => .refl s) _ s

theorem orphanOperator_orderly (s : State) (op : Nat) : Orderly s (s.orphanOperator op) := by
  have h := Orderly.foldl orphanArea_orderly
  unfold State.orphanOperator
  dsimp only
  split
  · exact h _ s
  · exact (h _ s).trans (writeJournal_orderly ..)

theorem closeAreas_orderly (s : State) (l : List Nat) : Orderly s (s.closeAreas l) :=
  .foldl (fun s a => modArea_orderly s a _) l s

theorem abort_orderly (s : State) (h : Handover) (r : AbortReason) : Orderly s (s.abort h r) :=
  (((closeAreas_orderly ..).trans (dropRecord_orderly ..)).trans (writeJournal_orderly ..)).trans
    (noteParties_orderly ..)

theorem abortIncoming_orderly (s : State) (op : Nat) : Orderly s (s.abortIncoming op) :=
  .foldl (fun s h => .ite (fun _ => abort_orderly s h _) fun _ => .refl s) _ s

theorem abortRemoved_orderly (s : State) (op : Nat) : Orderly s (s.abortRemoved op) :=
  .foldl (fun s h => .ite (fun _ => abort_orderly s h _) fun _ =>
    .ite (fun _ => abort_orderly s h _) fun _ => .refl s) _ s

theorem completeArea_orderly (h : Handover) (t : Stamp) (s : State) (a : Nat) : Orderly s (completeArea h t s a) :=
  (modArea_orderly ..).trans (holdArea_orderly ..)

theorem complete_orderly (s : State) (h : Handover) : Orderly s (s.complete h) :=
  ((((marked_orderly s).trans (.foldl (completeArea_orderly h s.stamp) h.areas _)).trans (dropRecord_orderly ..)).trans
    (writeJournal_orderly ..)).trans (noteParties_orderly ..)

theorem takeArea_orderly (s : State) (a : Nat) (h : Holder) (k : JournalKind) : Orderly s (s.takeArea a h k) :=
  ((modArea_orderly ..).trans (holdArea_orderly ..)).trans (writeJournal_orderly ..)

theorem forceUnheld_orderly (s : State) (a : Nat) : Orderly s (s.forceUnheld a) :=
  (((modArea_orderly ..).trans (retainArea_orderly ..)).trans (noteAuthority_orderly ..)).trans
    (writeJournal_orderly ..)

/-! ## Sessions -/

theorem endAuthority_orderly (address seat op : Nat) (cause : EndCause) (s : State) :
    Orderly s (endAuthority address seat op cause s) := by
  cases cause with
  | detach | rehello | removed => exact graceSeat_orderly ..
  | roster => exact orphanOperator_orderly ..
  | logout | move => exact .refl s

theorem endHandovers_orderly (op : Nat) (cause : EndCause) (s : State) : Orderly s (endHandovers op cause s) := by
  cases cause with
  | roster => exact abortRemoved_orderly ..
  | _ => exact abortIncoming_orderly ..

theorem endSession_orderly (a n : Nat) (cause : EndCause) (s : State) : Orderly s (endSession a n cause s) := by
  unfold endSession
  split
  · exact .refl s
  · exact ((((modConsole_orderly ..).trans (modConsole_orderly ..)).trans (endAuthority_orderly ..)).trans
      (endHandovers_orderly ..)).trans (hornStep2_orderly ..)

theorem detachConsole_orderly (cause : EndCause) (a : Nat) (s : State) : Orderly s (detachConsole cause a s) := by
  unfold detachConsole
  split
  · exact .ite (fun _ => ((endSession_orderly ..).trans (endSession_orderly ..)).trans (modConsole_orderly ..))
      fun _ => .refl s
  · exact .refl s

theorem attachWith_orderly (a : Nat) (c : Console) (cls : ConsoleClass) (ft : Features) (s : State) :
    Orderly s (attachWith a c cls ft s) :=
  .ite (fun _ => .refl s) fun _ => (detachConsole_orderly ..).trans (modConsole_orderly ..)

theorem takeHello_orderly (f : Frame) (s : State) : Orderly s (takeHello f s) := by
  unfold takeHello
  dsimp only
  split
  · split
    · exact answer_orderly ..
    · exact (attachWith_orderly ..).trans (answer_orderly ..)
  · exact .refl s

theorem moveOutgoing_orderly (a op address seat : Nat) (s : State) : Orderly s (moveOutgoing a op address seat s) :=
  records_orderly (fun _ _ => by split <;> rfl) fun hs h hh => by
    split
    · exact hs h hh
    · exact hs h hh

theorem rehome_orderly (op address seat : Nat) (l : List Nat) (s : State) : Orderly s (rehome op address seat l s) :=
  .foldl (fun _ _ => (holdArea_orderly ..).trans (moveOutgoing_orderly ..)) l s

theorem moveSession_orderly (op address seat : Nat) (s : State) : Orderly s (moveSession op address seat s) := by
  unfold moveSession
  split
  · exact (endSession_orderly ..).trans (notify_orderly ..)
  · exact .refl s

theorem loginTaken_orderly (f : Frame) (o : Operator) (s : State) : Orderly s (loginTaken f o s) := by
  have h1 : Orderly s ((moveSession o.id f.source.toNat f.seat.toNat s).modConsole f.source.toNat fun c =>
      c.setSeat f.seat.toNat (some o.id)) := (moveSession_orderly ..).trans (modConsole_orderly ..)
  exact ((Orderly.ite (fun _ => h1.trans (rehome_orderly ..)) fun _ => h1).trans (hornStep2_orderly ..)).trans
    (answer_orderly ..)

theorem takeLogin_orderly (f : Frame) (c : Console) (s : State) : Orderly s (takeLogin f c s) := by
  unfold takeLogin
  dsimp only
  split
  · exact answer_orderly ..
  · refine .ite (fun _ => answer_orderly ..) fun _ => .ite (fun _ => answer_orderly ..) fun _ =>
      .ite (fun _ => .ite (fun _ => (modConsole_orderly ..).trans (answer_orderly ..)) fun _ => ?_)
        fun _ => (modConsole_orderly ..).trans (answer_orderly ..)
    split
    · exact (modConsole_orderly ..).trans (loginTaken_orderly ..)
    · exact modConsole_orderly ..

theorem takeLogout_orderly (f : Frame) (q : Requester) (s : State) : Orderly s (takeLogout f q s) :=
  .ite (fun _ => answer_orderly ..) fun _ => (endSession_orderly ..).trans (answer_orderly ..)

/-! ## Operator requests -/

theorem acknowledge_orderly (q : Requester) (i : Nat) (sl : Slot) (s : State) :
    Orderly s (acknowledge q i sl s) := by
  unfold acknowledge
  exact .report _ (.handOn s [] (applyAck_orderly i sl q.operator { s := s }))

theorem matchAck_orderly (q : Requester) (p occ : Nat) (s : State) : Orderly s (matchAck q p occ s).2 := by
  unfold matchAck
  split
  · exact .refl s
  · split
    · exact .refl s
    · split
      · exact .refl s
      · exact acknowledge_orderly ..

theorem takeAck_orderly (f : Frame) (q : Requester) (s : State) : Orderly s (takeAck f q s) := by
  unfold takeAck
  split
  · exact answer_orderly ..
  · dsimp only
    split
    · exact answer_orderly ..
    · exact (matchAck_orderly ..).trans (answer_orderly ..)

theorem takePair_orderly (q : Requester) (p occ : Nat) (s : State) : Orderly s (takePair q p occ s).2 := by
  unfold takePair
  split
  · exact .refl s
  · exact (beginEvent_orderly s).trans (matchAck_orderly ..)

theorem takePairs_orderly (q : Requester) (l : List Rec) (s : State) : Orderly s (takePairs q l s).2 := by
  induction l generalizing s with
  | nil => exact .refl s
  | cons r l ih => exact (takePair_orderly ..).trans (ih _)

theorem takeGroupAck_orderly (f : Frame) (q : Requester) (s : State) : Orderly s (takeGroupAck f q s) :=
  .ite (fun _ => answer_orderly ..) fun _ => .ite (fun _ => (takePairs_orderly ..).trans (answer_orderly ..))
    fun _ => answer_orderly ..

theorem takeShelve_orderly (f : Frame) (q : Requester) (s : State) : Orderly s (takeShelve f q s) := by
  unfold takeShelve
  split
  · exact answer_orderly ..
  · refine .ite (fun _ => answer_orderly ..) fun _ => ?_
    split
    · exact answer_orderly ..
    · split
      · exact answer_orderly ..
      · exact (shelvePoint_orderly ..).trans (answer_orderly ..)

theorem takeUnshelve_orderly (f : Frame) (q : Requester) (s : State) : Orderly s (takeUnshelve f q s) := by
  unfold takeUnshelve
  split
  · exact answer_orderly ..
  · dsimp only
    split
    · exact answer_orderly ..
    · exact .ite (fun _ => (unshelveEvent_orderly ..).trans (answer_orderly ..)) fun _ => answer_orderly ..

theorem takeSilence_orderly (f : Frame) (q : Requester) (s : State) : Orderly s (takeSilence f q s) := by
  have h : Orderly s (if s.hornOf q.console = .sounding then s.setHorn q.console .silenced else s) :=
    .ite (fun _ => setHorn_orderly ..) fun _ => .refl s
  exact .ite (fun _ => answer_orderly ..) fun _ =>
    .ite (fun _ => answer_orderly ..) fun _ => h.trans (answer_orderly ..)

theorem takeClaim_orderly (f : Frame) (q : Requester) (s : State) : Orderly s (takeClaim f q s) := by
  unfold takeClaim
  split
  · exact answer_orderly ..
  · refine .ite (fun _ => answer_orderly ..) fun _ => ?_
    split
    · exact answer_orderly ..
    · exact Orderly.trans (.ite (fun _ => .refl s) fun _ => takeArea_orderly ..) (answer_orderly ..)

theorem placePaged_orderly (a : Nat) (t : Transfer) (s : State) : Orderly s (placePaged a t s) :=
  (modConsole_orderly ..).trans (send_orderly ..)

theorem pageChecked_orderly (f : Frame) (q : Requester) (s : State) : Orderly s (pageChecked f (takePage f) q s) := by
  unfold pageChecked
  split
  · exact answer_orderly ..
  · refine .ite (fun _ => .ite (fun _ => ?_) fun _ => send_orderly ..) fun _ => answer_orderly ..
    exact .ite (fun _ => answer_orderly ..) fun _ =>
      .ite (fun _ => (modConsole_orderly ..).trans (placePaged_orderly ..)) fun _ => modConsole_orderly ..

/-- A command is forwarded under a tag that no outstanding command carries (R151). -/
theorem forwardCommand_orderly (q : Requester) (f : Frame) (p : Nat) {s : State}
    (h : s.commands.length < Config.commandCap) : Orderly s (forwardCommand q f p s) := by
  have hfree : nextTag s ∉ s.commands.map (·.tag) :=
    nextFree_not_mem _ (by rw [List.length_map]; exact (Nat.le_of_lt h).trans (Nat.le_succ _)) (by decide)
  refine Orderly.trans (t := { s with tagCounter := nextTag s, commands := s.commands ++ [_] })
    { commands := fun hc => ?_ }
    (send_orderly ..)
  unfold TagsApart
  rw [List.map_append]
  exact List.nodup_append.2 ⟨hc, List.nodup_singleton _, by
    rintro a ha b hb rfl
    obtain rfl : a = nextTag s := List.mem_singleton.1 hb
    exact hfree ha⟩

theorem takeOpcmd_orderly (f : Frame) (q : Requester) (s : State) : Orderly s (takeOpcmd f q s) := by
  unfold takeOpcmd
  split
  · exact answer_orderly ..
  · refine .ite (fun _ => answer_orderly ..) fun _ => ?_
    split
    · exact answer_orderly ..
    · next h =>
      refine forwardCommand_orderly _ _ _ (Nat.lt_of_not_le fun hc => ?_)
      simp only [opcmdRefusal, check_eq_none] at h
      exact h.2.2.2.2.2.2.1 hc

theorem takeClearHold_orderly (f : Frame) (q : Requester) (s : State) : Orderly s (takeClearHold f q s) := by
  unfold takeClearHold
  split
  · exact answer_orderly ..
  · refine .ite (fun _ => answer_orderly ..) fun _ => ?_
    split
    · exact answer_orderly ..
    · exact (clearFaultLatch_orderly ..).trans (answer_orderly ..)

/-! ## The handover steps -/

theorem areasOf_nodup (w : Nat) : (areasOf w).Nodup := List.nodup_range.filter _

theorem writeSummary_orderly (s : State) (h : Handover) : Orderly s (s.writeSummary h) where
  retained h := h

/-- A record opens under a number that no open record holds (R121), for areas each named once. -/
theorem openRecord_orderly {h : Handover} {s : State} (hn : h.number ∉ s.records.map (·.number)) (ha : h.areas.Nodup) :
    Orderly s (openRecord h s) := by
  have h1 : Orderly s
      { s with records := insertRecord h s.records, retained := { s.retained with counter := h.number } } :=
    { records := fun ⟨hnumbers, hareas⟩ =>
        ⟨((insertRecord_perm h _).map _).nodup_iff.2 (List.nodup_cons.2 ⟨hn, hnumbers⟩), fun x hx => by
          rcases List.mem_cons.1 ((insertRecord_perm h _).mem_iff.1 hx) with rfl | hx
          · exact ha
          · exact hareas x hx⟩
      retained := id }
  exact ((h1.trans (.foldl (fun s a => modArea_orderly s a _) h.areas _)).trans (writeSummary_orderly ..)).trans
    (noteHandover_orderly ..)

theorem takeOffer_orderly (f : Frame) (d : List Byte) (q : Requester) (s : State) : Orderly s (takeOffer f d q s) := by
  unfold takeOffer
  dsimp only
  split
  · exact answer_orderly ..
  · next hr _ _ =>
    split
    · exact answer_orderly ..
    · refine .ite (fun _ => answer_orderly ..) fun _ => ?_
      simp only [offerRefusal, check_eq_none] at hr
      obtain ⟨-, -, -, -, -, -, hroom, -⟩ := hr
      have hfree : nextNumber s ∉ s.records.map (·.number) := nextFree_not_mem _ (by
        rw [List.length_map]
        exact (Nat.le_of_lt (Nat.lt_of_not_le hroom)).trans (Nat.le_succ _)) (by decide)
      exact (openRecord_orderly (h := openedRecord ..) hfree (areasOf_nodup _)).trans (answer_orderly ..)
  · exact .refl s

theorem partyStep_orderly (f : Frame) (incoming only : Bool) {k : Handover → List Byte → Requester → State → State}
    (hk : ∀ h d q s, h ∈ s.records → Orderly s (k h d q s)) (d : List Byte) (q : Requester) (s : State) :
    Orderly s (partyStep f incoming only k d q s) := by
  unfold partyStep
  split
  · exact answer_orderly ..
  · next h hr =>
    exact .ite (fun _ => answer_orderly ..) fun _ => .ite (fun _ => answer_orderly ..) fun _ =>
      hk h d q s (mem_of_record hr)

theorem takeAttend_orderly (f : Frame) (h : Handover) (d : List Byte) (q : Requester) (s : State)
    (hm : h ∈ s.records) : Orderly s (takeAttend f h d q s) :=
  .ite (fun _ => (((setRecord_orderly_of_mem hm (by rfl)).trans (writeSummary_orderly ..)).trans
    (noteHandover_orderly ..)).trans (answer_orderly ..)) fun _ => answer_orderly ..

theorem takeReviewed_orderly (f : Frame) (h : Handover) (d : List Byte) (q : Requester) (s : State)
    (hm : h ∈ s.records) : Orderly s (takeReviewed f h d q s) :=
  (setRecord_orderly_of_mem hm (by rfl)).trans (answer_orderly ..)

theorem takeAccept_orderly (f : Frame) (h : Handover) (d : List Byte) (q : Requester) (s : State) :
    Orderly s (takeAccept f h d q s) :=
  .ite (fun _ => answer_orderly ..) fun _ => .ite (fun _ => answer_orderly ..) fun _ =>
    .ite (fun _ => answer_orderly ..) fun _ => (complete_orderly ..).trans (answer_orderly ..)

theorem endRecord_orderly (r : AbortReason) (f : Frame) (h : Handover) (d : List Byte) (q : Requester) (s : State) :
    Orderly s (endRecord r f h d q s) := (abort_orderly ..).trans (answer_orderly ..)

end Sys2Proof.Machine

namespace Sys2Proof.Machine

-- The proofs are elaborated one after another: side by side each would hold a thread and its stack.
set_option Elab.async false

/-! ## The operations of an MREQ -/

theorem tables_orderly {s : State} {t : Tables} (h : s.tables.KeysRise → t.KeysRise) :
    Orderly s { s with tables := t } where
  configs := fun ⟨htables, hmemory, hstore⟩ => ⟨h htables, hmemory, hstore⟩

/-- A point defined anew. -/
theorem points_orderly (s : State) (p : Nat) (d : PointDef) :
    Orderly s { s with tables := { s.tables with points := writeAt {} s.tables.points p d } } :=
  tables_orderly fun ⟨hpoints, hrest⟩ => ⟨risingKeys_writeAt hpoints .., hrest⟩

theorem roster_orderly {s : State} {l : List (Nat × Operator)}
    (h : risingKeys s.tables.roster = true → risingKeys l = true) : Orderly s (s.setRoster l) :=
  tables_orderly fun ⟨hpoints, hroster, hrest⟩ => ⟨hpoints, h hroster, hrest⟩

theorem stations_orderly {s : State} {l : List (Nat × Station)}
    (h : risingKeys s.tables.stations = true → risingKeys l = true) : Orderly s (s.withStations l) :=
  tables_orderly fun ⟨hpoints, hroster, hstations, hareas⟩ => ⟨hpoints, hroster, h hstations, hareas⟩

theorem areaParams_orderly (s : State) (a : Nat) (p : AreaParams) :
    Orderly s { s with tables := { s.tables with areaParams := writeAt {} s.tables.areaParams a p } } :=
  tables_orderly fun ⟨hpoints, hroster, hstations, hareas⟩ =>
    ⟨hpoints, hroster, hstations, risingKeys_writeAt hareas ..⟩

theorem params_orderly (s : State) (p : Params) :
    Orderly s { s with tables := { s.tables with params := p } } := tables_orderly id

/-- The retained store changed, its areas as they were (R192). -/
theorem retained_orderly {s : State} {r : Retained} (h : r.areas = s.retained.areas) :
    Orderly s { s with retained := r } where
  retained hs := h ▸ hs

theorem rewritePoint_orderly (p : Nat) (d : PointDef) (s : State) : Orderly s (rewritePoint p d s) := by
  have h : Orderly s _ := ((discardPoint_orderly p { s := s }).trans (setDyn_orderly _ p
    { (discardPoint p { s := s }).s.dynOf p with score := 0, held := false })).trans (points_orderly _ p d)
  unfold rewritePoint
  dsimp only
  split
  · exact .handOn _ _ (h.trans (unshelveEv_orderly _ _ _ { s := _, changes := _ }))
  · exact .handOn _ _ h

theorem writePoint_orderly (req : Request) (p : Nat) (force : Bool) (items : List Item) (s : State) :
    Orderly s (writePoint req p force items s).s := by
  unfold writePoint
  split
  · exact .refl s
  · split
    · exact .refl s
    · exact rewritePoint_orderly ..

theorem removeOperator_orderly (op : Nat) (s : State) : Orderly s (removeOperator op s) := by
  unfold removeOperator
  split
  · exact endSession_orderly ..
  · exact (endAuthority_orderly ..).trans (endHandovers_orderly ..)

theorem rehornOperator_orderly (op : Nat) (s : State) : Orderly s (rehornOperator op s) := by
  unfold rehornOperator
  split
  · exact hornStep2_orderly ..
  · exact .refl s

theorem afterRoster_orderly (old : Option Operator) (new : Operator) (s : State) :
    Orderly s (afterRoster old new s) := by
  unfold afterRoster
  split
  · exact .refl s
  · have h (p : Prop) [Decidable p] (op : Nat) : Orderly s (if p then removeOperator op s else s) :=
      .ite (fun _ => removeOperator_orderly ..) fun _ => .refl s
    exact .ite (fun _ => (h ..).trans (rehornOperator_orderly ..)) fun _ => h ..

theorem writeOperator_orderly (req : Request) (i : Nat) (force : Bool) (items : List Item) (s : State) :
    Orderly s (writeOperator req i force items s).s := by
  have hremove : Orderly s (s.setRoster (removeAt s.tables.roster i)) := roster_orderly (risingKeys_removeAt · i)
  have hinsert (o : Operator) : Orderly s (s.setRoster (insertAt s.tables.roster i o)) :=
    roster_orderly (risingKeys_insertAt · i o)
  unfold writeOperator
  dsimp only
  split
  · exact .refl s
  · split
    · dsimp only [written]
      split
      · exact hremove.trans (removeOperator_orderly ..)
      · exact hremove
    · split
      · exact .refl s
      · split
        · exact .refl s
        · exact (hinsert _).trans (afterRoster_orderly ..)

theorem dropController_orderly (a : Nat) (s : State) : Orderly s (dropController a s) := by
  unfold dropController
  split
  · exact .refl s
  · next c _ =>
    have h1 : Orderly s (if c.live then becomeStale a s else s.modController a Controller.abandon) :=
      .ite (fun _ => becomeStale_orderly a s) fun _ => modController_orderly ..
    refine Orderly.trans (h1.trans ?_) (controllers_orderly (risingKeys_removeAt · a))
    exact .ite (fun _ => clearFaultLatch_orderly ..) fun _ => .refl _

theorem dropConsole_orderly (a : Nat) (s : State) : Orderly s (dropConsole a s) :=
  (detachConsole_orderly .removed a s).trans (consoles_orderly (risingKeys_removeAt · a))

theorem leaveController_orderly (old new : Option Station) (s : State) : Orderly s (leaveController old new s) := by
  unfold leaveController
  split
  · exact .ite (fun _ => .refl s) fun _ => dropController_orderly ..
  · exact .refl s

theorem leaveConsole_orderly (old new : Option Station) (s : State) : Orderly s (leaveConsole old new s) := by
  unfold leaveConsole
  split
  · exact .ite (fun _ => .refl s) fun _ => dropConsole_orderly ..
  · exact .refl s

theorem changedStations_rising {t : List (Nat × Station)} (h : risingKeys t = true) (i : Nat) (new : Option Station) :
    risingKeys (changedStations i new t) = true := by
  cases new with
  | some st => exact risingKeys_insertAt h i st
  | none => exact risingKeys_removeAt h i

theorem joinController_orderly (old new : Option Station) (s : State) : Orderly s (joinController old new s) := by
  unfold joinController
  split
  · exact .ite (fun _ => .refl s) fun _ => controllers_orderly (risingKeys_insertAt · _ _)
  · exact .refl s

theorem joinConsole_orderly (old new : Option Station) (s : State) : Orderly s (joinConsole old new s) := by
  unfold joinConsole
  split
  · exact .ite (fun _ => .ite (fun _ => .refl s) fun _ => hornStep2_orderly ..) fun _ =>
      consoles_orderly (risingKeys_insertAt · _ _)
  · exact .refl s

theorem changeStation_orderly (i : Nat) (new : Option Station) (s : State) : Orderly s (changeStation i new s) := by
  rw [changeStation_eq]
  exact ((((leaveController_orderly _ new s).trans (leaveConsole_orderly ..)).trans
    (stations_orderly (changedStations_rising · i new))).trans (joinController_orderly ..)).trans
    (joinConsole_orderly ..)

theorem writeStation_orderly (req : Request) (i : Nat) (force : Bool) (items : List Item) (s : State) :
    Orderly s (writeStation req i force items s).s := by
  have hcounts (new : Station) (t : State) : Orderly t (clearGateCounts new items t) :=
    .ite (fun _ => modController_orderly ..) fun _ => .refl t
  unfold writeStation
  dsimp only
  split
  · exact .refl s
  · split
    · split
      · exact .refl s
      · dsimp only [written]
        exact changeStation_orderly ..
    · split
      · exact .refl s
      · split
        · exact .refl s
        · dsimp only [written]
          exact (changeStation_orderly ..).trans (hcounts ..)

theorem writeArea_orderly (req : Request) (a : Nat) (force : Bool) (items : List Item) (s : State) :
    Orderly s (writeArea req a force items s).s := by
  unfold writeArea
  dsimp only
  split
  · exact .refl s
  · dsimp only [written]
    exact (areaParams_orderly ..).trans (modArea_orderly ..)

theorem writePart_orderly (req : Request) (i : Nat) (force : Bool) (items : List Item) (s : State) :
    Orderly s (writePart req i force items s).s := by
  unfold writePart
  dsimp only
  split
  · exact .refl s
  · dsimp only [written]
    exact (params_orderly ..).trans (ports_orderly ..)

theorem selectOp_orderly : selectOp.Keeps Orderly :=
  ofLength_keeps .refl _ fun _ _ s => by
    split <;> exact .refl s

theorem readOp_orderly : readOp.Keeps Orderly :=
  ofLength_keeps .refl _ fun _ _ s => by
    split
    · exact .refl s
    · split
      · exact .refl s
      · exact .ite (fun _ => relatch_orderly s) fun _ => .refl s

theorem queryOp_orderly : queryOp.Keeps Orderly :=
  ofLength_keeps .refl _ fun _ _ s => by
    split <;> exact .refl s

theorem discardOp_orderly : discardOp.Keeps Orderly :=
  ofLength_keeps .refl _ fun _ _ s => by
    split
    · exact .refl s
    · split
      · exact .refl s
      · exact .handOn _ _ (discardPoint_orderly _ { s := s })

theorem abortOpen_orderly (a : Nat) (s : State) : Orderly s (abortOpen a s) := by
  unfold abortOpen
  split
  · exact abort_orderly ..
  · exact .refl s

theorem forceOp_orderly : forceOp.Keeps Orderly :=
  ofLength_keeps .refl _ fun _ _ s => by
    dsimp only
    split
    · exact .refl s
    · split
      · exact (abortOpen_orderly ..).trans (forceUnheld_orderly ..)
      · split
        · exact .refl s
        · split
          · exact (abortOpen_orderly ..).trans (takeArea_orderly ..)
          · exact .refl s

theorem clearHoldOp_orderly : clearHoldOp.Keeps Orderly :=
  ofLength_keeps .refl _ fun _ _ s => by
    split
    · exact .refl s
    · exact .ite (fun _ => clearFaultLatch_orderly ..) fun _ => .refl s

/-- The copy that a STORE takes is the tables themselves (R188). -/
theorem storeOp_orderly : storeOp.Keeps Orderly :=
  ofLength_keeps .refl _ fun _ _ s => by
    split
    · exact .refl s
    · have h : Orderly s { s with
          store := some { copy := s.tables, age := 0 }, memory := { s.memory with valid := false } } :=
        { configs := fun ⟨htables, hmemory, _⟩ => ⟨htables, hmemory, fun j hj => by cases hj; exact htables⟩ }
      exact h.trans (latch_orderly ..)

theorem clearRetainedOp_orderly : clearRetainedOp.Keeps Orderly :=
  ofLength_keeps .refl _ fun _ _ s => by
    split
    · exact .refl s
    · split
      · exact .refl s
      · exact retained_orderly rfl

theorem otherOp_orderly (code : Byte) : (otherOp code).Keeps Orderly := by
  intro req data s
  unfold otherOp
  dsimp only
  split
  · exact freeCount_orderly ..
  · split
    · split
      · exact .refl s
      · split <;> exact .refl s
    · exact .refl s

theorem MgmtRow.op_orderly (code : Byte) (row : MgmtRow) : (row.op code).Keeps Orderly := by
  cases row with
  | select => exact selectOp_orderly
  | read => exact readOp_orderly
  | writePoints => exact writeOp_keeps .refl writePoint_orderly
  | writeRoster => exact writeOp_keeps .refl writeOperator_orderly
  | writeStations => exact writeOp_keeps .refl writeStation_orderly
  | writeAreas => exact writeOp_keeps .refl writeArea_orderly
  | writeParams => exact writeOp_keeps .refl writePart_orderly
  | query => exact queryOp_orderly
  | discard => exact discardOp_orderly
  | force => exact forceOp_orderly
  | clearHold => exact clearHoldOp_orderly
  | store => exact storeOp_orderly
  | reset => exact ofLength_keeps .refl _ fun _ _ s => resetWaits_orderly s true
  | clearRetained => exact clearRetainedOp_orderly
  | readStatus => exact ofLength_keeps .refl _ fun _ _ s => relatch_orderly s
  | other => exact otherOp_orderly code

/-! ## The records of an MREQ in order -/

theorem takeHead_orderly {op : Operation} (h : op.Keeps Orderly) (s : State) : Orderly s (takeHead op s) :=
  takeHead_keeps .refl (fun _ _ _ h => h.trans (request_orderly ..)) h

theorem sendMrep_orderly (r : Request) (s : State) : Orderly s (sendMrep r s) := sendEntry_orderly ..

theorem closeRequest_orderly (s : State) : Orderly s (closeRequest s) := by
  unfold closeRequest
  split
  · exact .refl s
  · exact .ite (fun _ => (request_orderly ..).trans (heldMreps_orderly ..)) fun _ =>
      (request_orderly ..).trans (sendMrep_orderly ..)

theorem answerUnowned_orderly (n : Nat) (s : State) : Orderly s (answerUnowned n s) := by
  induction n generalizing s with
  | zero => exact .refl s
  | succ n ih => exact .ite (fun _ => (takeHead_orderly (otherOp_orderly _) s).trans (ih _)) fun _ => .refl s

theorem advance_orderly (s : State) : Orderly s (advance s) := by
  have h := answerUnowned_orderly 16 s
  unfold advance
  dsimp only
  split
  · exact .ite (fun _ => h.trans (closeRequest_orderly _)) fun _ => h
  · exact h

theorem takeRecord_orderly (row : MgmtRow) {op : Operation} (h : op.Keeps Orderly) (s : State) :
    Orderly s (takeRecord row op s) := by
  unfold takeRecord
  split
  · split
    · exact .ite (fun _ => (takeHead_orderly h s).trans (advance_orderly _)) fun _ => .refl s
    · exact .refl s
  · exact .refl s

/-- A record of an open MREQ is taken by its row. -/
theorem takeRow_orderly (row : MgmtRow) (s : State) (code : Byte := 0) : Orderly s (takeRecord row (row.op code) s) :=
  takeRecord_orderly row (MgmtRow.op_orderly code row) s

theorem openRequest_orderly (f : Frame) (s : State) : Orderly s (openRequest f s) :=
  .ite (fun _ => (request_orderly ..).trans (advance_orderly _)) fun _ => sendMrep_orderly ..

theorem headOp_orderly (s : State) : (headOp s).Keeps Orderly := by
  unfold headOp
  split
  · split
    · exact MgmtRow.op_orderly _ _
    · exact otherOp_orderly _
  · exact otherOp_orderly _

theorem finishOpen_orderly (n : Nat) (s : State) : Orderly s (finishOpen n s) := by
  induction n generalizing s with
  | zero => exact closeRequest_orderly s
  | succ n ih =>
    unfold finishOpen
    split
    · exact .ite (fun _ => closeRequest_orderly s) fun _ => (takeHead_orderly (headOp_orderly s) s).trans (ih _)
    · exact .refl s

/-! ## Start-up -/

theorem formedAreas_rising (t : Tables) (r : Retained) : risingKeys (formedAreas t r) = true :=
  List.foldlRecOn (motive := fun l : List (Nat × Area) => risingKeys l = true) _ _ rfl
    fun _ h _ _ => risingKeys_writeAt h ..

theorem freshRecords_rising {α : Type} (q : Station → Bool) (new : α) (t : List (Nat × Station)) :
    risingKeys (freshRecords q new t) = true :=
  List.foldlRecOn (motive := fun l : List (Nat × α) => risingKeys l = true) _ _ rfl
    fun _ h _ _ => risingKeys_insertAt h ..

theorem loadedTables_rising {m : ConfigMemory} (h : m.copy.KeysRise) : (loadedTables m).KeysRise := by
  unfold loadedTables
  split
  · exact h
  · exact ⟨rfl, rfl, rfl, rfl⟩

/-- A start-up forms every table anew, and takes the tables from the configuration memory's copy or the defaults. -/
theorem blocksReset_orderly {s : State} {r : Retained} (u v : Bool)
    (hr : risingKeys s.retained.areas = true → risingKeys r.areas = true) : Orderly s (blocksReset r u v s) where
  configs := fun ⟨_, hmemory, _⟩ => ⟨loadedTables_rising hmemory, hmemory, nofun⟩
  dyn _ := rfl
  slots _ := rfl
  areas _ := formedAreas_rising ..
  consoles _ := freshRecords_rising ..
  controllers _ := freshRecords_rising ..
  retained := hr
  records _ := ⟨.nil, nofun⟩
  commands _ := .nil
  points _ := .nil
  shelf _ _ := ⟨.nil, nofun⟩

theorem abortSummaries_orderly (s : State) : Orderly s (abortSummaries s) :=
  (Orderly.foldl (fun s _ => writeJournal_orderly s _) _ s).trans (retained_orderly rfl)

theorem latchAtStart_orderly (s : State) : Orderly s (latchAtStart s) := by
  have h (s : State) (f : StatusFlag) : Orderly s (if s.condition f then s.latch f else s) :=
    .ite (fun _ => latch_orderly ..) fun _ => .refl s
  exact (h s .configInvalid).trans (h _ .retainedLost)

theorem startUp_orderly (cause : ResetCause) {kept : Retained} (u v : Bool) {s : State}
    (hk : risingKeys s.retained.areas = true → risingKeys kept.areas = true) :
    Orderly s (startUp cause kept u v s) :=
  ((blocksReset_orderly (r := { kept with cause := cause, count := countUp kept.count }) u v hk).trans
    (abortSummaries_orderly _)).trans (latchAtStart_orderly _)

theorem systemReset_orderly (cause : ResetCause) (s : State) : Orderly s (systemReset cause s) :=
  startUp_orderly cause _ _ id

theorem settle_orderly (s : State) : Orderly s (settle s) :=
  (finishOpen_orderly 16 s).trans (.ite (fun _ => systemReset_orderly ..) fun _ => .refl _)

theorem enter_orderly (s : State) : Orderly s (enter s) := (settle_orderly s).trans (beginEvent_orderly _)

/-! ## Arrival and intake -/

theorem timeWork_orderly (s : State) : Orderly s (timeWork s) := by
  have hlatch (s : State) (f : StatusFlag) (p : Prop) [Decidable p] : Orderly s (if p then s.latch f else s) :=
    .ite (fun _ => latch_orderly ..) fun _ => .refl s
  have h := (time_orderly s s.time.tick.1).trans (hlatch _ .timeStep (s.time.tick.2 = true))
  exact .ite (fun _ => h) fun _ => (h.trans (hlatch ..)).trans (notifyAll_orderly ..)

theorem arriveAt_orderly (ms : Nat) (s : State) : Orderly s (arriveAt ms s) := by
  refine Orderly.trans (.ite (fun _ => ?_) fun _ => .refl s) (time_orderly _ _)
  exact ((owed_orderly fun _ h => (List.mem_filter.1 h).1).trans (timeWork_orderly ..)).trans (beginEvent_orderly ..)

theorem arrive_orderly (ms : Nat) (s : State) : Orderly s (arriveAt ms (enter s)) :=
  (enter_orderly s).trans (arriveAt_orderly ..)

theorem receive_orderly (p : PortId) (ms : Nat) (f : Frame) {k : Bool → State → State} (hk : ∀ b t, Orderly t (k b t))
    (s : State) : Orderly s (receive p ms f k s) :=
  .ite (fun _ => .ite (fun _ => (((arrive_orderly ms s).trans (liveness_orderly ..)).trans (beginEvent_orderly _)).trans
    (hk ..)) fun _ => (arrive_orderly ms s).trans (countMalformed_orderly ..)) fun _ => .refl s

theorem fromConsole_orderly (ms : Nat) (kind : Byte) (f : Frame) {k : State → State} (hk : ∀ t, Orderly t (k t))
    (s : State) : Orderly s (fromConsole ms kind f k s) :=
  receive_orderly .console ms f (fun _ t =>
    .ite (fun _ => .ite (fun _ => hk t) fun _ => .refl t) fun _ => forwardFrom_orderly ..) s

theorem silentAttach_orderly (a : Nat) (s : State) : Orderly s (silentAttach a s) := modConsole_orderly ..

theorem intakeSeat_orderly (f : Frame) (view : View) {k : Console → State → State} (hk : ∀ c t, Orderly t (k c t))
    (s : State) : Orderly s (intakeSeat f view k s) := by
  unfold intakeSeat
  split
  · exact .refl s
  · exact .ite (fun _ => answer_orderly ..) fun _ => .ite (fun _ => answer_orderly ..) fun _ => hk ..

theorem intakeLogged_orderly (f : Frame) (view : View) {k : Requester → State → State}
    (hk : ∀ q t, Orderly t (k q t)) (s : State) : Orderly s (intakeLogged f view k s) := by
  refine intakeSeat_orderly f view (fun c t => ?_) s
  split
  · exact answer_orderly ..
  · exact .ite (fun _ => hk ..) fun _ => answer_orderly ..

theorem intakeCounted_orderly (f : Frame) (view : View) {k : Requester → State → State}
    (hk : ∀ q t, Orderly t (k q t)) (s : State) : Orderly s (intakeCounted f view k s) := by
  refine intakeLogged_orderly f view (fun q t => ?_) s
  dsimp only
  split
  · exact .refl t
  · exact .ite (fun _ => (modConsole_orderly ..).trans (hk ..)) fun _ =>
      (modConsole_orderly ..).trans (answer_orderly ..)

/-- A counted request of a console, of whatever kind. -/
theorem counted_orderly (ms : Nat) (kind : Byte) (f : Frame) (view : View) {k : Requester → State → State}
    (hk : ∀ q t, Orderly t (k q t)) (s : State) :
    Orderly s (fromConsole ms kind f (fun t => intakeCounted f view k (silentAttach f.source.toNat t)) s) :=
  fromConsole_orderly ms kind f (fun _ => (silentAttach_orderly ..).trans (intakeCounted_orderly f view hk _)) s

theorem hovr_orderly (ms : Nat) (code : Byte) (l : List Byte → Bool) (f : Frame)
    {k : List Byte → Requester → State → State} (hk : ∀ d q s, Orderly s (k d q s)) (s : State) :
    Orderly s (hovr ms code l f k s) := by
  refine counted_orderly ms _ f noView (fun q t => ?_) s
  unfold hovrStep
  split
  · exact .ite (fun _ => answer_orderly ..) fun _ => .ite (fun _ => answer_orderly ..) fun _ =>
      .ite (fun _ => answer_orderly ..) fun _ => hk ..
  · exact .ite (fun _ => answer_orderly ..) fun _ => answer_orderly ..

theorem pageArrives_orderly (ms : Nat) (f : Frame) (s : State) : Orderly s (pageArrives ms f s) :=
  fromConsole_orderly _ _ _ (fun _ => (silentAttach_orderly ..).trans
    (intakeLogged_orderly _ _ (fun _ _ => pageChecked_orderly ..) _)) s

/-! ## The ports, the links and the console's turn -/

theorem classify_orderly (p : PortId) (kind : Byte) (f : Frame) (s : State) : Orderly s (classify p kind f s) := by
  have h := forwardFrom_orderly s p ⟨kind, f⟩
  have h0 := Orderly.refl s
  exact .ite (fun _ => h) fun _ => .ite (fun _ => .ite (fun _ => h0) fun _ => h) fun _ => .ite (fun _ => h) fun _ => h0

theorem takeConfirmation_orderly (a tag : Nat) (r : Result) (detail : List Byte) (s : State) :
    Orderly s (takeConfirmation a tag r detail s) := by
  unfold takeConfirmation
  split
  · exact .ite (fun _ => (endCommand_orderly ..).trans (setFaultLatch_orderly ..)) fun _ => endCommand_orderly ..
  · exact modController_orderly ..

theorem placeNote_orderly (a : Nat) (s : State) : Orderly s (placeNote a s) := by
  unfold placeNote
  split
  · split
    · exact (modConsole_orderly ..).trans (send_orderly ..)
    · exact .refl s
  · exact .refl s

theorem serve_orderly (a : Nat) (s : State) : Orderly s (serve a s) := by
  unfold serve
  dsimp only
  split
  · exact (turn_orderly s a).trans (placePaged_orderly ..)
  · exact (turn_orderly s a).trans (placeNote_orderly ..)

theorem serveNext_orderly (q : Bool → Bool) (s : State) : Orderly s (serveNext q s) := by
  unfold serveNext
  split
  · exact .ite (fun _ => serve_orderly ..) fun _ => .refl s
  · exact .refl s

/-- A table whose entries change, each at its key. -/
theorem risingKeys_map {α : Type} {t : List (Nat × α)} (h : risingKeys t = true) (f : Nat × α → α) :
    risingKeys (t.map fun e => (e.1, f e)) = true := by
  rw [risingKeys_iff] at *
  exact List.pairwise_map.2 h

theorem plantLoss_orderly (s : State) : Orderly s (plantLoss s) := by
  have h (l : List Nat) : Orderly s (l.foldl (fun e a => staleEv a e) { s := s }).s :=
    Orderly.foldl_ev (fun e a => staleEv_orderly a e) l { s := s }
  exact (Orderly.handOn _ _ (h _)).trans (controllers_orderly (risingKeys_map · fun e =>
    if e.2.phase = .idle then e.2 else e.2.abandon))

theorem consoleLoss_orderly (s : State) : Orderly s (consoleLoss s) :=
  .foldl (fun s a => detachConsole_orderly .detach a s) _ s

/-! ## The tick -/

theorem releaseChatter_orderly (p : Nat) (s : State) : Orderly s (releaseChatter p s) := by
  have h := setDyn_orderly s p { s.dynOf p with held := false }
  unfold releaseChatter
  dsimp only
  generalize s.setDyn p { s.dynOf p with held := false } = t at h ⊢
  refine .handOn s [] ?_
  dsimp only
  exact .report _ (h.trans (clearChatter_orderly p { s := t }))

theorem chatterWork_orderly (p : Nat) (s : State) : Orderly s (chatterWork p s) :=
  .ite (fun _ => (setDyn_orderly ..).trans (releaseChatter_orderly ..)) fun _ => setDyn_orderly ..

/-- A shelf entry counts down, or its time is up (R69). -/
theorem shelfWork_orderly (p : Nat) (s : State) : Orderly s (shelfWork p s) := by
  unfold shelfWork
  split
  · exact .refl s
  · next e he =>
    refine .ite (fun _ => unshelveEvent_orderly ..) fun _ => ?_
    have hp : e.point = p := by simpa using List.find?_some he
    subst hp
    exact placeShelf_orderly (x := { e with ticks := e.ticks - 1 }) fun hs ho =>
      (Nat.sub_le ..).trans (hs.2 e (List.mem_of_find?_eq_some he) ho)

theorem leaveFlood_orderly (a : Nat) (s : State) : Orderly s (leaveFlood a s) := by
  have h : Orderly s _ := (modArea_orderly s a fun r => { r with flood := false }).trans
    (overlayEach_orderly (fun sl => (s.pointDef sl.point).area == a && sl.suppressed)
      (fun sl => { sl with suppressed := false }) { s := _ })
  unfold leaveFlood
  exact .handOn _ _ (h.trans (notifyArea_orderly ..))

theorem loadWork_orderly (a : Nat) (s : State) : Orderly s (loadWork a s) :=
  .ite (fun _ => (modArea_orderly ..).trans (leaveFlood_orderly ..)) fun _ => modArea_orderly ..

theorem controllerSilenceWork_orderly (a : Nat) (s : State) : Orderly s (controllerSilenceWork a s) := by
  unfold controllerSilenceWork
  split
  · exact .ite (fun _ => .refl s) fun _ => .ite (fun _ => becomeStale_orderly ..) fun _ => modController_orderly ..
  · exact .refl s

theorem resyncWaitWork_orderly (a : Nat) (s : State) : Orderly s (resyncWaitWork a s) := by
  unfold resyncWaitWork
  split
  · exact .ite (fun _ => .refl s) fun _ => .ite (fun _ => resyncExpired_orderly ..) fun _ => modController_orderly ..
  · exact .refl s

theorem consoleSilenceWork_orderly (a : Nat) (s : State) : Orderly s (consoleSilenceWork a s) := by
  unfold consoleSilenceWork
  split
  · exact .ite (fun _ => .refl s) fun _ => .ite (fun _ => detachConsole_orderly ..) fun _ => modConsole_orderly ..
  · exact .refl s

theorem graceWork_orderly (a : Nat) (s : State) : Orderly s (graceWork a s) :=
  .ite (fun _ => .ite (fun _ => (orphanArea_orderly ..).trans (writeJournal_orderly ..)) fun _ => modArea_orderly ..)
    fun _ => .refl s

theorem handoverWork_orderly (n : Nat) (s : State) : Orderly s (handoverWork n s) := by
  unfold handoverWork
  split
  · exact .refl s
  · next h hr =>
    have hset (l m : Nat) : Orderly s (s.setRecord { h with left := l, attendLeft := m }) :=
      setRecord_orderly_of_mem (mem_of_record hr) rfl
    exact .ite (fun _ => abort_orderly ..) fun _ => .ite (fun _ => .ite (fun _ => abort_orderly ..) fun _ => hset ..)
      fun _ => hset _ h.attendLeft

theorem confirmWork_orderly (tag : Nat) (s : State) : Orderly s (confirmWork tag s) := by
  unfold confirmWork
  split
  · exact .refl s
  · refine .ite (fun _ => endAtLimit_orderly ..) fun _ => tags_orderly fun h => ?_
    unfold TagsApart
    rw [List.map_map]
    have htag (c : Command) : (if c.tag == tag then { c with ticks := c.ticks - 1 } else c).tag = c.tag := by
      split <;> rfl
    exact (List.map_congr_left fun c _ => htag c).symm ▸ h

theorem tickWork_orderly (x : TickItem) (s : State) : Orderly s (tickWork x s) := by
  refine (beginEvent_orderly s).trans ?_
  cases x with
  | chatter p => exact chatterWork_orderly ..
  | shelf p => exact shelfWork_orderly ..
  | load a => exact loadWork_orderly ..
  | controllerSilence c => exact controllerSilenceWork_orderly ..
  | resyncWait c => exact resyncWaitWork_orderly ..
  | consoleSilence c => exact consoleSilenceWork_orderly ..
  | rateHold c | loginHold c => exact modConsole_orderly ..
  | grace a => exact graceWork_orderly ..
  | handover n => exact handoverWork_orderly ..
  | confirm t => exact confirmWork_orderly ..
  | time => exact timeWork_orderly _

theorem completeFirst_orderly (n : Nat) (s : State) : Orderly s (completeFirst n s) := by
  induction n generalizing s with
  | zero => exact .refl s
  | succ n ih =>
    unfold completeFirst
    split
    · exact .refl s
    · next x rest ho =>
      have hdrop : Orderly s { s with owed := rest } := owed_orderly fun y hy => ho ▸ List.mem_cons_of_mem x hy
      exact (hdrop.trans (tickWork_orderly ..)).trans (ih _)

/-- Work is left owed where it expires, so the entry of a shelved point then has one tick at most. -/
theorem owe_orderly {x : TickItem} {s : State} (h : expires x s = true) :
    Orderly s { s with owed := s.owed ++ [x] } where
  shelf hp hs := by
    refine ⟨hs.1, fun e he ho => ?_⟩
    rcases List.mem_append.1 ho with ho | ho
    · exact hs.2 e he ho
    · obtain rfl : TickItem.shelf e.point = x := List.mem_singleton.1 ho
      obtain ⟨g, hg, hticks⟩ := (Option.any_eq_true ..).1 h
      have hgp : g.point = e.point := by simpa using List.find?_some hg
      obtain rfl : g = e := List.inj_on_of_nodup_map hp (List.mem_of_find?_eq_some hg) he hgp
      simpa using hticks

theorem tickOne_orderly (s : State) (x : TickItem) : Orderly s (tickOne s x) :=
  .ite owe_orderly fun _ => tickWork_orderly ..

theorem takeOwed_orderly (x : TickItem) (s : State) : Orderly s (takeOwed x s) :=
  .ite (fun _ => (dropOwed_orderly ..).trans (tickWork_orderly ..)) fun _ => .refl s

theorem sendLive_orderly (p : PortId) (s : State) : Orderly s (sendLive p s) :=
  .ite (fun _ => send_orderly ..) fun _ => .refl s

theorem tickStart_orderly (s : State) : Orderly s (tickStart s) := by
  have h : Orderly s
      { s with
        time := { s.time with elapsed := 0 }
        consoles := s.consoles.map fun e => (e.1, { e.2 with requests := 0 })
        store := s.store.map fun j => { j with age := j.age + 1 } } :=
    { configs := fun ⟨htables, hmemory, hstore⟩ => ⟨htables, hmemory, fun j hj => by
        obtain ⟨i, hi, rfl⟩ := Option.map_eq_some_iff.1 hj
        exact hstore i hi⟩
      consoles := (risingKeys_map · fun e => { e.2 with requests := 0 }) }
  exact (h.trans (sendLive_orderly ..)).trans (sendLive_orderly ..)

/-- A STORE that succeeds leaves the copy it took in the configuration memory. -/
theorem completeStore_orderly (good : Bool) (s : State) : Orderly s (completeStore good s) := by
  unfold completeStore
  split
  · exact .refl s
  · next j hj =>
    have hend : Orderly s { s with store := none } :=
      { configs := fun ⟨htables, hmemory, _⟩ => ⟨htables, hmemory, nofun⟩ }
    have hgood : Orderly s { s with store := none, memory := { copy := j.copy, valid := true } } :=
      { configs := fun ⟨htables, _, hstore⟩ => ⟨htables, hstore j hj, nofun⟩ }
    refine Orderly.trans (Orderly.trans ?_ (heldMreps_orderly _ [])) (.foldl (fun s r => sendMrep_orderly r s) _ _)
    exact .ite (fun _ => hgood) fun _ => hend.trans (latch_orderly ..)

theorem overdueStore_orderly (s : State) : Orderly s (overdueStore s) :=
  .ite (fun _ => (freeCount_orderly ..).trans (completeStore_orderly ..)) fun _ => .refl s

/-! ## One command -/

theorem Orderly.of_next {s t u : State} (h : (Host.Outcome.next u : Out) = .next t) (ho : Orderly s u) :
    Orderly s t := by
  cases h
  exact ho

theorem execLinkDown_orderly {ms : Nat} {p : PortId} {s u : State} (h : execLinkDown ms p s = .next u) :
    Orderly s u := by
  refine .of_next h (.ite (fun _ => ?_) fun _ => .refl s)
  have h1 := (arrive_orderly ms s).trans (modPort_orderly _ p Port.goDown)
  have h2 := h1.trans (.ite (p := ((arriveAt ms (enter s)).port p).ownLost > 0)
    (fun _ => latch_orderly _ .egressDrop) fun _ => .refl _)
  cases p with
  | plant => exact h2.trans (plantLoss_orderly _)
  | console => exact h2.trans (consoleLoss_orderly _)

theorem execTick_orderly {s t : State} (h : execTick s = .next t) : Orderly s t :=
  .of_next h ((((((enter_orderly s).trans (completeFirst_orderly ..)).trans (beginEvent_orderly _)).trans
    (overdueStore_orderly _)).trans ((beginEvent_orderly _).trans (tickStart_orderly _))).trans
    (.foldl tickOne_orderly _ _))

/-- Every command keeps the canonical form. -/
theorem exec_orderly {c : Instr} {s t : State} (h : exec c s = .next t) : Orderly s t := by
  have henter := enter_orderly s
  have howed (x : TickItem) : Orderly s (takeOwed x (enter s)) := henter.trans (takeOwed_orderly ..)
  cases c with
  | powerOn k u v =>
    refine .of_next h ((settle_orderly s).trans (startUp_orderly _ _ _ fun hr => ?_))
    unfold checkedRetained
    split
    · exact hr
    · rfl
  | resetLine => exact .of_next h ((settle_orderly s).trans (systemReset_orderly ..))
  | systemCommandReset => exact .of_next h (settle_orderly s)
  | linkDown ms p => exact execLinkDown_orderly h
  | linkUp p => exact .of_next h (henter.trans (modPort_orderly ..))
  | malformedTelegram ms p b =>
    have ht := arrive_orderly ms s
    exact .of_next h (.ite (fun _ => .ite (fun _ => ht.trans (countMalformed_orderly ..)) fun _ => ht) fun _ => .refl s)
  | passThrough ms p k f | discardedTelegram ms p k f =>
    exact .of_next h (receive_orderly _ _ _ (fun _ _ => classify_orderly ..) s)
  | live ms p f => exact .of_next h (receive_orderly _ _ _ (fun _ t => .refl t) s)
  | tmark ms f =>
    refine .of_next h (receive_orderly _ _ _ (fun _ t => .ite (fun _ => ?_) fun _ => .refl t) s)
    split
    · exact time_orderly ..
    · exact .refl t
  | prep ms f =>
    exact .of_next h (receive_orderly _ _ _ (fun _ t => .ite (fun _ => applyPrep_orderly ..) fun _ => .refl t) s)
  | psnap ms f =>
    refine .of_next h (receive_orderly _ _ _ (fun _ t => ?_) s)
    split
    · exact .ite (fun _ => (modController_orderly ..).trans (applyPsnap_orderly ..)) fun _ => .refl t
    · exact .refl t
  | cconf ms f =>
    refine .of_next h (receive_orderly _ _ _ (fun _ t => .ite (fun _ => ?_) fun _ => .refl t) s)
    split
    · exact takeConfirmation_orderly ..
    · exact .refl t
  | hello ms f => exact .of_next h (fromConsole_orderly _ _ _ (fun _ => takeHello_orderly ..) s)
  | login ms f =>
    exact .of_next h (fromConsole_orderly _ _ _ (fun _ => (silentAttach_orderly ..).trans
      (intakeSeat_orderly _ _ (fun _ _ => takeLogin_orderly ..) _)) s)
  | logout ms f =>
    exact .of_next h
      (fromConsole_orderly _ _ _ (fun _ => intakeLogged_orderly _ _ (fun _ _ => takeLogout_orderly ..) _) s)
  | ack ms f => exact .of_next h (counted_orderly _ _ _ _ (takeAck_orderly f) s)
  | groupAck ms f => exact .of_next h (counted_orderly _ _ _ _ (takeGroupAck_orderly f) s)
  | shelve ms f => exact .of_next h (counted_orderly _ _ _ _ (takeShelve_orderly f) s)
  | unshelve ms f => exact .of_next h (counted_orderly _ _ _ _ (takeUnshelve_orderly f) s)
  | silence ms f => exact .of_next h (counted_orderly _ _ _ _ (takeSilence_orderly f) s)
  | claim ms f => exact .of_next h (counted_orderly _ _ _ _ (takeClaim_orderly f) s)
  | clearHold ms f => exact .of_next h (counted_orderly _ _ _ _ (takeClearHold_orderly f) s)
  | opcmd ms f => exact .of_next h (counted_orderly _ _ _ _ (takeOpcmd_orderly f) s)
  | page ms f | pageAll ms f => exact .of_next h (pageArrives_orderly ms f s)
  | transferPaged | noticeDequeue => exact .of_next h (henter.trans (serveNext_orderly ..))
  | offer ms f => exact .of_next h (hovr_orderly _ _ _ _ (takeOffer_orderly f) s)
  | attend ms f => exact .of_next h (hovr_orderly _ _ _ _ (partyStep_orderly f _ _ (takeAttend_orderly f)) s)
  | reviewed ms f => exact .of_next h (hovr_orderly _ _ _ _ (partyStep_orderly f _ _ (takeReviewed_orderly f)) s)
  | accept ms f =>
    exact .of_next h (hovr_orderly _ _ _ _ (partyStep_orderly f _ _ fun r d q t _ => takeAccept_orderly f r d q t) s)
  | decline ms f | withdraw ms f =>
    exact .of_next h (hovr_orderly _ _ _ _ (partyStep_orderly f _ _ fun r d q t _ => endRecord_orderly _ f r d q t) s)
  | mreqCredential ms f =>
    exact .of_next h (receive_orderly _ _ _ (fun _ _ =>
      .ite (fun _ => openRequest_orderly ..) fun _ => forwardFrom_orderly ..) s)
  | mreqSelect => exact .of_next h (takeRow_orderly .select s)
  | mreqRead => exact .of_next h (takeRow_orderly .read s)
  | writePoints => exact .of_next h (takeRow_orderly .writePoints s)
  | writeRoster => exact .of_next h (takeRow_orderly .writeRoster s)
  | writeStations => exact .of_next h (takeRow_orderly .writeStations s)
  | writeAreas => exact .of_next h (takeRow_orderly .writeAreas s)
  | writeParams => exact .of_next h (takeRow_orderly .writeParams s)
  | querySlot => exact .of_next h (takeRow_orderly .query s)
  | discardSlot => exact .of_next h (takeRow_orderly .discard s)
  | forceArea => exact .of_next h (takeRow_orderly .force s)
  | mgmtClearHold => exact .of_next h (takeRow_orderly .clearHold s)
  | store => exact .of_next h (takeRow_orderly .store s)
  | reset => exact .of_next h (takeRow_orderly .reset s)
  | clearRetained => exact .of_next h (takeRow_orderly .clearRetained s)
  | readStatus => exact .of_next h (takeRow_orderly .readStatus s)
  | storeCompletion good => exact .of_next h (henter.trans (completeStore_orderly ..))
  | tick => exact execTick_orderly h
  | floodExit | chatterRelease | controllerSilenceExpiry | resyncWaitExpiry | consoleSilenceExpiry | rateHoldEnd
  | loginHoldEnd | graceExpiry | masterSilenceExpiry => exact .of_next h (howed _)
  | notAttended n | handoverExpired n => exact .of_next h (.ite (fun _ => howed _) fun _ => henter)
  | shelfExpired | confirmLimitExpiry =>
    refine .of_next h ?_
    split
    · exact howed _
    · exact henter
  | transmitEnd p =>
    have ht (s : State) : Orderly s (s.modPort p Port.endTransmission) := modPort_orderly ..
    exact .of_next h (henter.trans (.ite (fun _ => .ite (fun _ => (ht _).trans (serveNext_orderly ..)) fun _ => ht _)
      fun _ => .refl _))

/-- A step is a command on the state with the queue's rest, or nothing. -/
theorem step_orderly {s t : State} (h : step s = .next t) : Orderly s t := by
  unfold step at h
  split at h
  · cases h
    exact .refl s
  · exact (pending_orderly s _).trans (exec_orderly h)

/-- Settles O6: every part of a step keeps each piece of the canonical form, with numbers and tags drawn from the free
ones, and the shelf list in order, where work is owed for entries about to expire alone. -/
theorem stepKeepsCanonicalForm : Obligations.StepKeepsCanonicalForm := by
  refine ⟨fun s t hk hn h => ?_, fun s t hn hs h => ?_⟩
  · exact ⟨(step_orderly h).keysRise hk, (step_orderly h).numbersApart hn⟩
  · obtain ⟨-, -, -, hpoints⟩ := hn
    exact (step_orderly h).shelf hpoints hs

end Sys2Proof.Machine

/-! PROOFS. The standing list's order (R71). -/

namespace Sys2Proof.Machine

-- The proofs are elaborated one after another: side by side each would hold a thread and its stack.
set_option Elab.async false

/-! ## Insertion by a key -/

theorem insertBefore_perm {α : Type} (before : α → α → Bool) (x : α) (l : List α) :
    (insertBefore before x l).Perm (x :: l) := by
  induction l with
  | nil => exact .refl _
  | cons y t ih =>
    unfold insertBefore
    split
    · exact .refl _
    · exact (ih.cons y).trans (.swap x y t)

theorem insertBefore_sorted {α κ : Type} [LinearOrder κ] {before : α → α → Bool} {key : α → κ}
    (hb : ∀ a b, before a b = true ↔ key a < key b) (x : α) {l : List α}
    (h : l.Pairwise fun a b => key a ≤ key b) : (insertBefore before x l).Pairwise fun a b => key a ≤ key b := by
  induction l with
  | nil => simp [insertBefore]
  | cons y t ih =>
    obtain ⟨hy, ht⟩ := List.pairwise_cons.mp h
    unfold insertBefore
    split
    next hxy =>
      have hxy' : key x ≤ key y := ((hb x y).mp hxy).le
      exact List.pairwise_cons.mpr ⟨List.forall_mem_cons.mpr ⟨hxy', fun z hz => hxy'.trans (hy z hz)⟩, h⟩
    next hxy =>
      have hyx : key y ≤ key x := not_lt.mp fun hlt => hxy ((hb x y).mpr hlt)
      refine List.pairwise_cons.mpr ⟨fun z hz => ?_, ih ht⟩
      obtain rfl | hz := List.mem_cons.mp ((insertBefore_perm before x t).mem_iff.mp hz)
      · exact hyx
      · exact hy z hz

theorem foldl_insertBefore_perm {α : Type} (before : α → α → Bool) (l acc : List α) :
    (l.foldl (fun acc x => insertBefore before x acc) acc).Perm (acc ++ l) := by
  induction l generalizing acc with
  | nil => simp
  | cons x l ih =>
    exact (ih _).trans (((insertBefore_perm before x acc).append_right l).trans List.perm_middle.symm)

/-! ## The five keys of R71 -/

/-- The order of R9 as a key: UNSYNC first, then seconds, then milliseconds. -/
def Stamp.key (a : Stamp) : Bool ×ₗ ℕ ×ₗ ℕ := toLex (!a.unsync, toLex (a.sec, a.ms))

theorem Stamp.older_iff_key (a b : Stamp) : a.older b = true ↔ a.key < b.key := by
  simp [Stamp.older_iff, Stamp.key, Prod.Lex.toLex_lt_toLex, Bool.lt_iff]

theorem Stamp.key_inj {a b : Stamp} : a.key = b.key ↔ a = b := by
  obtain ⟨ua, sa, ma⟩ := a
  obtain ⟨ub, sb, mb⟩ := b
  simp [Stamp.key]

/-- The five keys by which the slots of a standing list stand, in one lexicographic order. -/
def slotKey (s : State) (x : Slot) : Bool ×ₗ ℕ ×ₗ Bool ×ₗ (Bool ×ₗ ℕ ×ₗ ℕ) ×ₗ ℕ :=
  toLex (x.shelved, toLex ((s.pointDef x.point).priority.rank, toLex (!x.unacked, toLex (x.onset.key, x.point))))

/-- Key by key: where two slots differ the key decides, and else the next one. -/
theorem slotBefore_iff (s : State) (a b : Slot) : slotBefore s a b = true ↔ slotKey s a < slotKey s b := by
  simp only [slotBefore, slotKey, Prod.Lex.toLex_lt_toLex, Stamp.older_iff_key, Bool.lt_iff]
  by_cases hsh : a.shelved = b.shelved
  · by_cases hpr : (s.pointDef a.point).priority.rank = (s.pointDef b.point).priority.rank
    · by_cases hun : a.unacked = b.unacked
      · obtain hon | hon | hon := lt_trichotomy a.onset.key b.onset.key
        · simp [hsh, hpr, hun, hon]
        · simp [hsh, hpr, hun, hon]
        · simp [hsh, hpr, hun, hon, hon.ne', hon.not_gt]
      · cases ha : a.unacked <;> cases hb : b.unacked <;> simp_all
    · simp [hsh, hpr]
  · cases ha : a.shelved <;> cases hb : b.shelved <;> simp_all

theorem standingList_slots_sorted (s : State) (a : Nat) :
    ∃ l : List Slot, standingList s a
        = l.map .slot ++ (s.queue.filter fun q => (s.pointDef q.point).area == a).map .queued
      ∧ l.Perm ((s.slots.map Prod.snd).filter fun sl => (s.pointDef sl.point).area == a)
      ∧ l.Pairwise fun x y => slotKey s x ≤ slotKey s y :=
  ⟨_, rfl, foldl_insertBefore_perm _ _ _,
    List.foldlRecOn (motive := fun acc : List Slot => acc.Pairwise fun x y => slotKey s x ≤ slotKey s y) _ _ .nil
      fun _ ih x _ => insertBefore_sorted (slotBefore_iff s) x ih⟩

/-- Settles O40: the slots are sorted by insertion under one lexicographic key, and the statement reads the key's order
component by component. -/
theorem standingListIsOrdered : Obligations.StandingListIsOrdered := by
  unfold Obligations.StandingListIsOrdered
  intro s a
  obtain ⟨l, hl, hperm, hsorted⟩ := standingList_slots_sorted s a
  refine ⟨l, hl, hperm, hsorted.imp fun {x y} h => ?_⟩
  simp only [slotKey, Prod.Lex.toLex_le_toLex, Bool.lt_iff] at h
  refine ⟨fun hx => ?_, fun hsh => ?_⟩
  · obtain ⟨hx', -⟩ | ⟨hsh, -⟩ := h
    · simp [hx] at hx'
    · exact hsh ▸ hx
  replace h := h.resolve_left fun ⟨hx, hy⟩ => by simp [hsh, hy] at hx
  refine ⟨h.2.elim le_of_lt fun h => h.1.le, fun hpr => ?_⟩
  replace h := (h.2.resolve_left fun hlt => by simp [hpr] at hlt).2
  refine ⟨fun hy => ?_, fun hun => ?_⟩
  · obtain ⟨hx, -⟩ | ⟨hun, -⟩ := h
    · simpa using hx
    · exact (Bool.not_inj hun).trans hy
  replace h := (h.resolve_left fun ⟨hx, hy⟩ => by simp [hun, hy] at hx).2
  rw [Bool.eq_false_iff, Ne, Stamp.older_iff_key, not_lt]
  refine ⟨h.elim le_of_lt fun h => h.1.le, fun hon => ?_⟩
  exact (h.resolve_left fun hlt => by simp [hon] at hlt).2

end Sys2Proof.Machine

/-! PROOFS. The review list of an OFFER (R125, R126). -/

namespace Sys2Proof.Machine

-- The proofs are elaborated one after another: side by side each would hold a thread and its stack.
set_option Elab.async false

/-! ## Keeping the first entry of each point -/

/-- One step of `buildReview`: an entry joins the list unless its point stands in it. -/
def keepEntry (acc : List ReviewEntry) (e : ReviewEntry) : List ReviewEntry :=
  if acc.any fun x => x.point == e.point then acc else acc ++ [e]

theorem buildReview_eq (s : State) (k : HandoverKind) (areas : List Nat) :
    buildReview s k areas = (areas.flatMap (reviewOfArea s k)).foldl keepEntry [] := rfl

theorem keepEntry_of_mem {acc : List ReviewEntry} {e : ReviewEntry} (h : e.point ∈ acc.map ReviewEntry.point) :
    keepEntry acc e = acc := if_pos (by simpa using h)

theorem keepEntry_of_not_mem {acc : List ReviewEntry} {e : ReviewEntry} (h : e.point ∉ acc.map ReviewEntry.point) :
    keepEntry acc e = acc ++ [e] := if_neg (by simpa using h)

theorem mem_of_mem_keepFirst {l : List ReviewEntry} {x : ReviewEntry} (hx : x ∈ l.foldl keepEntry []) : x ∈ l := by
  induction l using List.reverseRecOn with
  | nil => exact hx
  | append_singleton l e ih =>
    rw [List.foldl_concat] at hx
    by_cases h : e.point ∈ (l.foldl keepEntry []).map ReviewEntry.point
    · rw [keepEntry_of_mem h] at hx
      exact List.mem_append_left _ (ih hx)
    · rw [keepEntry_of_not_mem h] at hx
      exact List.mem_append.mpr ((List.mem_append.mp hx).imp_left ih)

theorem keepFirst_nodup (l : List ReviewEntry) : ((l.foldl keepEntry []).map ReviewEntry.point).Nodup := by
  induction l using List.reverseRecOn with
  | nil => exact List.nodup_nil
  | append_singleton l e ih =>
    rw [List.foldl_concat]
    by_cases h : e.point ∈ (l.foldl keepEntry []).map ReviewEntry.point
    · rwa [keepEntry_of_mem h]
    · rw [keepEntry_of_not_mem h, List.map_append]
      exact ih.append (List.nodup_singleton _) (by simpa using h)

theorem mem_keepFirst_points (l : List ReviewEntry) (p : Nat) :
    p ∈ (l.foldl keepEntry []).map ReviewEntry.point ↔ p ∈ l.map ReviewEntry.point := by
  induction l using List.reverseRecOn with
  | nil => rfl
  | append_singleton l e ih =>
    rw [List.foldl_concat]
    by_cases h : e.point ∈ (l.foldl keepEntry []).map ReviewEntry.point
    · have he : e.point ∈ l.map ReviewEntry.point := List.map_subset _ (fun _ => mem_of_mem_keepFirst) h
      rw [keepEntry_of_mem h, ih, List.map_append, List.mem_append, or_iff_left_of_imp]
      intro hp
      rwa [List.mem_singleton.mp hp]
    · rw [keepEntry_of_not_mem h, List.map_append, List.map_append, List.mem_append, List.mem_append, ih]

/-- The kept entries stand by the first places of their points. -/
theorem keepFirst_pairwise_idxOf (l : List ReviewEntry) : (l.foldl keepEntry []).Pairwise fun x y =>
    (l.map ReviewEntry.point).idxOf x.point < (l.map ReviewEntry.point).idxOf y.point := by
  induction l using List.reverseRecOn with
  | nil => exact .nil
  | append_singleton l e ih =>
    have hmem {x : ReviewEntry} (hx : x ∈ l.foldl keepEntry []) : x.point ∈ l.map ReviewEntry.point :=
      List.mem_map_of_mem (mem_of_mem_keepFirst hx)
    have hold : (l.foldl keepEntry []).Pairwise fun x y =>
        ((l ++ [e]).map ReviewEntry.point).idxOf x.point < ((l ++ [e]).map ReviewEntry.point).idxOf y.point := by
      refine ih.imp_of_mem fun {x y} hx hy h => ?_
      rwa [List.map_append, List.idxOf_append_of_mem (hmem hx), List.idxOf_append_of_mem (hmem hy)]
    rw [List.foldl_concat]
    by_cases h : e.point ∈ (l.foldl keepEntry []).map ReviewEntry.point
    · rwa [keepEntry_of_mem h]
    · rw [keepEntry_of_not_mem h]
      refine List.pairwise_append.mpr ⟨hold, List.pairwise_singleton _ _, fun x hx y hy => ?_⟩
      obtain rfl := List.mem_singleton.mp hy
      rw [mem_keepFirst_points] at h
      rw [List.map_append, List.idxOf_append_of_mem (hmem hx), List.idxOf_append_of_notMem h]
      exact Nat.lt_add_right _ (List.idxOf_lt_length_of_mem (hmem hx))

/-! ## The candidates of an area -/

/-- The points of the candidates of one area, in order. -/
def reviewPoints (s : State) (k : HandoverKind) (a : Nat) : List Nat :=
  ((standingList s a).filter (reviewTakes s k a)).map Standing.point
    ++ (s.shelf.filter fun x => (s.pointDef x.point).area == a && (s.slotOf x.point).isNone && !s.queued x.point
          && (k != .giveBack || x.relief)).map ShelfEntry.point

theorem map_point_reviewOfArea (s : State) (k : HandoverKind) (a : Nat) :
    (reviewOfArea s k a).map ReviewEntry.point = reviewPoints s k a := by
  simp [reviewOfArea, reviewPoints, Function.comp_def]

theorem map_point_candidates (s : State) (k : HandoverKind) (areas : List Nat) :
    (areas.flatMap (reviewOfArea s k)).map ReviewEntry.point = areas.flatMap (reviewPoints s k) := by
  simp only [List.map_flatMap, map_point_reviewOfArea]

theorem sinceRelief_eq (s : State) (a : Nat) (t : Stamp) :
    sinceRelief s a t = (s.area a).relief.head?.any fun c => !t.older c.start := by
  unfold sinceRelief
  cases (s.area a).relief <;> rfl

theorem mem_standingList {s : State} {a : Nat} {e : Standing} : e ∈ standingList s a ↔
    (∃ i sl, (i, sl) ∈ s.slots ∧ (s.pointDef sl.point).area = a ∧ e = .slot sl)
      ∨ ∃ q ∈ s.queue, (s.pointDef q.point).area = a ∧ e = .queued q := by
  obtain ⟨l, hl, hperm, -⟩ := standingList_slots_sorted s a
  rw [hl, List.mem_append]
  refine or_congr ?_ ?_
  · simp only [List.mem_map, hperm.mem_iff, List.mem_filter, beq_iff_eq]
    grind
  · simp only [List.mem_map, List.mem_filter, beq_iff_eq]
    grind

theorem slotOf_of_queued {s : State} (h : s.AlarmTableSound) {q : QEntry} (hq : q ∈ s.queue) :
    s.slotOf q.point = none := by
  obtain ⟨-, -, hnodup, -⟩ := h
  refine Option.eq_none_iff_forall_ne_some.mpr fun ⟨i, sl⟩ hs => ?_
  obtain ⟨hm, hp⟩ := mem_of_slotOf hs
  exact (List.disjoint_of_nodup_append hnodup) (List.mem_map.mpr ⟨_, hm, hp⟩) (List.mem_map_of_mem hq)

/-- A slot is shown under its occurrence, a queue entry under 0. -/
theorem occ_of_mem_standingList {s : State} (h : s.AlarmTableSound) {a : Nat} {e : Standing}
    (he : e ∈ standingList s a) : e.occ = match s.slotOf e.point with | some (_, sl) => sl.occ | none => 0 := by
  obtain ⟨i, sl, hm, -, rfl⟩ | ⟨q, hq, -, rfl⟩ := mem_standingList.mp he
  · rw [Standing.point, slotOf_of_mem h hm]
    rfl
  · rw [Standing.point, slotOf_of_queued h hq]
    rfl

theorem mem_reviewOfArea {s : State} {k : HandoverKind} {a : Nat} {e : ReviewEntry} : e ∈ reviewOfArea s k a ↔
    (∃ x ∈ standingList s a, reviewTakes s k a x = true
        ∧ e = ⟨x.point, x.occ, (s.pointDef x.point).priority, .unreviewed⟩)
      ∨ ∃ x ∈ s.shelf, (s.pointDef x.point).area = a ∧ s.slotOf x.point = none ∧ s.queued x.point = false
        ∧ (k = .giveBack → x.relief = true) ∧ e = ⟨x.point, 0, (s.pointDef x.point).priority, .unreviewed⟩ := by
  simp [reviewOfArea, and_assoc, imp_iff_not_or, eq_comm (a := e)]

theorem occ_of_mem_reviewOfArea {s : State} (h : s.AlarmTableSound) {k : HandoverKind} {a : Nat} {e : ReviewEntry}
    (he : e ∈ reviewOfArea s k a) : e.occ = match s.slotOf e.point with | some (_, sl) => sl.occ | none => 0 := by
  obtain ⟨x, hx, -, rfl⟩ | ⟨x, -, -, hs, -, -, rfl⟩ := mem_reviewOfArea.mp he
  · exact occ_of_mem_standingList h hx
  · rw [hs]

theorem reviewTakes_iff (s : State) (k : HandoverKind) (a : Nat) (e : Standing) : reviewTakes s k a e = true ↔
    match k with
    | .shift => True
    | .relief => (s.pointDef e.point).priority = .urgent ∨ (s.pointDef e.point).priority = .high
        ∨ s.shelved e.point = true
    | .giveBack => (∃ c, (s.area a).relief.head? = some c ∧ e.onset.older c.start = false)
        ∨ s.shelvedInRelief e.point = true := by
  cases k with
  | shift => simp [reviewTakes]
  | relief =>
    have hu : s.urgentOrHigh e.point = true
        ↔ (s.pointDef e.point).priority = .urgent ∨ (s.pointDef e.point).priority = .high := by
      unfold State.urgentOrHigh
      cases (s.pointDef e.point).priority <;> decide
    simp [reviewTakes, hu, or_assoc]
  | giveBack => simp [reviewTakes, sinceRelief_eq, Option.any_eq_true]

theorem exists_mem_reviewOfArea {s : State} {k : HandoverKind} {a p : Nat} :
    (∃ e ∈ reviewOfArea s k a, e.point = p) ↔ (∃ x ∈ standingList s a, x.point = p ∧ reviewTakes s k a x = true)
      ∨ ∃ x ∈ s.shelf, x.point = p ∧ (s.pointDef p).area = a ∧ s.slotOf p = none ∧ s.queued p = false
        ∧ (k = .giveBack → x.relief = true) := by
  constructor
  · rintro ⟨e, he, rfl⟩
    obtain ⟨x, hx, ht, rfl⟩ | ⟨x, hx, ha, hs, hq, hk, rfl⟩ := mem_reviewOfArea.mp he
    · exact .inl ⟨x, hx, rfl, ht⟩
    · exact .inr ⟨x, hx, rfl, ha, hs, hq, hk⟩
  · rintro (⟨x, hx, rfl, ht⟩ | ⟨x, hx, rfl, ha, hs, hq, hk⟩)
    · exact ⟨_, mem_reviewOfArea.mpr (.inl ⟨x, hx, ht, rfl⟩), rfl⟩
    · exact ⟨_, mem_reviewOfArea.mpr (.inr ⟨x, hx, ha, hs, hq, hk, rfl⟩), rfl⟩

theorem mem_buildReview_points {s : State} {k : HandoverKind} {areas : List Nat} {p : Nat} :
    (∃ e ∈ buildReview s k areas, e.point = p) ↔ ∃ a ∈ areas, ∃ e ∈ reviewOfArea s k a, e.point = p := by
  have h := mem_keepFirst_points (areas.flatMap (reviewOfArea s k)) p
  rw [← buildReview_eq] at h
  simp only [List.mem_map, List.mem_flatMap] at h
  rw [h]
  grind

theorem areasOf_pairwise (w : Nat) : (areasOf w).Pairwise (· < ·) := List.pairwise_lt_range.filter _

theorem mem_areasOf {w a : Nat} : a ∈ areasOf w ↔ a < 16 ∧ w.testBit a = true := by simp [areasOf, allAreas]

/-- Settles O43: the list keeps the first entry of each point of the candidates, area by area; what a candidate is, the
criteria of R126 say. -/
theorem reviewListIsBuilt : Obligations.ReviewListIsBuilt := by
  unfold Obligations.ReviewListIsBuilt
  intro s k areas
  refine ⟨keepFirst_nodup _, fun e he => ?_, fun p => ?_, ?_, fun w => ⟨areasOf_pairwise w, fun a => mem_areasOf⟩⟩
  · obtain ⟨a, -, he⟩ := List.mem_flatMap.mp (mem_of_mem_keepFirst he)
    refine ⟨?_, ?_, fun h => occ_of_mem_reviewOfArea h he⟩ <;>
      obtain ⟨x, -, -, rfl⟩ | ⟨x, -, -, -, -, -, rfl⟩ := mem_reviewOfArea.mp he <;> rfl
  · rw [mem_buildReview_points]
    refine exists_congr fun a => and_congr_right fun _ => exists_mem_reviewOfArea.trans (or_congr_left ?_)
    refine exists_congr fun e => and_congr_right fun _ => and_congr_right fun hp => ?_
    subst hp
    exact reviewTakes_iff s k a e
  · have h := keepFirst_pairwise_idxOf (areas.flatMap (reviewOfArea s k))
    rw [map_point_candidates] at h
    cases k with
    | shift => exact h
    | relief => exact h
    | giveBack =>
      have htakes (a : Nat) : reviewTakes s .giveBack a = fun e =>
          ((s.area a).relief.head?.any fun c => !e.onset.older c.start) || s.shelvedInRelief e.point :=
        funext fun e => congrArg (· || _) (sinceRelief_eq s a e.onset)
      unfold reviewPoints at h
      simp only [htakes] at h
      exact h

end Sys2Proof.Machine

/-! PROOFS. SILENCE (R80). -/

namespace Sys2Proof.Machine

-- The proofs are elaborated one after another: side by side each would hold a thread and its stack.
set_option Elab.async false

theorem lookup_taken_of_lookup {s : State} {f : Frame} {c : Console} (h : lookup s.consoles f.source.toNat = some c)
    (ms n : Nat) : lookup (s.taken ms n f).consoles f.source.toNat
      = some { c with silence := 0, requests := c.requests + n } := by
  rw [lookup_taken, h]
  rfl

theorem setHorn_of_ne {s : State} {a : Nat} {c : Console} {h : Horn} (hc : lookup s.consoles a = some c)
    (hne : c.horn ≠ h) : s.setHorn a h = s.modConsole a fun k => Console.take { k with horn := h } (.horn h) := by
  simp only [State.setHorn, hc, if_neg hne, State.notify, modConsole_modConsole]

/-- The class of an ATTACHED console is ACK or above where it is not VIEW. -/
theorem consoleAtLeast_ack {s : State} {a : Nat} {c : Console} (hc : lookup s.consoles a = some c)
    (ha : c.attached = true) : s.consoleAtLeast a .ack = true ↔ c.cls ≠ some .view := by
  obtain ⟨k, hk⟩ := Option.isSome_iff_exists.mp ha
  simp only [State.consoleAtLeast, hc, Console.atLeast, hk]
  cases k <;> decide

theorem takeSilence_of_view {f : Frame} {op : Nat} {s : State} (hr : f.recs = [])
    (h : s.consoleAtLeast f.source.toNat .ack = false) :
    takeSilence f (senderOf f op) s = reply f (senderOf f op) .classTooLow [] s := by
  simp [takeSilence, hr, senderOf, h]

theorem takeSilence_of_sounding {f : Frame} {op : Nat} {s : State} {c : Console} (hr : f.recs = [])
    (h : s.consoleAtLeast f.source.toNat .ack = true) (hc : lookup s.consoles f.source.toNat = some c)
    (hs : c.horn = .sounding) : takeSilence f (senderOf f op) s = reply f (senderOf f op) .ok [⟨0x75#8, [3#8]⟩]
      (s.modConsole f.source.toNat fun k => Console.take { k with horn := .silenced } (.horn .silenced)) := by
  have hhorn (c : Console) (n : Notice) : (c.take n).horn = c.horn := by unfold Console.take; split <;> rfl
  have hset := setHorn_of_ne (h := .silenced) hc (by simp [hs])
  have hold : s.hornOf f.source.toNat = .sounding := by simp [State.hornOf, hc, hs]
  have hnew : (s.setHorn f.source.toNat .silenced).hornOf f.source.toNat = .silenced := by
    simp [hset, State.hornOf, lookup_modConsole, hc, hhorn]
  unfold takeSilence
  simp only [hr, senderOf, h, hold, hnew, List.isEmpty_nil, Bool.not_true, Bool.false_eq_true, if_false, if_true]
  rw [hset]
  rfl

theorem takeSilence_of_not_sounding {f : Frame} {op : Nat} {s : State} {c : Console} (hr : f.recs = [])
    (h : s.consoleAtLeast f.source.toNat .ack = true) (hc : lookup s.consoles f.source.toNat = some c)
    (hs : c.horn ≠ .sounding) :
    takeSilence f (senderOf f op) s = reply f (senderOf f op) .ok [⟨0x75#8, b1 c.horn.code⟩] s := by
  simp [takeSilence, hr, senderOf, h, State.hornOf, hc, hs]

/-- Settles O37: a counted SILENCE reaches its checks on the state that has taken it, and the three branches are the
three cases of the console's class and horn. -/
theorem silenceActsOnTheHornAlone : Obligations.SilenceActsOnTheHornAlone := by
  unfold Obligations.SilenceActsOnTheHornAlone
  intro ms op f c s hreq hr hc
  obtain ⟨c', hc', hatt, -⟩ := lookup_of_fromAttached hreq
  obtain rfl : c' = c := Option.some.inj (hc'.symm.trans hc)
  have hexec : exec (.silence ms f) s = .next (takeSilence f (senderOf f op) (s.taken ms 1 f)) :=
    congrArg _ (oreq_of_counted hreq ms _)
  have hack := consoleAtLeast_ack hc hatt
  rw [← consoleAtLeast_taken s ms 1 f] at hack
  have hl := lookup_taken_of_lookup hc ms 1
  rw [hexec]
  refine ⟨fun hv => ?_, fun hv hs => ?_, fun hv hs => ?_⟩
  · rw [takeSilence_of_view hr (Bool.eq_false_iff.mpr fun h => hack.mp h hv), reply_eq (s := s) (by simp)]
  · rw [takeSilence_of_sounding hr (hack.mpr hv) hl hs, reply_eq (s := s) (by simp)]
  · rw [takeSilence_of_not_sounding hr (hack.mpr hv) hl hs, reply_eq (s := s) (by simp)]

end Sys2Proof.Machine

/-! PROOFS. Pages, transfers and the turn of the waiting consoles (R71 to R75, R102). -/

namespace Sys2Proof.Machine

-- The proofs are elaborated one after another: side by side each would hold a thread and its stack.
set_option Elab.async false

/-! ## What a page reads of the state -/

/-- Two states agree on what a PAGED shows. -/
structure SamePages (s t : State) : Prop where
  tables : t.tables = s.tables
  slots : t.slots = s.slots
  queue : t.queue = s.queue
  areas : t.areas = s.areas

section
variable {s t : State} (h : SamePages s t)
include h

theorem SamePages.standingList (a : Nat) : standingList t a = Machine.standingList s a := by
  have hp : t.pointDef = s.pointDef := funext (pointDef_congr (congrArg _ h.tables))
  have hb : slotBefore t = slotBefore s := by unfold slotBefore; rw [hp]
  unfold Machine.standingList
  rw [hp, hb, h.slots, h.queue]

theorem SamePages.pageEntries (a n : Nat) : pageEntries t a n = Machine.pageEntries s a n := by
  have he : pageEntry t = pageEntry s := by
    unfold pageEntry
    rw [show t.pointDef = s.pointDef from funext (pointDef_congr (congrArg _ h.tables))]
  unfold Machine.pageEntries
  rw [h.standingList, he]

theorem SamePages.generation (a : Nat) : (t.area a).generation = (s.area a).generation := by
  rw [area_congr h.areas]

theorem SamePages.pageHead (a page marks : Nat) : pageHead t a page marks = Machine.pageHead s a page marks := by
  unfold Machine.pageHead
  rw [h.generation, h.standingList]

theorem SamePages.pagedTelegram (c seat : Nat) (seq : Half) (op : Nat) (recs : List Rec) :
    pagedTelegram t c seat seq op recs = Machine.pagedTelegram s c seat seq op recs :=
  generated_congr h.tables ..

theorem SamePages.nextPaged (c : Nat) (x : Transfer) : nextPaged t c x = Machine.nextPaged s c x := by
  unfold Machine.nextPaged
  simp only [h.generation, h.standingList, h.pageEntries, h.pageHead, h.pagedTelegram]

end

/-! ## The next PAGED of a transfer (R75) -/

theorem nextPaged_of_moved {s : State} {c : Nat} {x : Transfer} (h : (s.area x.area).generation ≠ x.generation) :
    nextPaged s c x = (pagedTelegram s c x.seat x.seq x.operator [pageHead s x.area x.page 3], none) :=
  if_pos h

theorem nextPaged_of_last {s : State} {c : Nat} {x : Transfer} (h : (s.area x.area).generation = x.generation)
    (hl : (standingList s x.area).length ≤ x.position + 16) :
    nextPaged s c x = (pagedTelegram s c x.seat x.seq x.operator
      (pageHead s x.area x.page 1 :: pageEntries s x.area x.position), none) := by
  simp [nextPaged, h, hl]

theorem nextPaged_of_more {s : State} {c : Nat} {x : Transfer} (h : (s.area x.area).generation = x.generation)
    (hl : x.position + 16 < (standingList s x.area).length) :
    nextPaged s c x = (pagedTelegram s c x.seat x.seq x.operator
      (pageHead s x.area x.page 0 :: pageEntries s x.area x.position),
      some { x with position := x.position + 16, page := x.page + 1 }) := by
  simp [nextPaged, h, Nat.not_le.mpr hl]

/-! ## The turn (R102) -/

/-- The addresses of the waiting consoles, ascending where the consoles' table is. -/
def waiting (s : State) : List Nat := keys (s.consoles.filter fun e => e.2.waits)

theorem mem_waiting_of_waits {s : State} {a : Nat} (h : (lookup s.consoles a).any Console.waits = true) :
    a ∈ waiting s := by
  obtain ⟨c, hc, hw⟩ := (Option.any_eq_true _ _).mp h
  exact List.mem_map.mpr ⟨(a, c), List.mem_filter.mpr ⟨mem_of_lookup hc, hw⟩, rfl⟩

theorem waits_of_mem_waiting {s : State} (hk : risingKeys s.consoles = true) {a : Nat} (h : a ∈ waiting s) :
    (lookup s.consoles a).any Console.waits = true := by
  obtain ⟨⟨k, c⟩, hm, rfl⟩ := List.mem_map.mp h
  obtain ⟨hm, hw⟩ := List.mem_filter.mp hm
  rw [lookup_of_mem hk hm]
  exact hw

theorem waiting_pairwise {s : State} (hk : risingKeys s.consoles = true) : (waiting s).Pairwise (· < ·) :=
  List.pairwise_map.mpr (((risingKeys_iff _).mp hk).filter _)

/-- The next in turn is the first waiting one past the turn, or else the first waiting one. -/
theorem nextWaiting_eq (s : State) :
    nextWaiting s = ((waiting s).find? fun a => s.turn < a).or (waiting s).head? := by
  unfold nextWaiting waiting
  dsimp only
  split
  next h => rw [h]; rfl
  next h => rw [h]; rfl

theorem waiting_eq_nil_of_nextWaiting {s : State} (h : nextWaiting s = none) : waiting s = [] := by
  rw [nextWaiting_eq, Option.or_eq_none_iff] at h
  exact List.head?_eq_none_iff.mp h.2

theorem nextWaiting_first {s : State} (hk : risingKeys s.consoles = true) {a : Nat} (h : nextWaiting s = some a) :
    a ∈ waiting s ∧ ∀ b ∈ waiting s, (s.turn < a ∧ (b ≤ s.turn ∨ a ≤ b)) ∨ (a ≤ s.turn ∧ b ≤ s.turn ∧ a ≤ b) := by
  have hp := waiting_pairwise hk
  rw [nextWaiting_eq] at h
  cases hf : (waiting s).find? fun a => s.turn < a with
  | some a' =>
    rw [hf] at h
    obtain rfl : a' = a := Option.some.inj h
    obtain ⟨hlt, l, r, hw, hl⟩ := List.find?_eq_some_iff_append.mp hf
    rw [hw] at hp ⊢
    obtain ⟨-, hr, -⟩ := List.pairwise_append.mp hp
    obtain ⟨hr, -⟩ := List.pairwise_cons.mp hr
    simp only [decide_eq_true_eq, Bool.not_eq_true', decide_eq_false_iff_not, Nat.not_lt] at hlt hl
    refine ⟨by simp, fun b hb => .inl ⟨hlt, ?_⟩⟩
    obtain hb | hb := List.mem_append.mp hb
    · exact .inl (hl b hb)
    · obtain rfl | hb := List.mem_cons.mp hb
      · exact .inr le_rfl
      · exact .inr (hr b hb).le
  | none =>
    rw [hf, Option.none_or] at h
    obtain ⟨r, hw⟩ := List.head?_eq_some_iff.mp h
    have hall : ∀ b ∈ waiting s, b ≤ s.turn := fun b hb => by simpa using List.find?_eq_none.mp hf b hb
    rw [hw] at hp hall ⊢
    obtain ⟨hr, -⟩ := List.pairwise_cons.mp hp
    refine ⟨List.mem_cons_self, fun b hb => .inr ⟨hall a List.mem_cons_self, hall b hb, ?_⟩⟩
    obtain rfl | hb := List.mem_cons.mp hb
    · exact le_rfl
    · exact (hr b hb).le

/-! ## Serving the console in turn -/

theorem serveNext_of_next {s : State} {a : Nat} {q : Bool → Bool} (h : nextWaiting s = some a)
    (hr : s.console.ownRoom = true) (hq : q ((lookup s.consoles a).bind (·.transfer)).isSome = true) :
    serveNext q s = serve a s := by
  simp [serveNext, h, hr, hq]

theorem serve_of_notice {s : State} {a : Nat} {c : Console} {n : Notice} {rest : List Notice}
    (hc : lookup s.consoles a = some c) (ht : c.transfer = none) (hn : c.notices = n :: rest) :
    serve a s = (({ s with turn := a } : State).modConsole a fun k => { k with
        notices := rest, noticeSeq := (c.noticeSeq + 1) % 65536 }).sendEntry .console
      ⟨generated s 0x3A#8 a 0 (BitVec.ofNat 16 ((c.noticeSeq + 1) % 65536)) 0 [n.record], false⟩ := by
  simp only [serve, hc, Option.bind_some, ht, placeNote, hn]
  rfl

theorem serve_of_transfer {s : State} {a : Nat} {c : Console} {x : Transfer}
    (hc : lookup s.consoles a = some c) (ht : c.transfer = some x) :
    serve a s = (({ s with turn := a } : State).modConsole a fun k => { k with
      transfer := (nextPaged s a x).2 }).sendEntry .console ⟨(nextPaged s a x).1, false⟩ := by
  have hsame : SamePages s { s with turn := a } := ⟨rfl, rfl, rfl, rfl⟩
  simp only [serve, hc, Option.bind_some, ht, placePaged, hsame.nextPaged, State.send]

/-- Settles O42: the first waiting console past the turn, or else the first, and the one telegram that serving it
places. -/
theorem waitingConsoleIsServedInTurn : Obligations.WaitingConsoleIsServedInTurn := by
  unfold Obligations.WaitingConsoleIsServedInTurn
  refine ⟨fun s a h => ?_, fun s a hk h => ?_, fun s a c n rest hs h hc ht hn hr => ?_,
    fun s a c x hs h hc ht hr => ?_⟩
  · refine Bool.eq_false_iff.mpr fun hw => ?_
    simpa [waiting_eq_nil_of_nextWaiting h] using mem_waiting_of_waits hw
  · obtain ⟨ha, hb⟩ := nextWaiting_first hk h
    exact ⟨waits_of_mem_waiting hk ha, fun b hw => hb b (mem_waiting_of_waits hw)⟩
  · have hexec : exec .noticeDequeue s = .next (serveNext (fun paged => !paged) s.beginEvent) := by
      rw [← enter_of_settled hs]
      rfl
    rw [hexec, serveNext_of_next (s := s.beginEvent) h hr (by simp [State.beginEvent, hc, ht]),
      serve_of_notice (s := s.beginEvent) hc ht hn]
    rfl
  · have hexec : exec .transferPaged s = .next (serveNext (fun paged => paged) s.beginEvent) := by
      rw [← enter_of_settled hs]
      rfl
    have hsame : SamePages s s.beginEvent := ⟨rfl, rfl, rfl, rfl⟩
    rw [hexec, serveNext_of_next (s := s.beginEvent) h hr (by simp [State.beginEvent, hc, ht]),
      serve_of_transfer (s := s.beginEvent) hc ht, hsame.nextPaged]
    refine ⟨fun hg => ?_, fun hg hl => ?_, fun hg hl => ?_⟩
    · rw [nextPaged_of_moved hg]
      rfl
    · rw [nextPaged_of_last hg hl]
      rfl
    · rw [nextPaged_of_more hg hl]
      rfl

end Sys2Proof.Machine

/-! PROOFS. PAGE (R72 to R75). -/

namespace Sys2Proof.Machine

-- The proofs are elaborated one after another: side by side each would hold a thread and its stack.
set_option Elab.async false

/-! ## The entries of a page (R72) -/

theorem length_pageEntries (s : State) (a n : Nat) :
    (pageEntries s a n).length = min 16 ((standingList s a).length - n) := by
  simp [pageEntries]

theorem getElem?_pageEntries {s : State} {a n k : Nat} {e : Standing} (hk : k < 16)
    (h : (standingList s a)[n + k]? = some e) : (pageEntries s a n)[k]? = some (pageEntry s (n + k) e) := by
  simp [pageEntries, List.getElem?_mapIdx, hk, h]

/-! ## The request of a PAGE (R73) -/

theorem pageRecord_of_page {a n : Nat} (ha : a ≤ 15) (hn : n ≤ 63) :
    pageRecord [⟨0x34#8, b1 a ++ b1 n⟩] = some (a, n) := by
  have ha' : a % 256 = a := by omega
  have hn' : n % 256 = n := by omega
  simp [pageRecord, field1, b1, natOf, ha', hn', ha, hn]

theorem pageRecord_of_all {a : Nat} (ha : a ≤ 15) : pageRecord [⟨0x34#8, b1 a ++ [0xFF#8]⟩] = some (a, 255) := by
  have ha' : a % 256 = a := by omega
  simp [pageRecord, field1, b1, natOf, ha', ha]

/-- A PAGE past the intake checks meets its own on the state that has taken it. -/
theorem pageArrives_of_request {s : State} {f : Frame} {op : Nat} (h : requestFrom s f op = true) (ms : Nat) :
    pageArrives ms f s = pageChecked f (takePage f) (senderOf f op) (s.taken ms 0 f) := by
  unfold pageArrives
  rw [fromConsole_of_attached h, silentAttach_taken h, intakeLogged_taken h]

theorem pageChecked_of_bad {f : Frame} (h : pageRecord f.recs = none) (k : Nat → Nat → Requester → State → State)
    (q : Requester) (s : State) : pageChecked f k q s = reply f q .badRequest [] s := by
  simp [pageChecked, h]

theorem pageChecked_of_some {f : Frame} {a n : Nat} (h : pageRecord f.recs = some (a, n))
    (k : Nat → Nat → Requester → State → State) (q : Requester) (s : State) : pageChecked f k q s =
      if s.hasRight q.operator a .view then k a n q s else reply f q .deniedRights [] s := by
  simp [pageChecked, h]

theorem pageArrives_of_no_view {s : State} {f : Frame} {op a n : Nat} (h : requestFrom s f op = true) (ms : Nat)
    (hp : pageRecord f.recs = some (a, n)) (hv : s.hasRight op a .view = false) :
    pageArrives ms f s = (s.taken ms 0 f).sendEntry .console (respTo s f op .deniedRights []) := by
  rw [pageArrives_of_request h, pageChecked_of_some hp, hasRight_congr (taken_tables ..),
    ← reply_eq (taken_tables s ms 0 f)]
  exact if_neg (Bool.eq_false_iff.mp hv)

theorem pageArrives_of_view {s : State} {f : Frame} {op a n : Nat} (h : requestFrom s f op = true) (ms : Nat)
    (hp : pageRecord f.recs = some (a, n)) (hv : s.hasRight op a .view = true) :
    pageArrives ms f s = takePage f a n (senderOf f op) (s.taken ms 0 f) := by
  rw [pageArrives_of_request h, pageChecked_of_some hp, hasRight_congr (taken_tables ..)]
  exact if_pos hv

theorem SamePages.of_taken (s : State) (ms n : Nat) (f : Frame) : SamePages s (s.taken ms n f) :=
  ⟨taken_tables .., taken_slots .., taken_queue .., taken_areas ..⟩

theorem SamePages.modConsole {s t : State} (h : SamePages s t) (a : Nat) (g : Console → Console) :
    SamePages s (t.modConsole a g) :=
  ⟨by simp [h.tables], by simp [h.slots], by simp [h.queue], by simp [h.areas]⟩

theorem singlePage_eq {s t : State} (h : SamePages s t) (f : Frame) (op a n : Nat) :
    singlePage f a n (senderOf f op) t = t.sendEntry .console (pagedTo s f op
      (pageHead s a n 0 :: pageEntries s a (16 * n))) := by
  unfold singlePage
  rw [h.pagedTelegram, h.pageHead, h.pageEntries]
  rfl

/-! ## The start of a transfer (R74, R75) -/

/-- The transfer a PAGE with ALL starts. -/
def firstTransfer (s : State) (f : Frame) (op a : Nat) : Transfer :=
  ⟨a, f.seat.toNat, op, f.seq, (s.area a).generation, 0, 0⟩

section
variable {s t : State} (h : SamePages s t) {f : Frame} {op a : Nat} {c : Console}
include h

theorem startTransfer_of_busy (hc : lookup t.consoles f.source.toNat = some c) (ht : c.transfer ≠ none) :
    startTransfer f a (senderOf f op) t = t.sendEntry .console (respTo s f op .busy []) := by
  have hb : c.transfer.isSome = true := Option.isSome_iff_ne_none.mpr ht
  rw [← reply_eq h.tables]
  simp [startTransfer, senderOf, hc, hb]

theorem startTransfer_of_full (hc : lookup t.consoles f.source.toNat = some c) (ht : c.transfer = none)
    (hr : t.console.ownRoom = false) : startTransfer f a (senderOf f op) t
      = t.modConsole f.source.toNat fun k => { k with transfer := some (firstTransfer s f op a) } := by
  simp [startTransfer, senderOf, hc, ht, hr, firstTransfer, h.generation]

theorem startTransfer_of_room (hc : lookup t.consoles f.source.toNat = some c) (ht : c.transfer = none)
    (hr : t.console.ownRoom = true) : startTransfer f a (senderOf f op) t
      = (t.modConsole f.source.toNat fun k => { k with
          transfer := (nextPaged s f.source.toNat (firstTransfer s f op a)).2 }).sendEntry .console
        ⟨(nextPaged s f.source.toNat (firstTransfer s f op a)).1, false⟩ := by
  have hroom (g : Console → Console) : (t.modConsole f.source.toNat g).console.ownRoom = true := by simpa using hr
  simp only [startTransfer, senderOf, hc, Option.bind_some, ht, hroom, placePaged, (h.modConsole _ _).nextPaged,
    modConsole_modConsole, h.generation, State.send, firstTransfer]
  rfl

end

/-- Settles O41: a PAGE reaches its checks on the state that has taken it, which shows the pages of the state before. -/
theorem pageIsAnsweredOrTransferred : Obligations.PageIsAnsweredOrTransferred := by
  unfold Obligations.PageIsAnsweredOrTransferred
  refine ⟨fun ms op f s hreq hbad => ?_, fun ms op a n f s hreq ha hn hrecs => ?_,
    fun ms op a f c s hreq ha hrecs hc => ?_, fun s a n k e => getElem?_pageEntries, length_pageEntries⟩
  · have hexec : exec (.page ms f) s = .next (pageArrives ms f s) := rfl
    rw [hexec, pageArrives_of_request hreq, pageChecked_of_bad hbad, reply_eq (s := s) (taken_tables ..)]
  · have hexec : exec (.page ms f) s = .next (pageArrives ms f s) := rfl
    have hpage : pageRecord f.recs = some (a, n) := hrecs ▸ pageRecord_of_page ha hn
    refine ⟨fun hv => ?_, fun hv => ?_⟩
    · rw [hexec, pageArrives_of_no_view hreq ms hpage hv]
    · rw [hexec, pageArrives_of_view hreq ms hpage hv, takePage, if_neg (by omega), singlePage_eq (.of_taken s ms 0 f)]
      rfl
  · have hexec : exec (.pageAll ms f) s = .next (pageArrives ms f s) := rfl
    have hpage : pageRecord f.recs = some (a, 255) := hrecs ▸ pageRecord_of_all ha
    have hl := lookup_taken_of_lookup hc ms 0
    have hsame := SamePages.of_taken s ms 0 f
    have hroom : (s.taken ms 0 f).console.ownRoom = s.console.ownRoom := by rw [taken_console]
    have hstart (hv : s.hasRight op a .view = true) :
        exec (.pageAll ms f) s = .next (startTransfer f a (senderOf f op) (s.taken ms 0 f)) := by
      rw [hexec, pageArrives_of_view hreq ms hpage hv, takePage, if_pos rfl]
    refine ⟨fun hv => ?_, fun hv ht => ?_, fun hv ht hr => ?_, fun hv ht hr => ?_⟩
    · rw [hexec, pageArrives_of_no_view hreq ms hpage hv]
    · rw [hstart hv, startTransfer_of_busy hsame hl ht]
    · rw [hstart hv, startTransfer_of_full hsame hl ht (hroom.trans hr)]
      rfl
    · rw [hstart hv, startTransfer_of_room hsame hl ht (hroom.trans hr)]
      by_cases hlen : (standingList s a).length ≤ 16
      · rw [nextPaged_of_last (x := firstTransfer s f op a) rfl (hlen.trans (Nat.le_add_left ..))]
        simp only [if_pos hlen]
        rfl
      · rw [nextPaged_of_more (x := firstTransfer s f op a) rfl (by simpa [firstTransfer] using hlen)]
        simp only [if_neg hlen]
        rfl

end Sys2Proof.Machine

/-! PROOFS. GROUP_ACK (R61, R62). -/

namespace Sys2Proof.Machine

-- The proofs are elaborated one after another: side by side each would hold a thread and its stack.
set_option Elab.async false

/-! ## What a matched acknowledgement does to the slots (R58) -/

theorem acknowledge_slots (q : Requester) (i : Nat) (sl : Slot) (s : State) :
    (acknowledge q i sl s).slots = (applyAck i sl q.operator { s := s }).s.slots := by
  rw [acknowledge_eq, State.report_slots, handOn_slots]

theorem acknowledge_slots_of_active {sl : Slot} (h : sl.state = .activeUnack) (q : Requester) (i : Nat) (s : State) :
    (acknowledge q i sl s).slots = insertAt s.slots i (ackedSlot sl q.operator s.stamp) := by
  rw [acknowledge_slots, applyAck_of_active h]
  rfl

theorem acknowledge_slots_of_returned {sl : Slot} {s : State} (h : sl.state = .returnedUnack) (hq : s.queue = [])
    (q : Requester) (i : Nat) : (acknowledge q i sl s).slots = removeAt s.slots i := by
  rw [acknowledge_slots, applyAck_of_returned h, freeAndAdmit_of_nil hq]
  rfl

/-- An acknowledgement reaches its own slot index alone, also where the head of the queue takes the freed slot. -/
theorem acknowledge_otherSlotsKept (q : Requester) (i : Nat) (sl : Slot) (s : State) :
    OtherSlotsKept i s (acknowledge q i sl s) := by
  intro j hj
  cases h : sl.state with
  | activeUnack => rw [acknowledge_slots_of_active h, lookup_insertAt_of_ne _ hj]
  | activeAcked =>
    rw [acknowledge_slots]
    unfold applyAck
    rw [h]
  | returnedUnack =>
    cases hq : s.queue with
    | nil => rw [acknowledge_slots_of_returned h hq, lookup_removeAt_of_ne _ hj]
    | cons x rest =>
      rw [acknowledge_slots, applyAck_of_returned h, freeAndAdmit_of_cons hq]
      exact lookup_insertAt_removeAt _ hj _

theorem matchAck_otherSlotsKept {q : Requester} {p n i : Nat} {sl : Slot} {s : State}
    (h : s.slotOf p = some (i, sl)) : OtherSlotsKept i s (matchAck q p n s).2 := by
  unfold matchAck
  rw [h]
  dsimp only
  split
  · exact fun _ _ => rfl
  · split
    · exact fun _ _ => rfl
    · exact acknowledge_otherSlotsKept q i sl s

theorem matchAck_console (q : Requester) (p n : Nat) (s : State) : (matchAck q p n s).2.console = s.console := by
  unfold matchAck
  split
  · rfl
  · split
    · rfl
    · split
      · rfl
      · rw [acknowledge_eq, report_console, handOn_console, applyAck_frame]

/-! ## One pair -/

theorem pairRefusal_eq (q : Requester) (p : Nat) (s : State) :
    pairRefusal q p s = firstFailing (pairChecks s q.operator p) := by
  unfold pairRefusal pairChecks
  simp only [firstFailing_cons, firstFailing_nil, bne, Bool.not_not]
  simp only [Bool.not_eq_true', ← Bool.not_eq_true, ite_not]

theorem takePair_of_refused {q : Requester} {p occ : Nat} {s : State} {r : Result}
    (h : firstFailing (pairChecks s q.operator p) = some r) : takePair q p occ s = (r, s) := by
  rw [← pairRefusal_eq] at h
  unfold takePair
  rw [h]

theorem takePair_of_passed {q : Requester} {p occ : Nat} {s : State}
    (h : firstFailing (pairChecks s q.operator p) = none) : takePair q p occ s = matchAck q p occ s.beginEvent := by
  rw [← pairRefusal_eq] at h
  unfold takePair
  rw [h]

theorem takePair_tables (q : Requester) (p occ : Nat) (s : State) : (takePair q p occ s).2.tables = s.tables := by
  unfold takePair
  split
  · rfl
  · rw [matchAck_tables, State.beginEvent_tables]

theorem takePair_console (q : Requester) (p occ : Nat) (s : State) : (takePair q p occ s).2.console = s.console := by
  unfold takePair
  split
  · rfl
  · rw [matchAck_console, State.beginEvent_console]

theorem not_urgent_of_passed {s : State} {op p : Nat} (h : firstFailing (pairChecks s op p) = none) :
    (s.pointDef p).priority ≠ .urgent := by
  intro hu
  simp only [pairChecks, firstFailing_cons, hu, bne_self_eq_false, Bool.not_false, if_true] at h
  split at h <;> cases h

/-! ## What pairs keep (R61) -/

/-- Where nothing waits for a slot, an event that acknowledges alarms of the points in `P` keeps every other alarm,
every URGENT one and every free slot, and reaches nothing but what an event at the alarm table may. -/
structure OthersKept (P : Nat → Prop) (s t : State) : Prop where
  rising : risingKeys t.slots = true
  frame : t.kept = s.kept
  areas : AreasKept s t
  consoles : ConsolesKept s t
  alarms : ∀ i sl, lookup s.slots i = some sl → (s.pointDef sl.point).priority = .urgent ∨ ¬ P sl.point →
    lookup t.slots i = some sl
  free : ∀ i, lookup s.slots i = none → lookup t.slots i = none

theorem OthersKept.refl {P : Nat → Prop} {s : State} (h : risingKeys s.slots = true) : OthersKept P s s :=
  ⟨h, rfl, fun _ => rfl, .refl s, fun _ _ h _ => h, fun _ h => h⟩

section
variable {P : Nat → Prop} {s t : State} (h : OthersKept P s t)
include h

theorem OthersKept.alarmEventFrame : AlarmEventFrame s t := alarmEventFrame_iff.mpr h.frame

theorem OthersKept.tables : t.tables = s.tables := by rw [show t = _ from h.alarmEventFrame]

theorem OthersKept.queue : t.queue = s.queue := by rw [show t = _ from h.alarmEventFrame]

theorem OthersKept.request : t.request = s.request := by rw [show t = _ from h.alarmEventFrame]

end

theorem AreasKept.trans {s t u : State} (h : AreasKept s t) (k : AreasKept t u) : AreasKept s u := by
  intro a
  rw [← h a, ← k a]

theorem OthersKept.trans {P Q R : Nat → Prop} {s t u : State} (h : OthersKept P s t) (k : OthersKept Q t u)
    (hP : ∀ p, P p → R p) (hQ : ∀ p, Q p → R p) : OthersKept R s u where
  rising := k.rising
  frame := k.frame.trans h.frame
  areas := h.areas.trans k.areas
  consoles := h.consoles.trans k.consoles
  alarms i sl hl hr := by
    have hp : t.pointDef sl.point = s.pointDef sl.point := pointDef_congr (congrArg _ h.tables) _
    exact k.alarms i sl (h.alarms i sl hl (hr.imp_right (mt (hP _)))) (hp ▸ hr.imp_right (mt (hQ _)))
  free i hl := k.free i (h.free i hl)

theorem applyAck_request (i : Nat) (sl : Slot) (op : Nat) (s : State) :
    (applyAck i sl op { s := s }).s.request = s.request := by
  rw [applyAck_frame]

theorem applyAck_kept {s : State} (hq : s.queue = []) (i : Nat) (sl : Slot) (op : Nat) :
    (applyAck i sl op { s := s }).s.kept = s.kept := by
  cases h : sl.state with
  | activeUnack => rw [applyAck_of_active h]; rfl
  | activeAcked => unfold applyAck; rw [h]
  | returnedUnack => rw [applyAck_of_returned h, freeAndAdmit_of_nil hq]; rfl

theorem applyAck_rising {s : State} (hq : s.queue = []) (hk : risingKeys s.slots = true) (i : Nat) (sl : Slot)
    (op : Nat) : risingKeys (applyAck i sl op { s := s }).s.slots = true := by
  cases h : sl.state with
  | activeUnack => rw [applyAck_of_active h]; exact risingKeys_insertAt hk ..
  | activeAcked => unfold applyAck; rw [h]; exact hk
  | returnedUnack => rw [applyAck_of_returned h, freeAndAdmit_of_nil hq]; exact risingKeys_removeAt hk ..

section
variable {s : State} (hr : s.request = none) (hq : s.queue = []) (hk : risingKeys s.slots = true)
include hr hq hk

theorem acknowledge_othersKept {p i : Nat} {sl : Slot} (h : s.slotOf p = some (i, sl))
    (hu : (s.pointDef p).priority ≠ .urgent) (q : Requester) :
    OthersKept (· = p) s (acknowledge q i sl s) := by
  obtain ⟨hm, hp⟩ := mem_of_slotOf h
  have hli := lookup_of_mem hk hm
  have hreq : (applyAck i sl q.operator { s := s }).s.request = none := (applyAck_request ..).trans hr
  have hareas : (applyAck i sl q.operator { s := s }).s.areas = s.areas := by rw [applyAck_frame]
  constructor
  case rising => rw [acknowledge_slots]; exact applyAck_rising hq hk ..
  case frame => rw [acknowledge_eq, kept_report, kept_handOn hreq, applyAck_kept hq]
  case areas =>
    exact (handOn_areasKept (b := s) (xs := []) hreq).congr hareas.symm (by rw [acknowledge_eq, State.report_areas])
  case consoles =>
    rw [acknowledge_eq]
    exact ((ConsolesKept.of_eq (by rw [applyAck_frame])).trans (handOn_consolesKept s _ [])).trans
      (.of_eq (State.report_consoles ..))
  case alarms =>
    intro j x hj hx
    have hji : j ≠ i := by
      rintro rfl
      obtain rfl : sl = x := Option.some.inj (hli.symm.trans hj)
      exact hx.elim (fun hx => hu (hp ▸ hx)) fun hx => hx hp
    rw [acknowledge_otherSlotsKept q i sl s j hji, hj]
  case free =>
    intro j hj
    have hji : j ≠ i := fun e => by rw [e, hli] at hj; cases hj
    rw [acknowledge_otherSlotsKept q i sl s j hji, hj]

theorem matchAck_othersKept {p : Nat} (hu : (s.pointDef p).priority ≠ .urgent) (q : Requester) (n : Nat) :
    OthersKept (· = p) s (matchAck q p n s).2 := by
  unfold matchAck
  split
  · exact .refl hk
  next i sl h =>
    split
    · exact .refl hk
    · split
      · exact .refl hk
      · exact acknowledge_othersKept hr hq hk h hu q

theorem takePair_othersKept (q : Requester) (p n : Nat) : OthersKept (· = p) s (takePair q p n s).2 := by
  cases h : firstFailing (pairChecks s q.operator p) with
  | some r => rw [takePair_of_refused h]; exact .refl hk
  | none =>
    rw [takePair_of_passed h]
    have hb : OthersKept (· = p) s s.beginEvent := ⟨hk, rfl, fun _ => rfl, .refl s, fun _ _ h _ => h, fun _ h => h⟩
    exact hb.trans (matchAck_othersKept (s := s.beginEvent) hr hq hk (not_urgent_of_passed h) q n) (fun _ => id)
      fun _ => id

end

theorem takePairs_othersKept {s : State} (hr : s.request = none) (hq : s.queue = []) (hk : risingKeys s.slots = true)
    (q : Requester) (l : List Rec) :
    OthersKept (fun p => ∃ r ∈ l, field2 r.data 0 = p) s (takePairs q l s).2 := by
  induction l generalizing s with
  | nil => exact .refl hk
  | cons r rest ih =>
    have hone := takePair_othersKept hr hq hk q (field2 r.data 0) (field2 r.data 2)
    refine hone.trans (ih (hone.request.trans hr) (hone.queue.trans hq) hone.rising) ?_ ?_
    · rintro p rfl
      exact ⟨r, List.mem_cons_self, rfl⟩
    · rintro p ⟨x, hx, rfl⟩
      exact ⟨x, List.mem_cons_of_mem _ hx, rfl⟩

theorem takePairs_length (q : Requester) (l : List Rec) (s : State) : (takePairs q l s).1.length = l.length := by
  induction l generalizing s with
  | nil => rfl
  | cons r rest ih => exact congrArg (· + 1) (ih _)

theorem takePairs_tables (q : Requester) (l : List Rec) (s : State) : (takePairs q l s).2.tables = s.tables := by
  induction l generalizing s with
  | nil => rfl
  | cons r rest ih => exact (ih _).trans (takePair_tables ..)

theorem takePairs_console (q : Requester) (l : List Rec) (s : State) : (takePairs q l s).2.console = s.console := by
  induction l generalizing s with
  | nil => rfl
  | cons r rest ih => exact (ih _).trans (takePair_console ..)

theorem consoleFeatures_taken (s : State) (ms n : Nat) (f : Frame) :
    (s.taken ms n f).consoleFeatures f.source.toNat = s.consoleFeatures f.source.toNat := by
  unfold State.consoleFeatures
  rw [lookup_taken]
  cases lookup s.consoles f.source.toNat <;> rfl

/-- The checks of a counted GROUP_ACK in their order (R61). -/
theorem exec_groupAck {s : State} {f : Frame} {op : Nat} (h : countedFrom s f op = true) (ms : Nat) :
    exec (.groupAck ms f) s = .next (
      if groupBody f.recs = false then (s.taken ms 1 f).sendEntry .console (respTo s f op .badRequest [])
      else if (classOf s f .ack && (s.consoleFeatures f.source.toNat).groupAck) = true then
        (takePairs (senderOf f op) f.recs (s.taken ms 1 f)).2.sendEntry .console
          (respTo s f op .ok (takePairs (senderOf f op) f.recs (s.taken ms 1 f)).1)
      else (s.taken ms 1 f).sendEntry .console (respTo s f op .classTooLow [])) := by
  refine congrArg Host.Outcome.next ((oreq_of_counted h ms _).trans ?_)
  have htables := (takePairs_tables (senderOf f op) f.recs (s.taken ms 1 f)).trans (taken_tables s ms 1 f)
  have hpairs := reply_eq htables f op
  unfold takeGroupAck
  rw [show (senderOf f op).console = f.source.toNat from rfl, consoleAtLeast_taken, consoleFeatures_taken]
  simp only [reply_eq (taken_tables s ms 1 f) f op, hpairs, classOf]
  cases groupBody f.recs <;> rfl

/-- What the pairs of a counted GROUP_ACK keep, told of the state that the telegram found (R61). -/
theorem groupAck_keeps {s : State} {f : Frame} {op : Nat} (h : countedFrom s f op = true) (ms : Nat)
    (hq : s.queue = []) (hk : risingKeys s.slots = true) :
    let t := (takePairs (senderOf f op) f.recs (s.taken ms 1 f)).2
    (∀ i sl, lookup s.slots i = some sl →
        (s.pointDef sl.point).priority = .urgent ∨ (∀ r ∈ f.recs, field2 r.data 0 ≠ sl.point) →
        lookup t.slots i = some sl)
      ∧ (∀ i, lookup s.slots i = none → lookup t.slots i = none) ∧ t.queue = []
      ∧ AreasKept s t ∧ ConsolesKept (s.taken ms 1 f) t ∧ AlarmEventFrame s t := by
  have hslots := taken_slots s ms 1 f
  have ho := takePairs_othersKept (s := s.taken ms 1 f) ((taken_request ..).trans (request_of_countedFrom h))
    ((taken_queue ..).trans hq) (by rw [hslots]; exact hk) (senderOf f op) f.recs
  refine ⟨fun i sl hl hx => ?_, fun i hl => ?_, ho.queue.trans ((taken_queue ..).trans hq),
    ho.areas.congr (taken_areas ..).symm rfl, ho.consoles,
    alarmEventFrame_iff.mpr (ho.frame.trans (kept_taken s ms 1 f))⟩
  · refine ho.alarms i sl (by rw [hslots]; exact hl) ?_
    rw [pointDef_taken]
    exact hx.imp_right fun hx ⟨r, hr, he⟩ => hx r hr he
  · exact ho.free i (by rw [hslots]; exact hl)

/-- Settles O35: the telegram's checks, the pairs by induction over the body, one pair by its checks, and its matching
by the alarm table's part of an acknowledgement. -/
theorem groupAcknowledgementTakesPairs : Obligations.GroupAcknowledgementTakesPairs := by
  unfold Obligations.GroupAcknowledgementTakesPairs
  refine ⟨fun ms op f s hc => ⟨fun hb => ?_, fun hb hcls => ?_, fun hb hcls => ?_⟩, fun q r rest s => ⟨rfl, rfl⟩,
    fun q p occ s => ⟨fun r => takePair_of_refused, takePair_of_passed⟩,
    fun q p n s => ⟨matchAck_of_absent, fun i sl hs => ⟨matchAck_of_acked hs, matchAck_of_stale hs, fun ha ho => ?_⟩⟩⟩
  · rw [exec_groupAck hc, if_pos hb]
  · rw [exec_groupAck hc, if_neg (by simp [hb]), if_neg (by simp [hcls])]
  · dsimp only
    rw [exec_groupAck hc, if_neg (by simp [hb]), if_pos hcls]
    refine ⟨rfl, takePairs_length .., (takePairs_console ..).trans (taken_console ..), fun hq hsound => ?_⟩
    obtain ⟨hk, -⟩ := hsound
    exact groupAck_keeps hc ms hq hk
  · have hm := matchAck_of_match (q := q) hs ha ho
    refine ⟨by rw [hm], fun hact => ?_, fun hret hq => ?_, matchAck_otherSlotsKept hs⟩
    · rw [hm, acknowledge_slots_of_active hact, lookup_insertAt_self]
      rfl
    · rw [hm, acknowledge_slots_of_returned hret hq, lookup_removeAt_self]

end Sys2Proof.Machine

/-! PROOFS. What a console's queue and horn hold after an event with slot changes (R77 to R79, R99 to R101). -/

namespace Sys2Proof.Machine

-- The proofs are elaborated one after another: side by side each would hold a thread and its stack.
set_option Elab.async false

/-! ## Notices taken one after another (R101) -/

/-- A console that takes the notices of a list in their order. -/
def Console.takeAll (c : Console) (l : List Notice) : Console := l.foldl Console.take c

theorem takeAll_append (c : Console) (l m : List Notice) : c.takeAll (l ++ m) = (c.takeAll l).takeAll m :=
  List.foldl_append

theorem take_same (c : Console) (n : Notice) : ∃ q, c.take n = { c with notices := q } := by
  unfold Console.take
  split
  · exact ⟨_, rfl⟩
  · exact ⟨c.notices, rfl⟩

theorem takeAll_same (c : Console) (l : List Notice) : ∃ q, c.takeAll l = { c with notices := q } := by
  induction l generalizing c with
  | nil => exact ⟨c.notices, rfl⟩
  | cons n l ih =>
    obtain ⟨q, hq⟩ := take_same c n
    obtain ⟨r, hr⟩ := ih (c.take n)
    exact ⟨r, hr.trans (by rw [hq])⟩

theorem take_length_le (c : Console) (n : Notice) : (c.take n).notices.length ≤ c.notices.length + 1 := by
  unfold Console.take joinNotice
  split
  · dsimp only
    split
    · simp
    · split <;> simp
  · exact Nat.le_succ _

theorem take_subset {c : Console} {n m : Notice} (h : m ∈ (c.take n).notices) :
    m ∈ c.notices ∨ m = n ∨ m.kindCode = 10 := by
  unfold Console.take joinNotice at h
  split at h
  · dsimp only at h
    split at h
    · obtain ⟨x, hx, rfl⟩ := List.mem_map.mp h
      split
      · exact .inr (.inl rfl)
      · exact .inl hx
    · split at h
      · obtain h | h := List.mem_append.mp h
        · exact .inl h
        · exact .inr (.inl (List.mem_singleton.mp h))
      · rw [List.mem_singleton.mp h]
        exact .inr (.inr rfl)
  · exact .inl h

theorem takeAll_length_le (c : Console) (l : List Notice) :
    (c.takeAll l).notices.length ≤ c.notices.length + l.length := by
  induction l generalizing c with
  | nil => exact le_rfl
  | cons n l ih =>
    have hone := take_length_le c n
    have hrest := ih (c.take n)
    rw [List.length_cons]
    exact hrest.trans (by omega)

theorem takeAll_subset {c : Console} {l : List Notice} {m : Notice} (h : m ∈ (c.takeAll l).notices) :
    m ∈ c.notices ∨ m ∈ l ∨ m.kindCode = 10 := by
  induction l generalizing c with
  | nil => exact .inl h
  | cons n l ih =>
    obtain h | h | h := ih (c := c.take n) h
    · obtain h | rfl | h := take_subset h
      · exact .inl h
      · exact .inr (.inl List.mem_cons_self)
      · exact .inr (.inr h)
    · exact .inr (.inl (List.mem_cons_of_mem _ h))
    · exact .inr (.inr h)

/-- A held notice stays where notices of other kinds or subjects find room. -/
theorem takeAll_keeps {c : Console} {l : List Notice} {n : Notice} (hn : n ∈ c.notices)
    (hl : ∀ m ∈ l, m.sameKey n = false) (hroom : c.notices.length + l.length ≤ 32) : n ∈ (c.takeAll l).notices := by
  induction l generalizing c with
  | nil => exact hn
  | cons m l ih =>
    rw [List.length_cons] at hroom
    obtain ⟨hmem, hlen⟩ := take_keeps (hl m List.mem_cons_self) hn (by omega)
    exact ih hmem (fun x hx => hl x (List.mem_cons_of_mem _ hx)) (by omega)

/-- Notices that share no kind and subject are all held where there is room for them. -/
theorem takeAll_mem {c : Console} {l : List Notice} {n : Notice} (ha : c.attached = true) (hn : n ∈ l)
    (hl : l.Pairwise fun x y => y.sameKey x = false) (hroom : c.notices.length + l.length ≤ 32) :
    n ∈ (c.takeAll l).notices := by
  induction l generalizing c with
  | nil => cases hn
  | cons m l ih =>
    rw [List.length_cons] at hroom
    obtain ⟨hm, hl⟩ := List.pairwise_cons.mp hl
    obtain ⟨hmem, hlen⟩ := take_mem ha (show c.notices.length < 32 by omega) m
    obtain rfl | hn := List.mem_cons.mp hn
    · exact takeAll_keeps (c := c.take n) hmem hm (by omega)
    · obtain ⟨q, hq⟩ := take_same c m
      exact ih (by rw [hq]; exact ha) hn hl (by omega)

/-! ## Who receives a notice (R100) -/

/-- An area's notice reaches the ATTACHED consoles where an operator with VIEW there is seated. -/
theorem lookup_notifyArea {s : State} (h : risingKeys s.consoles = true) (a d : Nat) (n : Notice) :
    lookup (s.notifyArea a n).consoles d = (lookup s.consoles d).map fun c =>
      if (c.attached && c.operators.any fun op => s.hasRight op a .view) = true then c.take n else c := by
  have hmem (c : Console) (hc : lookup s.consoles d = some c) : d ∈ s.entitled a ↔
      (c.attached && c.operators.any fun op => s.hasRight op a .view) = true := by
    constructor
    · intro hd
      obtain ⟨⟨k, x⟩, hx, rfl⟩ := List.mem_map.mp hd
      obtain ⟨hx, hq⟩ := List.mem_filter.mp hx
      obtain rfl : x = c := Option.some.inj ((lookup_of_mem h hx).symm.trans hc)
      exact hq
    · intro hq
      exact List.mem_map.mpr ⟨(d, c), List.mem_filter.mpr ⟨mem_of_lookup hc, hq⟩, rfl⟩
  rw [State.notifyArea, lookup_notifyEach (l := s.entitled a) (keys_nodup h _)]
  cases hc : lookup s.consoles d with
  | none => simp
  | some c =>
    rw [if_congr (hmem c hc) rfl rfl]
    split <;> simp_all

/-- A notice of the part reaches every ATTACHED console. -/
theorem lookup_notifyAll_attached {s : State} (h : risingKeys s.consoles = true) (d : Nat) (n : Notice) :
    lookup (s.notifyAll n).consoles d = (lookup s.consoles d).map fun c =>
      if c.attached = true then c.take n else c := by
  rw [lookup_notifyAll h]
  refine congrArg (Option.map · _) (funext fun c => ?_)
  by_cases ha : c.attached = true
  · rw [if_pos ha]
  · rw [if_neg ha, Console.take, if_neg ha]

theorem notifyArea_rising {s : State} (h : risingKeys s.consoles = true) (a : Nat) (n : Notice) :
    risingKeys (s.notifyArea a n).consoles = true := notifyEach_rising h n _

/-! ## The notices of the engine's records (R132) -/

/-- The console at `d` has taken at most `k` notices, each one of `P`. -/
def TakesNotices (P : Notice → Prop) (d k : Nat) (s t : State) : Prop :=
  ∀ c, lookup s.consoles d = some c →
    ∃ l : List Notice, lookup t.consoles d = some (c.takeAll l) ∧ l.length ≤ k ∧ ∀ n ∈ l, P n

section
variable {P : Notice → Prop} {d : Nat} {s t u : State}

theorem TakesNotices.of_eq (h : t.consoles = s.consoles) (k : Nat) : TakesNotices P d k s t :=
  fun c hc => ⟨[], by rw [h]; exact hc, Nat.zero_le _, by simp⟩

theorem TakesNotices.trans {j k : Nat} (h : TakesNotices P d j s t) (h' : TakesNotices P d k t u) :
    TakesNotices P d (j + k) s u := by
  intro c hc
  obtain ⟨l, ht, hl, hP⟩ := h c hc
  obtain ⟨m, hu, hm, hP'⟩ := h' _ ht
  refine ⟨l ++ m, by rw [hu, takeAll_append], by rw [List.length_append]; omega, fun n hn => ?_⟩
  exact (List.mem_append.mp hn).elim (hP n) (hP' n)

theorem notify_takesNotices (s : State) (a : Nat) {n : Notice} (hn : P n) : TakesNotices P d 1 s (s.notify a n) := by
  intro c hc
  rw [State.notify, lookup_modConsole]
  by_cases hd : d = a
  · rw [if_pos hd, ← hd, hc]
    exact ⟨[n], rfl, le_rfl, by simpa using hn⟩
  · rw [if_neg hd]
    exact ⟨[], hc, Nat.zero_le _, by simp⟩

theorem notifyArea_takesNotices (hr : risingKeys s.consoles = true) (a : Nat) {n : Notice} (hn : P n) :
    TakesNotices P d 1 s (s.notifyArea a n) := by
  intro c hc
  rw [lookup_notifyArea hr, hc, Option.map_some]
  split
  · exact ⟨[n], rfl, le_rfl, by simpa using hn⟩
  · exact ⟨[], rfl, Nat.zero_le _, by simp⟩

end

theorem engineEvent_takesNotices (d : Nat) (cs : List SlotChange) (xs : List ShelfEvent) (s : State) :
    TakesNotices (·.kindCode = 3) d s.records.length s (engineEvent cs xs s) := by
  have hone (t : State) (h : Handover) : TakesNotices (·.kindCode = 3) d 1 t (reviewRecord s cs xs t h) := by
    unfold reviewRecord
    dsimp only
    split
    · exact TakesNotices.trans (j := 0) (t := t.setRecord (reviewEvent s cs xs h).1) (.of_eq rfl 0)
        (notify_takesNotices (P := (·.kindCode = 3)) _ _ rfl)
    · exact .of_eq rfl 1
  have hfold (l : List Handover) (t : State) :
      TakesNotices (·.kindCode = 3) d l.length t (l.foldl (reviewRecord s cs xs) t) := by
    induction l generalizing t with
    | nil => exact .of_eq rfl 0
    | cons h l ih =>
      have htwo := (hone t h).trans (ih _)
      rwa [Nat.add_comm] at htwo
  rw [engineEvent_eq]
  exact hfold _ _

/-! ## The NEW_ALARMs (R99, R100) -/

theorem SamePages.trans {s t u : State} (h : SamePages s t) (k : SamePages t u) : SamePages s u :=
  ⟨k.tables.trans h.tables, k.slots.trans h.slots, k.queue.trans h.queue, k.areas.trans h.areas⟩

theorem SamePages.newAlarmNotice {s t : State} (h : SamePages s t) (a : Nat) :
    newAlarmNotice t a = Machine.newAlarmNotice s a := by
  have hp : t.pointDef = s.pointDef := funext (pointDef_congr (congrArg _ h.tables))
  unfold Machine.newAlarmNotice unackedCount
  rw [h.generation, hp, h.slots, h.queue]

theorem silencedChange_congr {s t : State} (h : t.slots = s.slots) : silencedChange t = silencedChange s := by
  funext x
  unfold silencedChange
  rw [h]

/-- A console receives the NEW_ALARM of an area: not every change there is silenced, and an operator seated at it has
VIEW. -/
def tellsArea (s : State) (cs : List SlotChange) (c : Console) (a : Nat) : Bool :=
  !((cs.filter fun x => x.area == a).all (silencedChange s)) && c.operators.any fun op => s.hasRight op a .view

/-- The NEW_ALARMs that a console receives, by ascending area. -/
def newAlarms (s : State) (cs : List SlotChange) (c : Console) : List Notice :=
  ((namedAreas cs).filter (tellsArea s cs c)).map (newAlarmNotice s)

theorem SamePages.tellsArea {s t : State} (h : SamePages s t) (cs : List SlotChange) (c : Console) :
    tellsArea t cs c = Machine.tellsArea s cs c := by
  funext a
  unfold Machine.tellsArea
  simp only [silencedChange_congr h.slots, hasRight_congr h.tables]

theorem SamePages.newAlarms {s t : State} (h : SamePages s t) (cs : List SlotChange) (c : Console) :
    newAlarms t cs c = Machine.newAlarms s cs c := by
  unfold Machine.newAlarms
  rw [h.tellsArea, show Machine.newAlarmNotice t = Machine.newAlarmNotice s from funext h.newAlarmNotice]

theorem notifyArea_samePages (s : State) (a : Nat) (n : Notice) : SamePages s (s.notifyArea a n) := by
  rw [State.notifyArea, notifyEach_frame]
  exact ⟨rfl, rfl, rfl, rfl⟩

/-- One step of `queueNewAlarms`, where `s` is the state at its start. -/
def tellArea (s : State) (cs : List SlotChange) (acc : State) (a : Nat) : State :=
  if (cs.filter fun x => x.area == a).all (silencedChange s) then acc else acc.notifyArea a (newAlarmNotice s a)

theorem queueNewAlarms_eq (cs : List SlotChange) (s : State) :
    queueNewAlarms cs s = (namedAreas cs).foldl (tellArea s cs) s := rfl

theorem tellArea_samePages (s : State) (cs : List SlotChange) (t : State) (a : Nat) :
    SamePages t (tellArea s cs t a) := by
  unfold tellArea
  split
  · exact ⟨rfl, rfl, rfl, rfl⟩
  · exact notifyArea_samePages ..

theorem tellArea_rising (s : State) (cs : List SlotChange) {t : State} (h : risingKeys t.consoles = true) (a : Nat) :
    risingKeys (tellArea s cs t a).consoles = true := by
  unfold tellArea
  split
  · exact h
  · exact notifyArea_rising h ..

theorem lookup_tellArea {s t : State} (hs : SamePages s t) (ht : risingKeys t.consoles = true) (cs : List SlotChange)
    {d : Nat} {c : Console} (hc : lookup t.consoles d = some c) (ha : c.attached = true) (a : Nat) :
    lookup (tellArea s cs t a).consoles d
      = some (if tellsArea s cs c a = true then c.take (newAlarmNotice s a) else c) := by
  unfold tellArea tellsArea
  by_cases hsil : (cs.filter fun x => x.area == a).all (silencedChange s) = true
  · rw [if_pos hsil, hsil, hc]
    rfl
  · rw [if_neg hsil, lookup_notifyArea ht, hc, Bool.eq_false_iff.mpr hsil, Option.map_some, ha]
    simp only [hasRight_congr hs.tables, Bool.true_and, Bool.not_false]

theorem lookup_tellAreas {s : State} (cs : List SlotChange) {d : Nat} (l : List Nat) {t : State} (hs : SamePages s t)
    (ht : risingKeys t.consoles = true) {c : Console} (hc : lookup t.consoles d = some c) (ha : c.attached = true) :
    lookup (l.foldl (tellArea s cs) t).consoles d
      = some (c.takeAll ((l.filter (tellsArea s cs c)).map (newAlarmNotice s))) := by
  induction l generalizing t c with
  | nil => exact hc
  | cons a l ih =>
    have hstep := lookup_tellArea hs ht cs hc ha a
    have hs' := hs.trans (tellArea_samePages s cs t a)
    have ht' := tellArea_rising s cs ht a
    rw [List.foldl_cons]
    by_cases htell : tellsArea s cs c a = true
    · rw [if_pos htell] at hstep
      obtain ⟨q, hq⟩ := take_same c (newAlarmNotice s a)
      have hsame : tellsArea s cs (c.take (newAlarmNotice s a)) = tellsArea s cs c := by rw [hq]; rfl
      rw [ih hs' ht' hstep (by rw [hq]; exact ha), hsame, List.filter_cons, if_pos htell]
      rfl
    · rw [if_neg htell] at hstep
      rw [ih hs' ht' hstep ha, List.filter_cons, if_neg htell]

theorem lookup_queueNewAlarms {s : State} (hr : risingKeys s.consoles = true) (cs : List SlotChange) {d : Nat}
    {c : Console} (hc : lookup s.consoles d = some c) (ha : c.attached = true) :
    lookup (queueNewAlarms cs s).consoles d = some (c.takeAll (newAlarms s cs c)) := by
  rw [queueNewAlarms_eq]
  exact lookup_tellAreas cs _ ⟨rfl, rfl, rfl, rfl⟩ hr hc ha

theorem queueNewAlarms_rising {s : State} (hr : risingKeys s.consoles = true) (cs : List SlotChange) :
    risingKeys (queueNewAlarms cs s).consoles = true := by
  rw [queueNewAlarms_eq]
  exact List.foldlRecOn (motive := fun t : State => risingKeys t.consoles = true) _ _ hr
    fun _ ht a _ => tellArea_rising s cs ht a

/-! ## The horns (R77 to R79) -/

/-- The horn of the console `c` at an address after an event (R78): both steps of the evaluation. -/
def hornAfter (before s : State) (cs : List SlotChange) (a : Nat) (c : Console) : Horn :=
  if sounds before s cs a c = true then .sounding
  else if (c.attached && !anyQualifies s a c) = true then .quiet
  else c.horn

/-- A console whose horn takes a state, with its NOTE HORN where that changes it (R77). -/
def Console.withHorn (c : Console) (h : Horn) : Console :=
  if c.horn = h then c else Console.take { c with horn := h } (.horn h)

theorem qualifies_congr {s t : State} (h : t.tables = s.tables) (a : Nat) (c : Console) (sl : Slot) :
    qualifies t a c sl = qualifies s a c sl := by
  unfold qualifies State.hornLevel State.stationAt
  simp only [pointDef_congr (congrArg Tables.points h), hasRight_congr h, h]

theorem SamePages.hornAfter {s t : State} (h : SamePages s t) (b : State) (cs : List SlotChange) (a : Nat)
    (c : Console) : hornAfter b t cs a c = Machine.hornAfter b s cs a c := by
  unfold Machine.hornAfter sounds anyQualifies
  simp only [h.slots, qualifies_congr h.tables]

theorem hornAfter_takeAll (b s : State) (cs : List SlotChange) (a : Nat) (c : Console) (l : List Notice) :
    hornAfter b s cs a (c.takeAll l) = hornAfter b s cs a c := by
  obtain ⟨q, hq⟩ := takeAll_same c l
  rw [hq]
  rfl

theorem lookup_setHorn (s : State) (a d : Nat) (h : Horn) : lookup (s.setHorn a h).consoles d =
    if d = a then (lookup s.consoles d).map (·.withHorn h) else lookup s.consoles d := by
  unfold State.setHorn
  by_cases hd : d = a
  · subst hd
    rw [if_pos rfl]
    cases hc : lookup s.consoles d with
    | none => simp [hc]
    | some c =>
      dsimp only
      split
      · next hh => rw [hc, Option.map_some, Console.withHorn, if_pos hh]
      · next hh =>
        rw [State.notify, modConsole_modConsole, lookup_modConsole, if_pos rfl, hc, Option.map_some, Option.map_some,
          Console.withHorn, if_neg hh]
  · rw [if_neg hd]
    split
    · split
      · rfl
      · rw [State.notify, modConsole_modConsole, lookup_modConsole, if_neg hd]
    · rfl

theorem withHorn_self (c : Console) : c.withHorn c.horn = c := if_pos rfl

theorem lookup_hornStep (b : State) (cs : List SlotChange) (s : State) (a d : Nat) :
    lookup (hornStep b cs s a).consoles d =
      if d = a then (lookup s.consoles d).map fun c => c.withHorn (hornAfter b s cs d c) else lookup s.consoles d := by
  unfold hornStep State.hornStep2 hornAfter
  by_cases hd : d = a
  · subst hd
    rw [if_pos rfl]
    cases hc : lookup s.consoles d with
    | none => simp [hc]
    | some c =>
      dsimp only
      split
      · rw [lookup_setHorn, if_pos rfl, hc]
        simp_all
      · split
        · rw [lookup_setHorn, if_pos rfl, hc]
          simp_all
        · rw [hc, Option.map_some, if_neg ‹_›, if_neg ‹_›, withHorn_self]
  · rw [if_neg hd]
    split
    · split
      · rw [lookup_setHorn, if_neg hd]
      · split
        · split
          · rw [lookup_setHorn, if_neg hd]
          · rfl
        · rfl
    · rfl

theorem hornStep_samePages (b : State) (cs : List SlotChange) (s : State) (a : Nat) :
    SamePages s (hornStep b cs s a) := by
  rw [hornStep_frame]
  exact ⟨rfl, rfl, rfl, rfl⟩

/-- The horn evaluation reaches each console of the list once. -/
theorem lookup_hornSteps (b : State) (cs : List SlotChange) {l : List Nat} (hl : l.Nodup) (s : State) (d : Nat) :
    lookup (l.foldl (hornStep b cs) s).consoles d =
      if d ∈ l then (lookup s.consoles d).map fun c => c.withHorn (hornAfter b s cs d c) else lookup s.consoles d := by
  induction l generalizing s with
  | nil => simp
  | cons a l ih =>
    obtain ⟨ha, hl⟩ := List.nodup_cons.mp hl
    rw [List.foldl_cons, ih hl, lookup_hornStep]
    simp only [(hornStep_samePages b cs s a).hornAfter]
    by_cases hd : d = a
    · subst hd
      simp [ha]
    · simp [hd]

theorem lookup_evaluateHorns {s : State} (hr : risingKeys s.consoles = true) (b : State) (cs : List SlotChange)
    {d : Nat} {c : Console} (hc : lookup s.consoles d = some c) (ha : c.attached = true) :
    lookup (evaluateHorns b cs s).consoles d = some (c.withHorn (hornAfter b s cs d c)) := by
  have hd : d ∈ s.attachedConsoles := List.mem_map.mpr ⟨(d, c), List.mem_filter.mpr ⟨mem_of_lookup hc, ha⟩, rfl⟩
  unfold evaluateHorns
  rw [lookup_hornSteps b cs (l := s.attachedConsoles) (keys_nodup hr _), if_pos hd, hc]
  rfl

/-! ## Handing on, at one console -/

theorem handOn_of_changes {e : Ev} (h : e.changes ≠ []) (b : State) (xs : List ShelfEvent) :
    handOn b e xs = evaluateHorns b e.changes (queueNewAlarms e.changes
      (engineEvent e.changes xs (advanceGenerations (namedAreas e.changes) e.s))) :=
  if_neg (by simpa using h)

theorem evaluateHorns_samePages (b : State) (cs : List SlotChange) (s : State) :
    SamePages s (evaluateHorns b cs s) := by
  rw [evaluateHorns_frame]
  exact ⟨rfl, rfl, rfl, rfl⟩

theorem queueNewAlarms_samePages (cs : List SlotChange) (s : State) : SamePages s (queueNewAlarms cs s) := by
  rw [queueNewAlarms_frame]
  exact ⟨rfl, rfl, rfl, rfl⟩

/-- What handing on does to an ATTACHED console: the HANDOVERs of the records, the NEW_ALARMs it is told, and its horn,
all by the state that the event leaves. -/
theorem lookup_handOn {e : Ev} (hne : e.changes ≠ []) (hr : risingKeys e.s.consoles = true) (b : State)
    (xs : List ShelfEvent) {d : Nat} {c : Console} (hc : lookup e.s.consoles d = some c) (ha : c.attached = true) :
    ∃ l : List Notice, l.length ≤ e.s.records.length ∧ (∀ n ∈ l, n.kindCode = 3)
      ∧ lookup (handOn b e xs).consoles d = some ((c.takeAll (l ++ newAlarms (handOn b e xs) e.changes c)).withHorn
          (hornAfter b (handOn b e xs) e.changes d c)) := by
  have hadv : (advanceGenerations (namedAreas e.changes) e.s).consoles = e.s.consoles := by
    rw [advanceGenerations_frame]
  have hrec : (advanceGenerations (namedAreas e.changes) e.s).records = e.s.records := by
    rw [advanceGenerations_frame]
  obtain ⟨l, hl, hlen, hkind⟩ := engineEvent_takesNotices d e.changes xs _ c (by rw [hadv]; exact hc)
  have hr2 := (engineEvent_grows (advanceGenerations (namedAreas e.changes) e.s) d e.changes xs).rising
    (by rw [hadv]; exact hr)
  rw [hrec] at hlen
  rw [handOn_of_changes hne]
  generalize engineEvent e.changes xs (advanceGenerations (namedAreas e.changes) e.s) = u at hl hr2 ⊢
  obtain ⟨q, hq⟩ := takeAll_same c l
  have hatt : (c.takeAll l).attached = true := by rw [hq]; exact ha
  have hnew := lookup_queueNewAlarms hr2 e.changes hl hatt
  have hsame : newAlarms u e.changes (c.takeAll l) = newAlarms u e.changes c := by rw [hq]; rfl
  rw [hsame, ← takeAll_append] at hnew
  obtain ⟨q', hq'⟩ := takeAll_same c (l ++ newAlarms u e.changes c)
  have hhorn := lookup_evaluateHorns (queueNewAlarms_rising hr2 _) b e.changes hnew (by rw [hq']; exact ha)
  have hpages := queueNewAlarms_samePages e.changes u
  have hpages' := evaluateHorns_samePages b e.changes (queueNewAlarms e.changes u)
  refine ⟨l, hlen, hkind, ?_⟩
  rw [hhorn, hornAfter_takeAll, (hpages.trans hpages').newAlarms, hpages'.hornAfter]

end Sys2Proof.Machine

/-! PROOFS. The horns and notices that follow an event (R77 to R79, R99 to R101, R105). -/

namespace Sys2Proof.Machine

-- The proofs are elaborated one after another: side by side each would hold a thread and its stack.
set_option Elab.async false

/-! ## The tests of the horn and of the notices, as the statement words them (R78, R100) -/

theorem qualifies_iff (s : State) (a : Nat) (c : Console) (sl : Slot) :
    qualifies s a c sl = true ↔ QualifyingAlarm s a c sl := by
  simp [qualifies, QualifyingAlarm, Slot.unacked, Slot.audible, and_assoc]

theorem anyQualifies_iff (s : State) (a : Nat) (c : Console) :
    anyQualifies s a c = true ↔ ∃ x ∈ s.slots, QualifyingAlarm s a c x.2 := by
  simp [anyQualifies, qualifies_iff]

/-- Slot `i` held a qualifying alarm before the event, and no other alarm has taken it in the event. -/
def SlotKnown (before : State) (cs : List SlotChange) (d i : Nat) : Prop :=
  (∀ y ∈ cs, y.slot = some i → y.kind ≠ .onset ∧ y.kind ≠ .admission)
    ∧ ∃ c0 x0, lookup before.consoles d = some c0 ∧ lookup before.slots i = some x0 ∧ QualifyingAlarm before d c0 x0

/-- A slot of the event sounds the horn of the console `c` at `d`. -/
def SoundsHorn (before t : State) (cs : List SlotChange) (d : Nat) (c : Console) : Prop :=
  ∃ x ∈ cs, ∃ i sl, x.slot = some i ∧ lookup t.slots i = some sl ∧ QualifyingAlarm t d c sl
    ∧ (¬ SlotKnown before cs d i ∨ ∃ y ∈ cs, y.slot = some i ∧ y.advanced = true)

/-- The change concerns a slot of its point that carries SHELVED, CHATTER or SUPPRESSED after the event. -/
def ChangeSilenced (t : State) (x : SlotChange) : Prop :=
  x.kind ≠ .free ∧ x.kind ≠ .evict ∧ x.kind ≠ .discard ∧ ∃ i sl, x.slot = some i ∧ lookup t.slots i = some sl
    ∧ sl.point = x.point ∧ (sl.shelved = true ∨ sl.chatter = true ∨ sl.suppressed = true)

/-- The event tells the console `c` of area `a`. -/
def AreaTold (t : State) (cs : List SlotChange) (c : Console) (a : Nat) : Prop :=
  (∃ x ∈ cs, x.area = a ∧ ¬ ChangeSilenced t x) ∧ (c.operators.any fun op => t.hasRight op a .view) = true

theorem qualifiedBefore_iff (before : State) (cs : List SlotChange) (d i : Nat) :
    qualifiedBefore before cs d i = true ↔ SlotKnown before cs d i := by
  unfold qualifiedBefore SlotKnown
  rw [Bool.and_eq_true]
  refine and_congr (by simp) ?_
  cases hc : lookup before.consoles d with
  | none => simp
  | some c =>
    cases hx : lookup before.slots i with
    | none => simp
    | some x => simp [qualifies_iff]

theorem sounds_iff (before t : State) (cs : List SlotChange) (d : Nat) (c : Console) :
    sounds before t cs d c = true ↔ SoundsHorn before t cs d c := by
  unfold sounds SoundsHorn
  rw [List.any_eq_true]
  refine exists_congr fun x => and_congr_right fun _ => ?_
  cases hi : x.slot with
  | none => simp
  | some i =>
    cases hl : lookup t.slots i with
    | none => simp [hl]
    | some sl =>
      have hk := qualifiedBefore_iff before cs d i
      simp [hl, qualifies_iff, ← hk]

theorem silencedChange_iff (t : State) (x : SlotChange) : silencedChange t x = true ↔ ChangeSilenced t x := by
  constructor
  · intro h
    obtain ⟨i, sl, hi, hl, hp, ha⟩ := slot_of_silencedChange t x h
    have hkind {k : ChangeKind} (hk : k = .free ∨ k = .evict ∨ k = .discard) : x.kind ≠ k := by
      rintro rfl
      rw [silencedChange_of_freed t x hk] at h
      cases h
    refine ⟨hkind (by simp), hkind (by simp), hkind (by simp), i, sl, hi, hl, hp, ?_⟩
    simpa [Slot.audible, imp_iff_not_or, or_assoc] using ha
  · rintro ⟨hf, he, hd, i, sl, hi, hl, hp, ho⟩
    refine silencedChange_of_inaudible t x i sl hi hl hp ?_ hf he hd
    obtain h | h | h := ho <;> simp [Slot.audible, h]

theorem tellsArea_iff (t : State) (cs : List SlotChange) (c : Console) (a : Nat) :
    tellsArea t cs c a = true ↔ AreaTold t cs c a := by
  unfold tellsArea AreaTold
  rw [Bool.and_eq_true]
  refine and_congr_left fun _ => ?_
  simp [← silencedChange_iff]

theorem mem_namedAreas_of_told {t : State} {cs : List SlotChange} {c : Console} {a : Nat} (h : AreaTold t cs c a) :
    a ∈ namedAreas cs := by
  obtain ⟨⟨x, hx, rfl, -⟩, -⟩ := h
  exact mem_ascending.mpr (List.mem_map_of_mem hx)

/-! ## The queue after the event -/

theorem mem_newAlarms {t : State} {cs : List SlotChange} {c : Console} {n : Notice} :
    n ∈ newAlarms t cs c ↔ ∃ a, AreaTold t cs c a ∧ newAlarmNotice t a = n := by
  unfold newAlarms
  simp only [List.mem_map, List.mem_filter, tellsArea_iff]
  exact exists_congr fun a => and_congr_left fun _ => ⟨And.right, fun h => ⟨mem_namedAreas_of_told h, h⟩⟩

theorem newAlarms_length_le (t : State) (cs : List SlotChange) (c : Console) :
    (newAlarms t cs c).length ≤ (namedAreas cs).length := by
  unfold newAlarms
  rw [List.length_map]
  exact List.length_filter_le ..

theorem newAlarms_pairwise (t : State) (cs : List SlotChange) (c : Console) :
    (newAlarms t cs c).Pairwise fun x y => y.sameKey x = false := by
  refine List.pairwise_map.mpr (((ascending_nodup _).filter _).imp fun {a b} hab => ?_)
  simp [Notice.sameKey, newAlarmNotice, Notice.subject, Ne.symm hab]

theorem withHorn_same (c : Console) (h : Horn) : { c.withHorn h with horn := c.horn, notices := c.notices } = c := by
  unfold Console.withHorn
  split
  · rfl
  · obtain ⟨q, hq⟩ := take_same { c with horn := h } (.horn h)
    rw [hq]

theorem withHorn_horn (c : Console) (h : Horn) : (c.withHorn h).horn = h := by
  unfold Console.withHorn
  split
  · assumption
  · obtain ⟨q, hq⟩ := take_same { c with horn := h } (.horn h)
    rw [hq]

theorem withHorn_subset {c : Console} {h : Horn} {n : Notice} (hn : n ∈ (c.withHorn h).notices) :
    n ∈ c.notices ∨ n = .horn h ∨ n.kindCode = 10 := by
  unfold Console.withHorn at hn
  split at hn
  · exact .inl hn
  · exact take_subset (c := { c with horn := h }) hn

theorem withHorn_keeps {c : Console} {n : Notice} (h : Horn) (hn : n ∈ c.notices) (hk : n.kindCode = 1)
    (hroom : c.notices.length < 32) : n ∈ (c.withHorn h).notices := by
  unfold Console.withHorn
  split
  · exact hn
  · obtain ⟨hmem, -⟩ := take_keeps (c := { c with horn := h }) (m := .horn h)
      (by simp [Notice.sameKey, hk, show (Notice.horn h).kindCode = 9 from rfl]) hn hroom
    exact hmem

theorem withHorn_mem {c : Console} {h : Horn} (ha : c.attached = true) (hne : c.horn ≠ h)
    (hroom : c.notices.length < 32) : .horn h ∈ (c.withHorn h).notices := by
  unfold Console.withHorn
  rw [if_neg hne]
  obtain ⟨hmem, -⟩ := take_mem (c := { c with horn := h }) ha hroom (.horn h)
  exact hmem

/-- What an event with slot changes, handed on from `e` to `t`, leaves of the ATTACHED console `c` at `d` (R78,
R100). -/
structure EventTold (before : State) (e : Ev) (t : State) (d : Nat) (c k : Console) : Prop where
  same : { k with horn := c.horn, notices := c.notices } = c
  sounding : SoundsHorn before t e.changes d c → k.horn = .sounding
  quiet : ¬ SoundsHorn before t e.changes d c → (∀ x ∈ t.slots, ¬ QualifyingAlarm t d c x.2) → k.horn = .quiet
  still : ¬ SoundsHorn before t e.changes d c → (∃ x ∈ t.slots, QualifyingAlarm t d c x.2) → k.horn = c.horn
  untold : ∀ a, ¬ AreaTold t e.changes c a → ∀ n ∈ k.notices, n.kindCode = 1 → n.subject = a → n ∈ c.notices
  horn : c.notices.length + e.s.records.length + (namedAreas e.changes).length + 1 ≤ 32 → k.horn ≠ c.horn →
    Notice.horn k.horn ∈ k.notices
  told : c.notices.length + e.s.records.length + (namedAreas e.changes).length + 1 ≤ 32 →
    ∀ a, AreaTold t e.changes c a → newAlarmNotice t a ∈ k.notices

theorem handOn_tells {e : Ev} (hne : e.changes ≠ []) (hr : risingKeys e.s.consoles = true) (before : State)
    (xs : List ShelfEvent) {d : Nat} {c : Console} (hc : lookup e.s.consoles d = some c) (ha : c.attached = true) :
    ∃ k, lookup (handOn before e xs).consoles d = some k ∧ EventTold before e (handOn before e xs) d c k := by
  obtain ⟨l, hlen, hkind, hlook⟩ := lookup_handOn hne hr before xs hc ha
  refine ⟨_, hlook, ?_⟩
  generalize handOn before e xs = t
  have hnew := newAlarms_length_le t e.changes c
  have hcount := takeAll_length_le c (l ++ newAlarms t e.changes c)
  have hcount' := takeAll_length_le c l
  rw [List.length_append] at hcount
  obtain ⟨q, hq⟩ := takeAll_same c (l ++ newAlarms t e.changes c)
  have hhorn : (c.takeAll (l ++ newAlarms t e.changes c)).horn = c.horn := by rw [hq]
  constructor
  case same =>
    have hsame := withHorn_same (c.takeAll (l ++ newAlarms t e.changes c)) (hornAfter before t e.changes d c)
    rw [hq] at hsame ⊢
    exact congrArg (fun k : Console => { k with notices := c.notices }) hsame
  case sounding =>
    intro hs
    rw [withHorn_horn, hornAfter, if_pos ((sounds_iff ..).mpr hs)]
  case quiet =>
    intro hs hno
    have hany : anyQualifies t d c = false := Bool.eq_false_iff.mpr fun h => by
      obtain ⟨x, hx, hxq⟩ := (anyQualifies_iff ..).mp h
      exact hno x hx hxq
    rw [withHorn_horn, hornAfter, if_neg (mt (sounds_iff ..).mp hs), hany, ha]
    rfl
  case still =>
    intro hs hsome
    rw [withHorn_horn, hornAfter, if_neg (mt (sounds_iff ..).mp hs), (anyQualifies_iff ..).mpr hsome, ha]
    rfl
  case untold =>
    intro a hnot n hn hk hsub
    obtain hn | rfl | hk' := withHorn_subset hn
    · obtain hn | hn | hk' := takeAll_subset hn
      · exact hn
      · obtain hn | hn := List.mem_append.mp hn
        · exact absurd ((hkind n hn).symm.trans hk) (by decide)
        · obtain ⟨b, hb, rfl⟩ := mem_newAlarms.mp hn
          exact absurd (hsub ▸ hb) hnot
      · exact absurd (hk'.symm.trans hk) (by decide)
    · cases hk
    · exact absurd (hk'.symm.trans hk) (by decide)
  case horn =>
    intro hroom hchanged
    rw [withHorn_horn] at hchanged ⊢
    exact withHorn_mem (by rw [hq]; exact ha) (by rw [hhorn]; exact hchanged.symm) (by omega)
  case told =>
    intro hroom a htold
    refine withHorn_keeps _ ?_ rfl (by omega)
    obtain ⟨q', hq'⟩ := takeAll_same c l
    rw [takeAll_append]
    exact takeAll_mem (by rw [hq']; exact ha) (mem_newAlarms.mpr ⟨a, htold, rfl⟩) (newAlarms_pairwise ..) (by omega)

end Sys2Proof.Machine

/-! PROOFS. The horn and the notice of an onset, the notice of a claim, and O33 (R78, R100, R105). -/

namespace Sys2Proof.Machine

-- The proofs are elaborated one after another: side by side each would hold a thread and its stack.
set_option Elab.async false

/-! ## The notices of the load stage (R45) -/

theorem addLoad_takes {s : State} (hr : risingKeys s.consoles = true) (a w d : Nat) :
    TakesNotices (·.kindCode = 4) d 1 s (s.addLoad a w) ∧ risingKeys (s.addLoad a w).consoles = true := by
  unfold State.addLoad State.enterFlood
  dsimp only
  split
  · have hset (u : State) (hu : u.consoles = s.consoles) :
        TakesNotices (·.kindCode = 4) d 1 s ((u.notifyArea a (.flood a true)).latch .floodAny) := by
      have hru : risingKeys u.consoles = true := by rw [hu]; exact hr
      have hnote : TakesNotices (·.kindCode = 4) d 1 u (u.notifyArea a (.flood a true)) :=
        notifyArea_takesNotices hru a rfl
      exact ((TakesNotices.of_eq hu 0).trans hnote).trans (.of_eq (State.latch_consoles ..) 0)
    refine ⟨hset _ rfl, ?_⟩
    rw [State.latch_consoles]
    exact notifyArea_rising (by exact hr) ..
  · exact ⟨.of_eq rfl 1, hr⟩

theorem loadOne_takes {s : State} (hr : risingKeys s.consoles = true) (x : SlotChange) (d : Nat) :
    TakesNotices (·.kindCode = 4) d 1 s (loadOne { s := s } x).s
      ∧ risingKeys (loadOne { s := s } x).s.consoles = true := by
  cases h : isCounted s x with
  | false =>
    rw [loadOne_of_uncounted h]
    exact ⟨.of_eq rfl 1, hr⟩
  | true =>
    rw [loadOne_of_counted h]
    exact addLoad_takes hr ..

theorem loadOne_changes (s : State) (x : SlotChange) :
    ∃ b, (loadOne { s := s } x).changes = [{ x with counted := b }] := by
  cases h : isCounted s x with
  | false => exact ⟨x.counted, by rw [loadOne_of_uncounted h]⟩
  | true => exact ⟨true, by rw [loadOne_of_counted h]⟩

section
variable {s : State} {p : Nat} {c : Condition} {x : SlotChange} (h : TablePart s p c (some x))
include h

theorem loadedReport_eq_loadOne : loadedReport s p c = loadOne { s := (reportedEv s p c).s }
    (reportFacts p (reportStage1 (s.pointDef p) (s.dynOf p) c) x) := by
  unfold loadedReport
  rw [h.changes]
  rfl

theorem loadedReport_takes (hr : risingKeys s.consoles = true) (d : Nat) :
    TakesNotices (·.kindCode = 4) d 1 s (loadedReport s p c).s
      ∧ risingKeys (loadedReport s p c).s.consoles = true := by
  have hcons : (reportedEv s p c).s.consoles = s.consoles := by
    rw [h.frame]
    exact (reporting_reporting s p c).consoles
  obtain ⟨htakes, hrise⟩ := loadOne_takes (s := (reportedEv s p c).s) (by rwa [hcons])
    (reportFacts p (reportStage1 (s.pointDef p) (s.dynOf p) c) x) d
  rw [loadedReport_eq_loadOne h]
  exact ⟨(TakesNotices.of_eq hcons 0).trans htakes, hrise⟩

theorem loadedReport_change : ∃ y, (loadedReport s p c).changes = [y] ∧ y.slot = x.slot ∧ y.kind = x.kind
    ∧ y.area = x.area := by
  obtain ⟨b, hb⟩ := loadOne_changes (reportedEv s p c).s (reportFacts p (reportStage1 (s.pointDef p) (s.dynOf p) c) x)
  rw [loadedReport_eq_loadOne h]
  exact ⟨_, hb, rfl, rfl, rfl⟩

end

/-! ## The event of an onset (R17, R78) -/

/-- The event that the PREP of an onset of point `p` into slot `i` hands on, from `e` to `t`. -/
structure OnsetEvent (s t : State) (p i a : Nat) (before : State) (e : Ev) : Prop where
  change : ∃ y, e.changes = [y] ∧ y.slot = some i ∧ y.kind = .onset ∧ y.area = a
  takes : ∀ d, risingKeys s.consoles = true → TakesNotices (·.kindCode = 4) d 1 s e.s
  rising : risingKeys s.consoles = true → risingKeys e.s.consoles = true
  records : e.s.records = s.records
  consoles : t.consoles = (handOn before e []).consoles
  pages : SamePages (handOn before e []) t
  slot : ∃ sl, lookup t.slots i = some sl ∧ sl.point = p
  area : (t.pointDef p).area = a

theorem exec_prep_onset {s : State} {f : Frame} {data : List Byte} {p i a : Nat} (h : OnsetReport s f data p i a)
    (ms : Nat) : ∃ t before e, exec (.prep ms f) s = .next t ∧ OnsetEvent s t p i a before e := by
  obtain ⟨harr, hctl, hown, hrecs, hlen, hp, hcond, hpc, hdef, hmine, ha, hs, hq, hi, hfree, hlow, hsound⟩ := h
  have hcmd := exec_prep_one (c := .active) ⟨harr, hctl, hown, hrecs, hlen, hp, hcond, hpc, hdef, hmine, hsound⟩ ms
  have hhand : reportEvent p .active (s.heard ms .plant f)
      = handOn (s.heard ms .plant f) (loadedReport (s.heard ms .plant f) p .active) [] := reportEvent_handOn ..
  have hs' := (slotOf_congr (heard_slots s ms f) p).trans hs
  have hq' := (queued_congr (heard_queue s ms f) p).trans hq
  have hf := (lowestFree_congr (heard_slots s ms f)).trans (lowestFree_of_free hi hfree hlow)
  have hh := heard_heardFrom s ms f
  have htab := heard_tables s ms f
  rw [hhand, followReport_eq] at hcmd
  generalize s.heard ms .plant f = u at hcmd hs' hq' hf hh htab
  have hx := onset_tablePart hs' hq' hf
  have hload : (loadedReport u p .active).s.tables = s.tables :=
    (tables_of_kept (loadedReport_part hx).kept).trans (hx.tables.trans htab)
  obtain ⟨hslot, -⟩ := loadedReport_slot hx (reportedEv_onset_slotOf hs' hq' hf)
  refine ⟨_, u, loadedReport u p .active, hcmd, ?_⟩
  constructor
  case change =>
    obtain ⟨y, hy, hslot, hkind, harea⟩ := loadedReport_change hx
    obtain ⟨ht, -⟩ := reporting_congr u p .active
    refine ⟨y, hy, hslot, hkind, harea.trans ?_⟩
    rw [← ha]
    exact congrArg PointDef.area (pointDef_congr (congrArg Tables.points (ht.trans htab)) p)
  case takes =>
    exact fun d hr => (TakesNotices.of_eq hh.consoles 0).trans (loadedReport_takes hx (by rwa [hh.consoles]) d).1
  case rising => exact fun hr => (loadedReport_takes hx (by rwa [hh.consoles]) 0).2
  case records => exact (loadedReport_records hx).trans hh.records
  case consoles => exact State.modController_consoles ..
  case pages =>
    exact ⟨State.modController_tables .., State.modController_slots .., State.modController_queue ..,
      State.modController_areas ..⟩
  case slot => exact ⟨_, by rw [State.modController_slots, handOn_slots]; exact hslot, rfl⟩
  case area =>
    have ht := (State.modController_tables (handOn u (loadedReport u p .active) []) f.source.toNat
      (followed p .active)).trans ((handOn_tables ..).trans hload)
    rw [pointDef_congr (congrArg Tables.points ht), ha]

/-- Who has ACK in an area has VIEW there (R90). -/
theorem hasRight_view_of_ack {s : State} {op a : Nat} (h : s.hasRight op a .ack = true) :
    s.hasRight op a .view = true := by
  unfold State.hasRight at h ⊢
  split at h
  · exact decide_eq_true (le_of_lt (Nat.lt_of_succ_le (of_decide_eq_true h)))
  · exact absurd h (by decide)

/-- The onset of a qualifying alarm sounds the horn and is told. -/
theorem OnsetEvent.tells {s t before : State} {p i a d : Nat} {e : Ev} (h : OnsetEvent s t p i a before e)
    (hr : risingKeys s.consoles = true) {c : Console} (hc : lookup s.consoles d = some c) (ha : c.attached = true)
    {x : Slot} (hx : lookup t.slots i = some x) (hq : QualifyingAlarm t d c x) :
    ∃ k, lookup t.consoles d = some k ∧ k.horn = .sounding
      ∧ (c.notices.length + s.records.length + 3 ≤ 32 → newAlarmNotice t a ∈ k.notices
          ∧ (c.horn ≠ .sounding → Notice.horn .sounding ∈ k.notices)) := by
  obtain ⟨y, hy, hslot, hkind, harea⟩ := h.change
  obtain ⟨sl, hsl, hpoint⟩ := h.slot
  obtain rfl : sl = x := Option.some.inj (hsl.symm.trans hx)
  obtain ⟨l, hl, hlen, -⟩ := h.takes d hr c hc
  obtain ⟨q, hcq⟩ := takeAll_same c l
  have hgrow := takeAll_length_le c l
  have hne : e.changes ≠ [] := by rw [hy]; exact List.cons_ne_nil y []
  obtain ⟨k, hk, htold⟩ := handOn_tells hne (h.rising hr) before [] hl (by rw [hcq]; exact ha)
  have hq' : QualifyingAlarm (handOn before e []) d (c.takeAll l) sl := by
    rw [← qualifies_iff, ← qualifies_congr h.pages.tables, qualifies_iff, hcq]
    exact hq
  have hsounds : SoundsHorn before (handOn before e []) e.changes d (c.takeAll l) := by
    refine ⟨y, by rw [hy]; exact List.mem_singleton_self y, i, sl, hslot, by rw [← h.pages.slots]; exact hx, hq',
      .inl fun hknown => ?_⟩
    exact (hknown.1 y (by rw [hy]; exact List.mem_singleton_self y) hslot).1 hkind
  have hhorn := htold.sounding hsounds
  obtain ⟨-, hshelved, hchatter, hsuppressed, -, op, hop, hright⟩ := hq
  have hview : ((c.takeAll l).operators.any fun op => (handOn before e []).hasRight op a .view) = true := by
    refine List.any_eq_true.mpr ⟨op, by rw [hcq]; exact hop, ?_⟩
    rw [← hasRight_congr h.pages.tables]
    rw [hpoint, h.area] at hright
    exact hasRight_view_of_ack hright
  have hsilent : ¬ ChangeSilenced (handOn before e []) y := by
    rintro ⟨-, -, -, j, z, hj, hz, -, hover⟩
    obtain rfl : i = j := Option.some.inj (hslot.symm.trans hj)
    rw [← h.pages.slots] at hz
    obtain rfl : sl = z := Option.some.inj (hx.symm.trans hz)
    simp [hshelved, hchatter, hsuppressed] at hover
  have hareatold : AreaTold (handOn before e []) e.changes (c.takeAll l) a :=
    ⟨⟨y, by rw [hy]; exact List.mem_singleton_self y, harea, hsilent⟩, hview⟩
  have hnames : (namedAreas e.changes).length = 1 := by rw [namedAreas_single (b := a) (by rw [hy, ← harea]; rfl)]; rfl
  refine ⟨k, by rw [h.consoles]; exact hk, hhorn, fun hroom => ?_⟩
  have hroom' : (c.takeAll l).notices.length + e.s.records.length + (namedAreas e.changes).length + 1 ≤ 32 := by
    rw [h.records, hnames]
    omega
  rw [h.pages.newAlarmNotice]
  refine ⟨htold.told hroom' a hareatold, fun hsilenthorn => ?_⟩
  have hnote := htold.horn hroom' (by rw [hhorn, hcq]; exact hsilenthorn.symm)
  rwa [hhorn] at hnote

/-! ## The notice of a claim (R105, R114) -/

theorem claimRefusal_taken (s : State) (ms n op a : Nat) (f : Frame) :
    claimRefusal (senderOf f op) a (s.taken ms n f) = firstFailing (claimChecks s f op a) := by
  have ht := taken_tables s ms n f
  have hareas := taken_areas s ms n f
  have hallowed : claimAllowed (s.taken ms n f) op a = claimAllowed s op a := by
    unfold claimAllowed State.hasRole State.operatorEntry
    rw [area_congr hareas, holds_congr hareas, ht]
  unfold claimRefusal claimChecks classOf senderOf
  dsimp only
  rw [consoleAtLeast_taken, hasRight_congr ht, area_congr hareas, hallowed]
  simp only [firstFailing_cons, firstFailing_nil]
  rw [Option.not_isNone]
  rfl

theorem lookup_holdArea {s : State} (hr : risingKeys s.consoles = true) (a d : Nat) (h : Holder) :
    lookup (s.holdArea a h).consoles d = (lookup s.consoles d).map fun c =>
      if (c.attached && c.operators.any fun x => s.hasRight x a .view) = true then
        c.take (.authority a .held (some h.operator)) else c := by
  have harea (g : Area → Area) : ((s.modArea a g).retainArea a).area a = g (s.area a) :=
    (area_congr (State.retainArea_areas ..) a).trans (area_modArea_self ..)
  unfold State.holdArea State.noteAuthority
  dsimp only
  rw [harea]
  exact lookup_notifyArea (s := (s.modArea a _).retainArea a) hr a d _

theorem lookup_takeArea {s : State} (hr : risingKeys s.consoles = true) (a d : Nat) (h : Holder) (k : JournalKind) :
    lookup (s.takeArea a h k).consoles d = (lookup s.consoles d).map fun c =>
      if (c.attached && c.operators.any fun x => s.hasRight x a .view) = true then
        c.take (.authority a .held (some h.operator)) else c := by
  rw [State.takeArea, State.writeJournal_consoles]
  exact lookup_holdArea (s := s.dropContexts a h.operator) hr a d h

/-- A CLAIM past its checks takes the area, and the answer changes no console (R114). -/
theorem exec_claim_takes {s : State} {f : Frame} {op a : Nat} (hc : countedFrom s f op = true)
    (hrecs : f.recs = [⟨0x26#8, b1 a⟩]) (ha : a < 16) (hchecks : firstFailing (claimChecks s f op a) = none)
    (hheld : (s.area a).authority ≠ .held) (ms : Nat) : ∃ t, exec (.claim ms f) s = .next t
      ∧ t.consoles = ((s.taken ms 1 f).takeArea a (senderOf f op).holder .claim).consoles := by
  have hnat : natOf (b1 a) = a := by
    simp [natOf, b1]
    omega
  have hheld' : ((s.taken ms 1 f).area a).authority ≠ .held := by rwa [area_congr (taken_areas ..)]
  refine ⟨_, congrArg Host.Outcome.next (oreq_of_counted hc ms _), ?_⟩
  unfold takeClaim
  rw [oreqData_of_recs (n := 1) hrecs rfl]
  dsimp only
  rw [hnat, if_neg (by omega), claimRefusal_taken, hchecks]
  dsimp only
  rw [if_neg hheld']
  exact State.answer_consoles ..

/-- Settles O33: who receives a notice; what handing on leaves of one console, by the notices it takes; and the two
events named. -/
theorem hornsAndNoticesFollowTheEvent : Obligations.HornsAndNoticesFollowTheEvent := by
  unfold Obligations.HornsAndNoticesFollowTheEvent
  refine ⟨fun s a d n hr => ⟨lookup_notifyArea hr a d n, lookup_notifyAll_attached hr d n⟩, fun s a => ?_,
    fun before e xs d c hne hr hc ha => ?_, fun ms p i a d f data c s hrep hr hc ha => ?_,
    fun ms op a d f s hc hrecs ha hchecks hheld hr => ?_⟩
  · simp only [newAlarmNotice, unackedCount, Slot.unacked, Slot.audible, Bool.and_assoc]
  · obtain ⟨k, hk, h⟩ := handOn_tells hne hr before xs hc ha
    have htold (a : Nat) : AreaTold (handOn before e xs) e.changes c a ↔
        (∃ x ∈ e.changes, x.area = a ∧ ¬ ChangeSilenced (handOn before e xs) x)
          ∧ (c.operators.any fun op => e.s.hasRight op a .view) = true := by
      unfold AreaTold
      simp only [hasRight_congr (handOn_tables before e xs)]
    exact ⟨k, hk, h.same, h.sounding, h.quiet, h.still, fun a hnot => h.untold a (mt (htold a).mp hnot),
      fun hroom => ⟨h.horn hroom, fun a ht => h.told hroom a ((htold a).mpr ht)⟩⟩
  · obtain ⟨t, before, e, ht, h⟩ := exec_prep_onset hrep ms
    exact ⟨t, ht, fun x => h.tells hr hc ha⟩
  · obtain ⟨t, ht, hcons⟩ := exec_claim_takes hc hrecs ha hchecks hheld ms
    have hrise : risingKeys (s.taken ms 1 f).consoles = true := modConsole_rising (s := s.atArrival ms) hr _ _
    refine ⟨t, ht, ?_⟩
    rw [hcons, lookup_takeArea hrise]
    simp only [hasRight_congr (taken_tables s ms 1 f)]
    rfl

end Sys2Proof.Machine
